-- ==== Sys2Proof/Word.lean ====
section
/-! DEFINITION. The word types of the machine (R17, R36). -/
namespace Sys2Proof

/-- A byte, the unit memory is addressed in (R17). -/
abbrev Byte := BitVec 8
/-- A 32-bit word: a v or s register, an instruction word (R33, R36). -/
abbrev Word := BitVec 32
/-- A 64-bit word: a pair, an address, a program counter (R17). -/
abbrev DWord := BitVec 64
/-- The set of threads of a group, bit t for thread t (R243). -/
abbrev Mask := BitVec 96

end Sys2Proof
end

