-- ==== Sys2Proof/Machine/Float.lean ====
section
/-! DEFINITION. Numbers bit by bit (spec/03_number_formats.md): formats, exact values, round_to, the arithmetic that rounds once,
block alignment. Values are exact rationals; rounding happens in roundTo alone. -/
namespace Sys2Proof.Machine
open Sys2Proof

/-- The flags an operation raises (R86): bit 0 IV, 1 DZ, 2 OF, 3 UF, 4 NX, 5 SI. -/
abbrev Flags := BitVec 6
def fIV : Flags := 1
def fDZ : Flags := 2
def fOF : Flags := 4
def fUF : Flags := 8
def fNX : Flags := 16
def fSI : Flags := 32

/-- The element formats (R71); integers carry their width and signedness. -/
inductive Fmt where
  | fp32 | fp64 | fp16 | bf16 | e5m2 | e4m3 | e2m1 | e8m0
  | int (w : Nat) (signed : Bool) | nb8 | p32
  deriving DecidableEq, Repr

/-- The format of a code of R71, with the signedness bit of the structure that names it. -/
def Fmt.ofCode (c : Nat) (signed : Bool) : Option Fmt :=
  match c with
  | 0 => some .fp32 | 1 => some .fp64 | 2 => some .fp16 | 3 => some .bf16 | 4 => some .e5m2 | 5 => some .e4m3 | 6 => some .e2m1
  | 7 => some .e8m0 | 8 => some (.int 32 signed) | 9 => some (.int 16 signed) | 10 => some (.int 8 signed)
  | 11 => some (.int 4 signed) | 12 => some (.int 2 signed) | 13 => some .nb8 | 14 => some .p32 | _ => none

/-- Width in bits (R71). -/
def Fmt.bits : Fmt → Nat
  | .fp32 => 32 | .fp64 => 64 | .fp16 => 16 | .bf16 => 16 | .e5m2 => 8 | .e4m3 => 8 | .e2m1 => 4 | .e8m0 => 8
  | .int w _ => w | .nb8 => 8 | .p32 => 32

/-- Exponent width, fraction width and bias of a floating-point format (R73). -/
structure FShape where
  e : Nat
  f : Nat
  bias : Nat
  /-- infinity and NaN as IEEE 754 -/
  ieee : Bool
  deriving DecidableEq, Repr

def Fmt.shape : Fmt → Option FShape
  | .fp32 => some ⟨8, 23, 127, true⟩ | .fp64 => some ⟨11, 52, 1023, true⟩ | .fp16 => some ⟨5, 10, 15, true⟩
  | .bf16 => some ⟨8, 7, 127, true⟩ | .e5m2 => some ⟨5, 2, 15, true⟩ | .e4m3 => some ⟨4, 3, 7, false⟩
  | .e2m1 => some ⟨2, 1, 1, false⟩ | _ => none

/-- 2 to an integer power, exact. -/
def pow2 (k : Int) : Rat := if 0 ≤ k then ((2 ^ k.toNat : Nat) : Rat) else 1 / ((2 ^ (-k).toNat : Nat) : Rat)

/-- ⌊log₂ q⌋ of a positive rational. -/
def floorLog2 (q : Rat) : Int :=
  let k := (Nat.log2 q.num.natAbs : Int) - Nat.log2 q.den
  if pow2 k ≤ q then k else k - 1

/-- An element's exact value in the extended reals; zeros keep their sign and NaNs their kind (R73, R75). -/
inductive FVal where
  | nan (signalling : Bool)
  | inf (neg : Bool)
  | zero (neg : Bool)
  | num (q : Rat)
  deriving DecidableEq, Repr

def FVal.isNan : FVal → Bool | .nan _ => true | _ => false
def FVal.isSNan : FVal → Bool | .nan s => s | _ => false
/-- The value as a rational; 0 for what has none. -/
def FVal.rat : FVal → Rat | .num q => q | _ => 0
/-- A rational as a value; an exact zero is +0. -/
def FVal.ofRat (q : Rat) : FVal := if q = 0 then .zero false else .num q

/-- Two's complement of a w-bit natural. -/
def signedOf (w n : Nat) : Int := if n < 2 ^ (w - 1) then n else (n : Int) - 2 ^ w
/-- The w-bit natural of an integer, modulo 2^w. -/
def wrapNat (w : Nat) (x : Int) : Nat := (x % 2 ^ w).toNat

/-- The value of an IEEE-shaped element (R73). -/
def FShape.value (s : FShape) (fmt : Fmt) (n : Nat) : FVal :=
  let neg := n / 2 ^ (s.e + s.f) % 2 = 1
  let ex := n / 2 ^ s.f % 2 ^ s.e
  let fr := n % 2 ^ s.f
  if s.ieee ∧ ex = 2 ^ s.e - 1 then
    if fr = 0 then .inf neg else .nan (fr < 2 ^ (s.f - 1))
  else if fmt = .e4m3 ∧ ex = 15 ∧ fr = 7 then .nan false
  else if ex = 0 ∧ fr = 0 then .zero neg
  else
    let m : Rat := if ex = 0 then (fr : Rat) * pow2 (1 - (s.bias : Int) - s.f)
                   else ((2 ^ s.f + fr : Nat) : Rat) * pow2 ((ex : Int) - s.bias - s.f)
    .num (if neg then -m else m)

/-- The value of an element's bits (R73, R74, R77). -/
def Fmt.value (fmt : Fmt) (n : Nat) : FVal :=
  match fmt.shape with
  | some s => s.value fmt n
  | none =>
    match fmt with
    | .e8m0 => if n = 255 then .nan false else .num (pow2 ((n : Int) - 127))
    | .int w true => .ofRat (signedOf w (n % 2 ^ w))
    | .int w false => .ofRat ((n % 2 ^ w : Nat) : Rat)
    | .nb8 => .ofRat (signedOf 8 (n % 256))
    | .p32 => .ofRat ((n % 2 ^ 32 : Nat) / 65536)
    | _ => .nan false

/-- Whether an element is subnormal (R73). -/
def Fmt.subnormal (fmt : Fmt) (n : Nat) : Bool :=
  match fmt.shape with
  | some s => n / 2 ^ s.f % 2 ^ s.e = 0 && n % 2 ^ s.f != 0
  | none => false

/-- The canonical NaN of a format (R75); 0 where there is none. -/
def Fmt.qnan : Fmt → Nat
  | .fp64 => 0x7FF8000000000000 | .fp32 => 0x7FC00000 | .fp16 => 0x7E00 | .bf16 => 0x7FC0 | .e5m2 => 0x7E | .e4m3 => 0x7F
  | .e8m0 => 0xFF | _ => 0

/-- The rounding modes (R47, R82); SR carries its random value (R83). -/
inductive RMode where
  | rne | rtz | rup | rdn | rna
  | sr (rho : Nat)
  deriving DecidableEq, Repr

/-- A mode code of R47 that rounds by itself; ρ serves SR. DYN and 111 have none. -/
def RMode.ofCode (c rho : Nat) : Option RMode :=
  match c with
  | 0 => some .rne | 1 => some .rtz | 2 => some .rup | 3 => some .rdn | 4 => some .rna | 5 => some (.sr rho) | _ => none

/-- A nonnegative magnitude rounded to an integer: the integer and whether it is inexact (R82, R83). -/
def roundMag (mode : RMode) (neg : Bool) (q : Rat) : Nat × Bool :=
  let n := q.floor.toNat
  let r := q - n
  let up : Bool := match mode with
    | .rne => decide (r > 1 / 2) || (decide (r = 1 / 2) && n % 2 == 1)
    | .rtz => false
    | .rup => !neg && decide (r ≠ 0)
    | .rdn => neg && decide (r ≠ 0)
    | .rna => decide (r ≥ 1 / 2)
    | .sr rho => decide ((r * 65536).floor > (rho : Int))
  (if up then n + 1 else n, decide (r ≠ 0))

/-- The largest finite magnitude (R73). -/
def FShape.maxFinite (s : FShape) (fmt : Fmt) : Rat :=
  if s.ieee then ((2 ^ (s.f + 1) - 1 : Nat) : Rat) * pow2 ((2 ^ s.e - 2 : Nat) - (s.bias : Int) - s.f)
  else if fmt = .e4m3 then 448 else 6

/-- The bits of the largest finite magnitude. -/
def FShape.maxBits (s : FShape) (fmt : Fmt) : Nat :=
  if s.ieee then (2 ^ s.e - 1) * 2 ^ s.f - 1 else if fmt = .e4m3 then 0x7E else 0x7

/-- The bits of ±∞, or of the largest finite value where there is no infinity. -/
def FShape.infBits (s : FShape) (fmt : Fmt) : Nat := if s.ieee then (2 ^ s.e - 1) * 2 ^ s.f else s.maxBits fmt

/-- The sign bit's weight in an element. -/
def FShape.sign (s : FShape) (neg : Bool) : Nat := if neg then 2 ^ (s.e + s.f) else 0

/-- The bits of a magnitude n × 2^(x − f), at least the subnormal grid, below overflow (R73). -/
def FShape.pack (s : FShape) (n : Nat) (x : Int) : Nat :=
  if n < 2 ^ s.f then n
  else if n < 2 ^ (s.f + 1) then (x + s.bias).toNat * 2 ^ s.f + (n - 2 ^ s.f)
  else (x + 1 + s.bias).toNat * 2 ^ s.f

/-- round_to of a nonzero finite real for a floating-point format (R85). -/
def FShape.round (s : FShape) (fmt : Fmt) (mode : RMode) (q : Rat) : Nat × Flags :=
  let neg := decide (q < 0)
  let m := if neg then -q else q
  let emin : Int := 1 - s.bias
  let x := max (floorLog2 m) emin
  let (n, inx) := roundMag mode neg (m * pow2 (s.f - x))
  let y : Rat := n * pow2 (x - s.f)
  if y > s.maxFinite fmt then
    let toInf : Bool := match mode with | .rne | .rna => true | .rup => !neg | .rdn => neg | .rtz | .sr _ => false
    (s.sign neg + (if toInf then s.infBits fmt else s.maxBits fmt), fOF ||| fNX)
  else
    (s.sign neg + s.pack n x,
     if inx then (if y < pow2 emin then fUF ||| fNX else fNX) else 0)

/-- round_to for E8M0 (R85). -/
def roundE8M0 (mode : RMode) (x : FVal) : Nat × Flags :=
  match x with
  | .nan _ | .zero _ | .inf true => (0xFF, fIV)
  | .inf false => (0xFE, fOF ||| fNX)
  | .num q =>
    if q < 0 then (0xFF, fIV)
    else if q < pow2 (-127) then (0x00, fUF ||| fNX)
    else
      let k := floorLog2 q
      let r := q / pow2 k - 1
      let up : Bool := match mode with
        | .rne => decide (r > 1 / 2) || (decide (r = 1 / 2) && (k + 127) % 2 == 1)
        | .rtz | .rdn => false
        | .rup => decide (r ≠ 0)
        | .rna => decide (r ≥ 1 / 2)
        | .sr rho => decide ((r * 65536).floor > (rho : Int))
      let k' := if up then k + 1 else k
      if k' > 127 then (0xFE, fOF ||| fNX) else ((k' + 127).toNat, if r = 0 then 0 else fNX)

/-- round_to for an integer range [lo, hi] in units of 1 (R85): saturates with IV. -/
def roundRange (lo hi : Int) (mode : RMode) (x : FVal) : Int × Flags :=
  match x with
  | .nan _ => (0, fIV)
  | .inf neg => (if neg then lo else hi, fIV)
  | .zero _ => (0, 0)
  | .num q =>
    let neg := decide (q < 0)
    let (n, inx) := roundMag mode neg (if neg then -q else q)
    let v : Int := if neg then -n else n
    if v < lo then (lo, fIV) else if v > hi then (hi, fIV) else (v, if inx then fNX else 0)

/-- The bits of an integer of w bits, with the flags of the rounding. -/
def roundInt (w : Nat) (signed : Bool) (mode : RMode) (x : FVal) : Nat × Flags :=
  let (v, f) := if signed then roundRange (-(2 ^ (w - 1))) (2 ^ (w - 1) - 1) mode x else roundRange 0 (2 ^ w - 1) mode x
  (wrapNat w v, f)

/-- round_to(x, fmt, mode) (R85): the bits and the flags. -/
def roundTo (fmt : Fmt) (mode : RMode) (x : FVal) : Nat × Flags :=
  match fmt.shape with
  | some s =>
    match x with
    | .nan sn => if fmt = .e2m1 then (0, fIV) else (fmt.qnan, if sn then fIV else 0)
    | .inf neg => (s.sign neg + s.infBits fmt, if s.ieee then 0 else fOF ||| fNX)
    | .zero neg => (s.sign neg, 0)
    | .num q => if q = 0 then (0, 0) else s.round fmt mode q
  | none =>
    match fmt with
    | .e8m0 => roundE8M0 mode x
    | .int w sg => roundInt w sg mode x
    | .nb8 => roundInt 8 true mode x
    | .p32 => roundInt 32 false mode (match x with | .num q => .num (q * 65536) | y => y)
    | _ => (0, fIV)

/-- A term of an exact sum: a signed product of elements given by their values (R121). -/
structure Term where
  neg : Bool
  fs : List FVal
  deriving DecidableEq, Repr

/-- Whether the value's sign is negative. -/
def FVal.negative : FVal → Bool | .inf n => n | .zero n => n | .num q => decide (q < 0) | .nan _ => false

/-- The exact product of two values, and whether it is 0 × ∞ (R121). -/
def FVal.mul (a b : FVal) : FVal × Bool :=
  let neg := a.negative != b.negative
  match a, b with
  | .nan s, .nan t => (.nan (s || t), false)
  | .nan s, _ => (.nan s, false)
  | _, .nan t => (.nan t, false)
  | .inf _, .zero _ | .zero _, .inf _ => (.nan false, true)
  | .inf _, _ | _, .inf _ => (.inf neg, false)
  | .zero _, _ | _, .zero _ => (.zero neg, false)
  | .num p, .num q => (.num (p * q), false)

def FVal.negate : FVal → FVal | .inf n => .inf (!n) | .zero n => .zero (!n) | .num q => .num (-q) | .nan s => .nan s

/-- A term's value and whether a product in it is invalid. -/
def Term.value (t : Term) : FVal × Bool :=
  let (v, iv) := t.fs.foldl (fun (acc : FVal × Bool) x => let (p, i) := acc.1.mul x; (p, acc.2 || i)) (.num 1, false)
  (if t.neg then v.negate else v, iv)

/-- The exact sum of values (R121): the result, and whether it holds ∞ − ∞. A sum that is exactly zero takes its sign from the
rule of R121, which says nothing of zeros of unequal sign with no other term: they too give +0, or −0 under RDN (DEDUCED, log entry 107). A quiet NaN beside
infinities of both signs raises no IV (DESIGN CHOICE, log entry 122). -/
def exactSum (rdn : Bool) (vs : List FVal) : FVal × Bool :=
  if vs.any FVal.isNan then (.nan false, false)
  else
    let pinf := vs.any (· == .inf false)
    let ninf := vs.any (· == .inf true)
    if pinf && ninf then (.nan false, true)
    else if pinf then (.inf false, false)
    else if ninf then (.inf true, false)
    else
      let s := (vs.map FVal.rat).foldl (· + ·) 0
      if s ≠ 0 then (.num s, false)
      else if vs.all (· == .zero true) then (.zero true, false)
      else if vs.all (· == .zero false) then (.zero false, false)
      else (.zero rdn, false)

/-- One result element (R121): the exact sum of the terms, rounded once, with its flags but SI. -/
def sumRound (fmt : Fmt) (mode : RMode) (ts : List Term) : Nat × Flags :=
  let vs := ts.map Term.value
  let snan := ts.any fun t => t.fs.any FVal.isSNan
  let badProduct := vs.any (·.2)
  let (s, inval) := exactSum (mode == .rdn) (vs.map (·.1))
  let (y, f) := roundTo fmt mode (match s with | .nan _ => .nan false | v => v)
  (y, f ||| (if snan || badProduct || inval then fIV else 0))

/-- SI when any of the elements read is subnormal (R86). -/
def siOf (fmt : Fmt) (xs : List Nat) : Flags := if xs.any (Fmt.subnormal fmt) then fSI else 0

/-- A sum of products of elements of one format, rounded once into it, with every flag (R121). A term is a sign and its
elements. -/
def sumProducts (fmt : Fmt) (mode : RMode) (ts : List (Bool × List Nat)) : Nat × Flags :=
  let (y, f) := sumRound fmt mode (ts.map fun t => ⟨t.1, t.2.map fmt.value⟩)
  (y, f ||| siOf fmt (ts.flatMap (·.2)))

def fAdd (fmt : Fmt) (m : RMode) (a b : Nat) : Nat × Flags := sumProducts fmt m [(false, [a]), (false, [b])]
def fSub (fmt : Fmt) (m : RMode) (a b : Nat) : Nat × Flags := sumProducts fmt m [(false, [a]), (true, [b])]
def fMul (fmt : Fmt) (m : RMode) (a b : Nat) : Nat × Flags := sumProducts fmt m [(false, [a, b])]
def fFma (fmt : Fmt) (m : RMode) (a b d : Nat) : Nat × Flags := sumProducts fmt m [(false, [a, b]), (false, [d])]

/-- An order on values in which −0 is below +0 (R124); NaN takes no part. -/
def FVal.key : FVal → Int × Rat × Int
  | .inf true => (-1, 0, 0) | .inf false => (1, 0, 0) | .zero n => (0, 0, if n then 0 else 1) | .num q => (0, q, 0) | .nan _ => (0, 0, 0)

/-- a < b in the order of R124. -/
def FVal.below (a b : FVal) : Bool :=
  let x := a.key; let y := b.key
  decide (x.1 < y.1) || (x.1 == y.1 && (decide (x.2.1 < y.2.1) || (x.2.1 == y.2.1 && decide (x.2.2 < y.2.2))))

/-- FMIN, FMAX, DMIN and DMAX (R124). -/
def fMinMax (fmt : Fmt) (isMax : Bool) (a b : Nat) : Nat × Flags :=
  let x := fmt.value a; let y := fmt.value b
  let f := (if x.isSNan || y.isSNan then fIV else 0) ||| siOf fmt [a, b]
  let r := if x.isNan && y.isNan then fmt.qnan else if x.isNan then b else if y.isNan then a
    else if isMax then (if x.below y then b else a) else (if y.below x then b else a)
  (r, f)

/-- FCMP and DCMP (R41, R126): the predicate and the flags. -/
def fCmp (fmt : Fmt) (c : Nat) (a b : Nat) : Bool × Flags :=
  let x := fmt.value a; let y := fmt.value b
  let un := x.isNan || y.isNan
  let iv := if 2 ≤ c ∧ c ≤ 5 then un else x.isSNan || y.isSNan
  let kx := x.key; let ky := y.key
  let lt := decide (kx.1 < ky.1) || (kx.1 == ky.1 && decide (kx.2.1 < ky.2.1))
  let eq := kx.1 == ky.1 && kx.2.1 == ky.2.1
  let r : Bool := match c with
    | 0 => !un && eq | 1 => !un && !eq | 2 => !un && lt | 3 => !un && (lt || eq) | 4 => !un && !(lt || eq) | 5 => !un && !lt
    | 10 => !un | 11 => un | 12 => un || eq | 13 => un || !eq | _ => false
  (r, (if iv then fIV else 0) ||| siOf fmt [a, b])

/-- FCLASS (R130). -/
def fClass (n : Nat) : Nat :=
  match Fmt.fp32.value n with
  | .nan true => 1 | .nan false => 2 | .inf true => 4 | .inf false => 512 | .zero true => 32 | .zero false => 64
  | .num q => if Fmt.fp32.subnormal n then (if q < 0 then 16 else 128) else (if q < 0 then 8 else 256)

/-- A conversion of one element (R128, R131, R145): round_to of its value, SI for a subnormal source. -/
def fConvert (src dst : Fmt) (mode : RMode) (n : Nat) : Nat × Flags :=
  let (y, f) := roundTo dst mode (src.value n)
  (y, f ||| siOf src [n])

/-- FRND and DCVT.RINT (R129): round to an integral value of the format. -/
def fRint (fmt : Fmt) (mode : RMode) (n : Nat) : Nat × Flags :=
  match fmt.value n with
  | .nan s => (fmt.qnan, if s then fIV else 0)
  | .inf _ | .zero _ => (n, 0)
  | .num q =>
    let neg := decide (q < 0)
    let (k, inx) := roundMag mode neg (if neg then -q else q)
    let v : FVal := if k = 0 then .zero neg else .num (if neg then -(k : Rat) else k)
    ((roundTo fmt .rne v).1, (if inx then fNX else 0) ||| siOf fmt [n])

/-- The neighbours of a finite real in FP32, below and above or equal (R82); outside the finite range the far one is ±∞. -/
def bracket32 (q : Rat) : Nat × Nat :=
  if q = 0 then (0, 0) else
    ((roundTo .fp32 .rdn (.num q)).1, (roundTo .fp32 .rup (.num q)).1)

/-- The unbiased exponent of a finite nonzero element, emin for subnormals (R91). -/
def FShape.expo (s : FShape) (n : Nat) : Int :=
  let ex := n / 2 ^ s.f % 2 ^ s.e
  (if ex = 0 then 1 else ex) - (s.bias : Int)

/-- align_block(v, W) (R91): the aligned integers, the block's exponent, whether alignment is inexact. Specials stand as 0. -/
def alignBlock (fmt : Fmt) (w : Nat) (v : List Nat) : List Int × Int × Bool :=
  match fmt.shape with
  | none => (v.map fun n => ((fmt.value n).rat).floor, (w : Int) - 1, false)
  | some s =>
    let fin := v.filter fun n => match fmt.value n with | .num _ => true | _ => false
    match fin with
    | [] => (v.map fun _ => 0, 0, false)
    | n0 :: rest =>
      let E := rest.foldl (fun m n => max m (s.expo n + 1)) (s.expo n0 + 1)
      let one (n : Nat) : Int × Bool :=
        let q := (fmt.value n).rat
        let neg := decide (q < 0)
        let (k, inx) := roundMag .rne neg ((if neg then -q else q) * pow2 ((w : Int) - 1 - E))
        (if neg then -k else k, inx)
      let r := v.map one
      (r.map (·.1), E, r.any (·.2))

/-- neumaier_add (R96): every operation FP32 RNE. -/
def neumaierAdd (hi lo x : Nat) : Nat × Nat :=
  let s := (fAdd .fp32 .rne hi x).1
  let ge := decide (|(Fmt.fp32.value hi).rat| ≥ |(Fmt.fp32.value x).rat|)
  let sub (a b : Nat) := (fSub .fp32 .rne a b).1
  let add (a b : Nat) := (fAdd .fp32 .rne a b).1
  let c := if ge then add (sub hi s) x else add (sub x s) hi
  (s, add lo c)

end Sys2Proof.Machine
end

