-- ==== Sys2Proof/Config.lean ====
section
/-! DEFINITION. What the spec leaves open (R15), as constants without a body: nothing in Lean can evaluate one or prove a
value of one. Log entry 1 names them. -/
namespace Sys2Proof.Config

/-- An unspecified value (R15): the n-th one drawn in a run. Its low bits serve a narrower place. -/
opaque freeValue : Nat → BitVec 512
/-- Which of the steps that may come next is taken, where the spec gives no order (R12, R230, R232, R282). -/
opaque pick : Nat → Nat
/-- How far the CYCLE of a core is ahead of `State.clock` (R13, R110: its reset value is unspecified): by core number. -/
opaque cycleBase : Nat → Nat
/-- Which of the versions of a block of code, a line of a structure or of texels, or a unit of a table entry that was written while a task of its
context runs a read sees (R38, R315, R323, R393): by the clock, who reads and the block. -/
opaque codeSeen : Nat → Nat → Nat → Nat
/-- Whether a faithful function (R133) returns the upper of the two values that bracket the exact one: by function number
and operand, the same on every core. -/
opaque faithfulUpper : Nat → Word → Bool
/-- The value WFRES delivers in one slot (R144), before the check against its bound: by output number 0 to 3 and the three
operands. -/
opaque fresnel : Nat → Word → Word → Word → Word
/-- The measured quantities a step reads from sensors (R462): power of a die, temperature of a die, at the n-th interval. -/
opaque sensor : Nat → Nat → Nat
/-- The SLH-DSA signature (R21) of a message under the package's identity key: 7,856 bytes as one number. -/
opaque signature : List Byte → Nat
/-- Whether a signature of a message verifies under the key of the numbered kind (R440, R457). -/
opaque verifies : Nat → List Byte → List Byte → Bool

/-- The SHA-256 (R460) of the numbered thing's bytes: 256 bits. -/
opaque digest : Nat → List Nat → Nat
/-- What the fuses and the part fix for the report (R461): 0 the identity public key, 1 the measurement of the ROM, 2 the stepping. -/
opaque identity : Nat → Nat
/-- The nanoseconds of the control processor's time that a stage of boot takes (R457): by free values drawn and stage. -/
opaque stageTime : Nat → Nat → Nat
/-- The security version of an image (R457). -/
opaque imageVersion : List Byte → Nat

end Sys2Proof.Config
end

