-- ==== Sys2Proof/Syntax.lean ====
section
/-! DEFINITION. The instruction syntax: one constructor for every row of spec/opcode_table.json. An instruction of the two
instruction sets (R48, R49) carries its STALL field and its operand fields as bit vectors, sub-fields cut as the row's
encoding cuts them (R39 to R47). An event (a step the machine takes by itself or under the host's hand) carries nothing:
what it acts on stands in the state (Machine/State.lean, subject), where the step puts it. -/
namespace Sys2Proof

/-- The instructions and events of the opcode table. -/
inductive Instr where
  /-- R98. Lane integer add modulo 2^32 of A and B into D, with poison propagated. -/
  | iadd (stl : BitVec 3) (d : BitVec 7) (a : BitVec 7) (b : BitVec 7)
  /-- R98. Lane integer subtract A minus B modulo 2^32. -/
  | isub (stl : BitVec 3) (d : BitVec 7) (a : BitVec 7) (b : BitVec 7)
  /-- R98. Lane add with carry in and out through p6; a poisoned source traps POISON. -/
  | iaddc (stl : BitVec 3) (d : BitVec 7) (a : BitVec 7) (b : BitVec 7)
  /-- R98. Lane subtract with borrow in and out through p6. -/
  | isubb (stl : BitVec 3) (d : BitVec 7) (a : BitVec 7) (b : BitVec 7)
  /-- R98. Lane multiply, low 32 bits of the product. -/
  | imul (stl : BitVec 3) (d : BitVec 7) (a : BitVec 7) (b : BitVec 7)
  /-- R98. Lane signed multiply, high 32 bits of the 64-bit product. -/
  | imulh (stl : BitVec 3) (d : BitVec 7) (a : BitVec 7) (b : BitVec 7)
  /-- R98. Lane unsigned multiply, high 32 bits. -/
  | imulhu (stl : BitVec 3) (d : BitVec 7) (a : BitVec 7) (b : BitVec 7)
  /-- R98. Lane multiply-add A times B plus D, low 32 bits. -/
  | imad (stl : BitVec 3) (d : BitVec 7) (a : BitVec 7) (b : BitVec 7)
  /-- R98. Lane signed minimum. -/
  | imin (stl : BitVec 3) (d : BitVec 7) (a : BitVec 7) (b : BitVec 7)
  /-- R98. Lane signed maximum. -/
  | imax (stl : BitVec 3) (d : BitVec 7) (a : BitVec 7) (b : BitVec 7)
  /-- R98. Lane unsigned minimum. -/
  | iminu (stl : BitVec 3) (d : BitVec 7) (a : BitVec 7) (b : BitVec 7)
  /-- R98. Lane unsigned maximum. -/
  | imaxu (stl : BitVec 3) (d : BitVec 7) (a : BitVec 7) (b : BitVec 7)
  /-- R98. Lane bitwise AND. -/
  | and (stl : BitVec 3) (d : BitVec 7) (a : BitVec 7) (b : BitVec 7)
  /-- R98. Lane bitwise OR. -/
  | or (stl : BitVec 3) (d : BitVec 7) (a : BitVec 7) (b : BitVec 7)
  /-- R98. Lane bitwise XOR. -/
  | xor (stl : BitVec 3) (d : BitVec 7) (a : BitVec 7) (b : BitVec 7)
  /-- R98. Lane A AND NOT B. -/
  | andn (stl : BitVec 3) (d : BitVec 7) (a : BitVec 7) (b : BitVec 7)
  /-- R98. Lane shift left, counts of 32 or more give 0. -/
  | shl (stl : BitVec 3) (d : BitVec 7) (a : BitVec 7) (b : BitVec 7)
  /-- R98. Lane logical shift right with saturating count. -/
  | shr (stl : BitVec 3) (d : BitVec 7) (a : BitVec 7) (b : BitVec 7)
  /-- R98. Lane arithmetic shift right with saturating count. -/
  | sar (stl : BitVec 3) (d : BitVec 7) (a : BitVec 7) (b : BitVec 7)
  /-- R98. Lane rotate left by B mod 32. -/
  | rotl (stl : BitVec 3) (d : BitVec 7) (a : BitVec 7) (b : BitVec 7)
  /-- R98. Lane population count of A. -/
  | popc (stl : BitVec 3) (d : BitVec 7) (a : BitVec 7)
  /-- R98. Lane count of leading zeros of A. -/
  | clz (stl : BitVec 3) (d : BitVec 7) (a : BitVec 7)
  /-- R98. Lane bit reversal of A. -/
  | brev (stl : BitVec 3) (d : BitVec 7) (a : BitVec 7)
  /-- R99. Lane bit-field extract under the descriptor in B. -/
  | bfe (stl : BitVec 3) (d : BitVec 7) (a : BitVec 7) (b : BitVec 7)
  /-- R99. Lane bit-field insert of A into D under the descriptor in B. -/
  | bfi (stl : BitVec 3) (d : BitVec 7) (a : BitVec 7) (b : BitVec 7)
  /-- R102. Lane integer compare writing a p predicate under the condition in D. -/
  | icmp (stl : BitVec 3) (c : BitVec 4) (p : BitVec 3) (a : BitVec 7) (b : BitVec 7)
  /-- R126. Lane FP32 compare writing a p predicate. -/
  | fcmp (stl : BitVec 3) (c : BitVec 4) (p : BitVec 3) (a : BitVec 7) (b : BitVec 7)
  /-- R102. Lane conditional move of B into D under a predicate. -/
  | cmov (stl : BitVec 3) (d : BitVec 7) (k : BitVec 1) (n : BitVec 1) (p : BitVec 3) (b : BitVec 7)
  /-- R102. Lane move of A into D with bits and poison unchanged. -/
  | mov (stl : BitVec 3) (d : BitVec 7) (a : BitVec 7)
  /-- R102. Lane move of a 14-bit sign-extended immediate. -/
  | movi (stl : BitVec 3) (d : BitVec 7) (imm : BitVec 14)
  /-- R126. Lane FP64 compare writing a p predicate. -/
  | dcmp (stl : BitVec 3) (c : BitVec 4) (p : BitVec 3) (a : BitVec 7) (b : BitVec 7)
  /-- R102. Copies a uniform register into a vector register for each active thread. -/
  | movu (stl : BitVec 3) (d : BitVec 7) (a : BitVec 7)
  /-- R102. Copies a uniform register into an index register once for the group. -/
  | movuX (stl : BitVec 3) (d : BitVec 7) (a : BitVec 7)
  /-- R123. FP32 add rounded once under RMODE. -/
  | fadd (stl : BitVec 3) (d : BitVec 7) (a : BitVec 7) (b : BitVec 7)
  /-- R123. FP32 subtract. -/
  | fsub (stl : BitVec 3) (d : BitVec 7) (a : BitVec 7) (b : BitVec 7)
  /-- R123. FP32 multiply. -/
  | fmul (stl : BitVec 3) (d : BitVec 7) (a : BitVec 7) (b : BitVec 7)
  /-- R123. FP32 fused multiply-add with D as third source. -/
  | ffma (stl : BitVec 3) (d : BitVec 7) (a : BitVec 7) (b : BitVec 7)
  /-- R124. FP32 minimum with NaN and signed-zero rules. -/
  | fmin (stl : BitVec 3) (d : BitVec 7) (a : BitVec 7) (b : BitVec 7)
  /-- R124. FP32 maximum. -/
  | fmax (stl : BitVec 3) (d : BitVec 7) (a : BitVec 7) (b : BitVec 7)
  /-- R125. Copies A with the sign bit of B. -/
  | fcpys (stl : BitVec 3) (d : BitVec 7) (a : BitVec 7) (b : BitVec 7)
  /-- R128. FP32 conversion selected by a code and rounding mode in B. -/
  | fcvt (stl : BitVec 3) (d : BitVec 7) (a : BitVec 7) (c : BitVec 4) (m : BitVec 3)
  /-- R129. Rounds A to an integral FP32 value. -/
  | frnd (stl : BitVec 3) (d : BitVec 7) (a : BitVec 7) (m : BitVec 3)
  /-- R130. Writes a one-hot FP32 class mask. -/
  | fclass (stl : BitVec 3) (d : BitVec 7) (a : BitVec 7)
  /-- R123. FP64 add on pairs. -/
  | dadd (stl : BitVec 3) (d : BitVec 7) (a : BitVec 7) (b : BitVec 7)
  /-- R123. FP64 multiply. -/
  | dmul (stl : BitVec 3) (d : BitVec 7) (a : BitVec 7) (b : BitVec 7)
  /-- R123. FP64 fused multiply-add. -/
  | dfma (stl : BitVec 3) (d : BitVec 7) (a : BitVec 7) (b : BitVec 7)
  /-- R124. FP64 minimum. -/
  | dmin (stl : BitVec 3) (d : BitVec 7) (a : BitVec 7) (b : BitVec 7)
  /-- R124. FP64 maximum. -/
  | dmax (stl : BitVec 3) (d : BitVec 7) (a : BitVec 7) (b : BitVec 7)
  /-- R131. FP64 conversion selected by a code and rounding mode in B. -/
  | dcvt (stl : BitVec 3) (d : BitVec 7) (a : BitVec 7) (c : BitVec 4) (m : BitVec 3)
  /-- R133. Correctly rounded reciprocal on the special-function unit. -/
  | rcp (stl : BitVec 3) (d : BitVec 7) (a : BitVec 7)
  /-- R133. Correctly rounded reciprocal square root. -/
  | rsq (stl : BitVec 3) (d : BitVec 7) (a : BitVec 7)
  /-- R133. Correctly rounded square root. -/
  | sqrt (stl : BitVec 3) (d : BitVec 7) (a : BitVec 7)
  /-- R133. Correctly rounded 2^x. -/
  | exp2 (stl : BitVec 3) (d : BitVec 7) (a : BitVec 7)
  /-- R133. Correctly rounded log base 2. -/
  | log2 (stl : BitVec 3) (d : BitVec 7) (a : BitVec 7)
  /-- R133. Faithful sin(pi x). -/
  | sinpi (stl : BitVec 3) (d : BitVec 7) (a : BitVec 7)
  /-- R133. Faithful cos(pi x). -/
  | cospi (stl : BitVec 3) (d : BitVec 7) (a : BitVec 7)
  /-- R133. Faithful tanh. -/
  | tanh (stl : BitVec 3) (d : BitVec 7) (a : BitVec 7)
  /-- R133. Faithful logistic sigmoid. -/
  | sigm (stl : BitVec 3) (d : BitVec 7) (a : BitVec 7)
  /-- R133. Faithful error function. -/
  | erf (stl : BitVec 3) (d : BitVec 7) (a : BitVec 7)
  /-- R133. Faithful GELU. -/
  | gelu (stl : BitVec 3) (d : BitVec 7) (a : BitVec 7)
  /-- R133. Faithful SiLU. -/
  | silu (stl : BitVec 3) (d : BitVec 7) (a : BitVec 7)
  /-- R135. Complex FP32 add. -/
  | zadd (stl : BitVec 3) (d : BitVec 7) (a : BitVec 7) (b : BitVec 7)
  /-- R135. Complex FP32 multiply, each part rounded once. -/
  | zmul (stl : BitVec 3) (d : BitVec 7) (a : BitVec 7) (b : BitVec 7)
  /-- R135. Complex fused multiply-add. -/
  | zfma (stl : BitVec 3) (d : BitVec 7) (a : BitVec 7) (b : BitVec 7)
  /-- R136. Complex unary operation selected by B. -/
  | zop (stl : BitVec 3) (d : BitVec 7) (a : BitVec 7) (o : BitVec 7)
  /-- R138. Spectral per-slot add. -/
  | wadd (stl : BitVec 3) (d : BitVec 7) (a : BitVec 7) (b : BitVec 7)
  /-- R138. Spectral per-slot subtract. -/
  | wsub (stl : BitVec 3) (d : BitVec 7) (a : BitVec 7) (b : BitVec 7)
  /-- R138. Spectral per-slot multiply. -/
  | wmul (stl : BitVec 3) (d : BitVec 7) (a : BitVec 7) (b : BitVec 7)
  /-- R138. Spectral per-slot fused multiply-add. -/
  | wfma (stl : BitVec 3) (d : BitVec 7) (a : BitVec 7) (b : BitVec 7)
  /-- R138. Spectral per-slot minimum. -/
  | wmin (stl : BitVec 3) (d : BitVec 7) (a : BitVec 7) (b : BitVec 7)
  /-- R138. Spectral per-slot maximum. -/
  | wmax (stl : BitVec 3) (d : BitVec 7) (a : BitVec 7) (b : BitVec 7)
  /-- R138. Scales every slot by a vector value. -/
  | wscl (stl : BitVec 3) (d : BitVec 7) (a : BitVec 7) (b : BitVec 7)
  /-- R138. Broadcasts a vector value into all eight slots. -/
  | wbcst (stl : BitVec 3) (d : BitVec 7) (a : BitVec 7)
  /-- R138. Exact sum of eight slots rounded once. -/
  | wsum (stl : BitVec 3) (d : BitVec 7) (a : BitVec 7)
  /-- R138. Faithful e^x per slot. -/
  | wexp (stl : BitVec 3) (d : BitVec 7) (a : BitVec 7)
  /-- R139. Forms a hero-wavelength packet from a variate. -/
  | whero (stl : BitVec 3) (d : BitVec 7) (a : BitVec 7)
  /-- R140. Evaluates a spectral table slot at each wavelength, variable latency. -/
  | wlut (stl : BitVec 3) (d : BitVec 7) (a : BitVec 7) (b : BitVec 7)
  /-- R141. Projects a spectral packet onto four sensor channels. -/
  | wcmf (stl : BitVec 3) (d : BitVec 7) (a : BitVec 7) (b : BitVec 7)
  /-- R142. Rotates the reference frame of a Stokes group. -/
  | wrots (stl : BitVec 3) (d : BitVec 7) (a : BitVec 7) (b : BitVec 7)
  /-- R143. Applies a four-parameter Mueller matrix to a Stokes group. -/
  | wmuel (stl : BitVec 3) (d : BitVec 7) (a : BitVec 7) (b : BitVec 7)
  /-- R144. Computes Fresnel Mueller parameters per slot. -/
  | wfres (stl : BitVec 3) (d : BitVec 7) (a : BitVec 7) (b : BitVec 7)
  /-- R174. Votes a predicate over each partition tile. -/
  | vote (stl : BitVec 3) (d : BitVec 7) (k : BitVec 1) (n : BitVec 1) (p : BitVec 3) (m : BitVec 7)
  /-- R175. Shuffles values between members of a tile. -/
  | shfl (stl : BitVec 3) (d : BitVec 7) (a : BitVec 7) (m : BitVec 2) (c : BitVec 5)
  /-- R176. Sends each thread's value to a named tile member. -/
  | pushl (stl : BitVec 3) (d : BitVec 7) (a : BitVec 7) (b : BitVec 7)
  /-- R177. Reduces over a tile and writes every active member. -/
  | tred (stl : BitVec 3) (d : BitVec 7) (a : BitVec 7) (o : BitVec 7)
  /-- R105. Conditional lane branch that may split the path. -/
  | brc (stl : BitVec 3) (off : BitVec 14) (k : BitVec 1) (n : BitVec 1) (p : BitVec 3)
  /-- R105. Branches each thread to its own register target, splitting by target. -/
  | brx (stl : BitVec 3) (a : BitVec 7)
  /-- R105. Per-thread register call writing the link. -/
  | callx (stl : BitVec 3) (d : BitVec 7) (a : BitVec 7)
  /-- R105. Per-thread return to a register target. -/
  | ret (stl : BitVec 3) (a : BitVec 7)
  /-- R107. Exits the active threads of the path. -/
  | exit (stl : BitVec 3)
  /-- R178. Sends a register to another group of the block and parks until paired. -/
  | xsend (stl : BitVec 3) (g : BitVec 7) (a : BitVec 7) (c : BitVec 7)
  /-- R178. Receives a register from another group, pairing with its XSEND. -/
  | xrecv (stl : BitVec 3) (d : BitVec 7) (g : BitVec 7) (c : BitVec 7)
  /-- R114. Draws a word from the keyed generator for each thread. -/
  | rng (stl : BitVec 3) (d : BitVec 7) (a : BitVec 7) (b : BitVec 7)
  /-- R110. Lane read of a special register. -/
  | sread (stl : BitVec 3) (d : BitVec 7) (n : BitVec 7)
  /-- R116. Parks the path until its earlier loads, stores or engine requests complete. -/
  | waitr (stl : BitVec 3) (q : BitVec 3)
  /-- R108. Parks the path until every live path of the group reaches this PC, then merges. -/
  | join (stl : BitVec 3)
  /-- R115. Predicated software trap SWTRAP. -/
  | trapp (stl : BitVec 3) (code : BitVec 14) (k : BitVec 1) (n : BitVec 1) (p : BitVec 3)
  /-- R150. Lane load from memory. -/
  | ld (stl : BitVec 3) (d : BitVec 7) (a : BitVec 7) (size : BitVec 3) (sign : BitVec 1) (scope : BitVec 3) (subop : BitVec 5) (off : BitVec 20)
  /-- R150. Lane store to memory. -/
  | st (stl : BitVec 3) (d : BitVec 7) (a : BitVec 7) (size : BitVec 3) (sign : BitVec 1) (scope : BitVec 3) (subop : BitVec 5) (off : BitVec 20)
  /-- R150. Lane load of a spectral packet. -/
  | ldw (stl : BitVec 3) (d : BitVec 7) (a : BitVec 7) (size : BitVec 3) (sign : BitVec 1) (scope : BitVec 3) (subop : BitVec 5) (off : BitVec 20)
  /-- R150. Lane store of a spectral packet. -/
  | stw (stl : BitVec 3) (d : BitVec 7) (a : BitVec 7) (size : BitVec 3) (sign : BitVec 1) (scope : BitVec 3) (subop : BitVec 5) (off : BitVec 20)
  /-- R159. Full-empty load that waits while the tag is empty. -/
  | ldfe (stl : BitVec 3) (d : BitVec 7) (a : BitVec 7) (size : BitVec 3) (sign : BitVec 1) (scope : BitVec 3) (subop : BitVec 5) (off : BitVec 20)
  /-- R159. Full-empty store that sets the tag full, optionally waiting for empty. -/
  | stfe (stl : BitVec 3) (d : BitVec 7) (a : BitVec 7) (size : BitVec 3) (sign : BitVec 1) (scope : BitVec 3) (subop : BitVec 5) (off : BitVec 20)
  /-- R151. Returning lane atomic read-modify-write. -/
  | atom (stl : BitVec 3) (d : BitVec 7) (a : BitVec 7) (b : BitVec 7) (size : BitVec 3) (sign : BitVec 1) (scope : BitVec 3) (subop : BitVec 5) (off : BitVec 20)
  /-- R151. Non-returning lane atomic reduction. -/
  | red (stl : BitVec 3) (a : BitVec 7) (b : BitVec 7) (size : BitVec 3) (sign : BitVec 1) (scope : BitVec 3) (subop : BitVec 5) (off : BitVec 20)
  /-- R155. Floating-point atomic at home in arrival order. -/
  | atomf (stl : BitVec 3) (d : BitVec 7) (a : BitVec 7) (b : BitVec 7) (size : BitVec 3) (sign : BitVec 1) (scope : BitVec 3) (subop : BitVec 5) (off : BitVec 20)
  /-- R145. Converts between FP32 and 64- or 128-bit fixed point. -/
  | cvtfx (stl : BitVec 3) (d : BitVec 7) (a : BitVec 7) (dir : BitVec 1) (rm : BitVec 3) (fxw : BitVec 2) (frac : BitVec 7)
  /-- R156. 128-bit atomic add modulo 2^128. -/
  | atomx (stl : BitVec 3) (a : BitVec 7) (b : BitVec 7) (size : BitVec 3) (sign : BitVec 1) (scope : BitVec 3) (subop : BitVec 5) (off : BitVec 20)
  /-- R161. Polling load, with .Y waiting for a change under back-off. -/
  | ldpoll (stl : BitVec 3) (d : BitVec 7) (a : BitVec 7) (size : BitVec 3) (sign : BitVec 1) (scope : BitVec 3) (subop : BitVec 5) (off : BitVec 20)
  /-- R220. Sends a keyed film record into the block's outbox. -/
  | filmadd (stl : BitVec 3) (a : BitVec 7) (b : BitVec 7) (film : BitVec 3) (nch : BitVec 2)
  /-- R104. Lane load of a 32-bit immediate. -/
  | limm (stl : BitVec 3) (d : BitVec 7) (imm : BitVec 32)
  /-- R104. Lane add of a 32-bit immediate. -/
  | iaddi (stl : BitVec 3) (d : BitVec 7) (a : BitVec 7) (imm : BitVec 32)
  /-- R127. FP32 multiply by an immediate. -/
  | fmuli (stl : BitVec 3) (d : BitVec 7) (a : BitVec 7) (imm : BitVec 32)
  /-- R213. Starts a ray traversal, or with .POP traces a popped child. -/
  | trace (stl : BitVec 3) (d : BitVec 7) (a : BitVec 7) (b : BitVec 7) (pop : BitVec 1) (flags : BitVec 7) (mask : BitVec 8)
  /-- R216. Pushes a child ray onto the thread's spawn stack. -/
  | spawn (stl : BitVec 3) (k : BitVec 1) (p : BitVec 3) (a : BitVec 7) (b : BitVec 7) (sel : BitVec 4)
  /-- R215. Reads attributes of the current traversal. -/
  | hita (stl : BitVec 3) (d : BitVec 7) (sel : BitVec 4)
  /-- R214. Decides a reported candidate and resumes traversal. -/
  | hitc (stl : BitVec 3) (d : BitVec 7) (a : BitVec 7) (sel : BitVec 4)
  /-- R218. Image texture lookup by Chameleon. -/
  | tex (stl : BitVec 3) (d : BitVec 7) (a : BitVec 7) (desc : BitVec 8) (samp : BitVec 8)
  /-- R218. Spectral texture lookup by Chameleon. -/
  | wtex (stl : BitVec 3) (d : BitVec 7) (a : BitVec 7) (b : BitVec 7) (desc : BitVec 8) (samp : BitVec 8)
  /-- R202. Submits per-thread network evaluation rows to Chorus. -/
  | neval (stl : BitVec 3) (d : BitVec 7) (a : BitVec 7) (b : BitVec 7) (nin : BitVec 6) (nout : BitVec 6)
  /-- R199. Quarter matrix product from registers against a slot. -/
  | mmaq (stl : BitVec 3) (d : BitVec 7) (a : BitVec 7) (b : BitVec 7) (slot : BitVec 4) (km : BitVec 6) (nm : BitVec 4) (win : BitVec 5)
  /-- R197. Raw or metadata read of an accumulator tile. -/
  | mrd (stl : BitVec 3) (d : BitVec 7) (b : BitVec 7) (tile : BitVec 4) (col : BitVec 6) (row : BitVec 5)
  /-- R197. Raw or metadata write of an accumulator tile. -/
  | mwr (stl : BitVec 3) (d : BitVec 7) (b : BitVec 7) (tile : BitVec 4) (col : BitVec 6) (row : BitVec 5)
  /-- R195. Parks until the block's matrix commands complete, then acquires, merges flags and reports failures. -/
  | msync (stl : BitVec 3) (bank : BitVec 1)
  /-- R194. Releases and adds an operand-ready token to a bank. -/
  | oprdy (stl : BitVec 3) (bank : BitVec 1)
  /-- R223. Draws a leaf from an importance tree. -/
  | tdraw (stl : BitVec 3) (d : BitVec 7) (a : BitVec 7) (b : BitVec 7) (tree : BitVec 6) (strat : BitVec 1) (keyed : BitVec 1) (vchk : BitVec 1)
  /-- R224. Stages a priority update for a tree leaf. -/
  | tupd (stl : BitVec 3) (a : BitVec 7) (tree : BitVec 6)
  /-- R224. Stages an insertion into a tree leaf and returns the new tag. -/
  | tins (stl : BitVec 3) (d : BitVec 7) (a : BitVec 7) (tree : BitVec 6)
  /-- R97. Uniform integer add on s registers. -/
  | iaddU (stl : BitVec 3) (d : BitVec 7) (a : BitVec 7) (b : BitVec 7)
  /-- R97. Uniform integer subtract. -/
  | isubU (stl : BitVec 3) (d : BitVec 7) (a : BitVec 7) (b : BitVec 7)
  /-- R97. Uniform add with carry through q6. -/
  | iaddcU (stl : BitVec 3) (d : BitVec 7) (a : BitVec 7) (b : BitVec 7)
  /-- R97. Uniform subtract with borrow through q6. -/
  | isubbU (stl : BitVec 3) (d : BitVec 7) (a : BitVec 7) (b : BitVec 7)
  /-- R97. Uniform multiply, low word. -/
  | imulU (stl : BitVec 3) (d : BitVec 7) (a : BitVec 7) (b : BitVec 7)
  /-- R97. Uniform signed multiply, high word. -/
  | imulhU (stl : BitVec 3) (d : BitVec 7) (a : BitVec 7) (b : BitVec 7)
  /-- R97. Uniform unsigned multiply, high word. -/
  | imulhuU (stl : BitVec 3) (d : BitVec 7) (a : BitVec 7) (b : BitVec 7)
  /-- R97. Uniform multiply-add. -/
  | imadU (stl : BitVec 3) (d : BitVec 7) (a : BitVec 7) (b : BitVec 7)
  /-- R97. Uniform signed minimum. -/
  | iminU (stl : BitVec 3) (d : BitVec 7) (a : BitVec 7) (b : BitVec 7)
  /-- R97. Uniform signed maximum. -/
  | imaxU (stl : BitVec 3) (d : BitVec 7) (a : BitVec 7) (b : BitVec 7)
  /-- R97. Uniform unsigned minimum. -/
  | iminuU (stl : BitVec 3) (d : BitVec 7) (a : BitVec 7) (b : BitVec 7)
  /-- R97. Uniform unsigned maximum. -/
  | imaxuU (stl : BitVec 3) (d : BitVec 7) (a : BitVec 7) (b : BitVec 7)
  /-- R97. Uniform bitwise AND. -/
  | andU (stl : BitVec 3) (d : BitVec 7) (a : BitVec 7) (b : BitVec 7)
  /-- R97. Uniform bitwise OR. -/
  | orU (stl : BitVec 3) (d : BitVec 7) (a : BitVec 7) (b : BitVec 7)
  /-- R97. Uniform bitwise XOR. -/
  | xorU (stl : BitVec 3) (d : BitVec 7) (a : BitVec 7) (b : BitVec 7)
  /-- R97. Uniform A AND NOT B. -/
  | andnU (stl : BitVec 3) (d : BitVec 7) (a : BitVec 7) (b : BitVec 7)
  /-- R97. Uniform shift left. -/
  | shlU (stl : BitVec 3) (d : BitVec 7) (a : BitVec 7) (b : BitVec 7)
  /-- R97. Uniform logical shift right. -/
  | shrU (stl : BitVec 3) (d : BitVec 7) (a : BitVec 7) (b : BitVec 7)
  /-- R97. Uniform arithmetic shift right. -/
  | sarU (stl : BitVec 3) (d : BitVec 7) (a : BitVec 7) (b : BitVec 7)
  /-- R97. Uniform rotate left. -/
  | rotlU (stl : BitVec 3) (d : BitVec 7) (a : BitVec 7) (b : BitVec 7)
  /-- R97. Uniform population count. -/
  | popcU (stl : BitVec 3) (d : BitVec 7) (a : BitVec 7)
  /-- R97. Uniform count of leading zeros. -/
  | clzU (stl : BitVec 3) (d : BitVec 7) (a : BitVec 7)
  /-- R97. Uniform bit reversal. -/
  | brevU (stl : BitVec 3) (d : BitVec 7) (a : BitVec 7)
  /-- R99. Uniform bit-field extract. -/
  | bfeU (stl : BitVec 3) (d : BitVec 7) (a : BitVec 7) (b : BitVec 7)
  /-- R99. Uniform bit-field insert. -/
  | bfiU (stl : BitVec 3) (d : BitVec 7) (a : BitVec 7) (b : BitVec 7)
  /-- R102. Uniform integer compare writing a q predicate. -/
  | icmpU (stl : BitVec 3) (c : BitVec 4) (p : BitVec 3) (a : BitVec 7) (b : BitVec 7)
  /-- R126. Uniform FP32 compare writing a q predicate. -/
  | fcmpU (stl : BitVec 3) (c : BitVec 4) (p : BitVec 3) (a : BitVec 7) (b : BitVec 7)
  /-- R102. Uniform conditional move under a q predicate. -/
  | cmovU (stl : BitVec 3) (d : BitVec 7) (k : BitVec 1) (n : BitVec 1) (p : BitVec 3) (b : BitVec 7)
  /-- R102. Uniform register move. -/
  | movU (stl : BitVec 3) (d : BitVec 7) (a : BitVec 7)
  /-- R102. Uniform move of a 14-bit immediate. -/
  | moviU (stl : BitVec 3) (d : BitVec 7) (imm : BitVec 14)
  /-- R126. Uniform FP64 compare writing a q predicate. -/
  | dcmpU (stl : BitVec 3) (c : BitVec 4) (p : BitVec 3) (a : BitVec 7) (b : BitVec 7)
  /-- R103. Reads one thread's vector register into an s register. -/
  | rdlane (stl : BitVec 3) (d : BitVec 7) (a : BitVec 7) (t : BitVec 7)
  /-- R132. Uniform FP32 add. -/
  | faddU (stl : BitVec 3) (d : BitVec 7) (a : BitVec 7) (b : BitVec 7)
  /-- R132. Uniform FP32 subtract. -/
  | fsubU (stl : BitVec 3) (d : BitVec 7) (a : BitVec 7) (b : BitVec 7)
  /-- R132. Uniform FP32 multiply. -/
  | fmulU (stl : BitVec 3) (d : BitVec 7) (a : BitVec 7) (b : BitVec 7)
  /-- R132. Uniform FP32 fused multiply-add. -/
  | ffmaU (stl : BitVec 3) (d : BitVec 7) (a : BitVec 7) (b : BitVec 7)
  /-- R132. Uniform FP32 minimum. -/
  | fminU (stl : BitVec 3) (d : BitVec 7) (a : BitVec 7) (b : BitVec 7)
  /-- R132. Uniform FP32 maximum. -/
  | fmaxU (stl : BitVec 3) (d : BitVec 7) (a : BitVec 7) (b : BitVec 7)
  /-- R132. Uniform sign copy. -/
  | fcpysU (stl : BitVec 3) (d : BitVec 7) (a : BitVec 7) (b : BitVec 7)
  /-- R132. Uniform FP32 conversion. -/
  | fcvtU (stl : BitVec 3) (d : BitVec 7) (a : BitVec 7) (c : BitVec 4) (m : BitVec 3)
  /-- R132. Uniform round to integral FP32. -/
  | frndU (stl : BitVec 3) (d : BitVec 7) (a : BitVec 7) (m : BitVec 3)
  /-- R132. Uniform FP32 classification. -/
  | fclassU (stl : BitVec 3) (d : BitVec 7) (a : BitVec 7)
  /-- R132. Uniform FP64 add on uniform pairs. -/
  | daddU (stl : BitVec 3) (d : BitVec 7) (a : BitVec 7) (b : BitVec 7)
  /-- R132. Uniform FP64 multiply. -/
  | dmulU (stl : BitVec 3) (d : BitVec 7) (a : BitVec 7) (b : BitVec 7)
  /-- R132. Uniform FP64 fused multiply-add. -/
  | dfmaU (stl : BitVec 3) (d : BitVec 7) (a : BitVec 7) (b : BitVec 7)
  /-- R132. Uniform FP64 minimum. -/
  | dminU (stl : BitVec 3) (d : BitVec 7) (a : BitVec 7) (b : BitVec 7)
  /-- R132. Uniform FP64 maximum. -/
  | dmaxU (stl : BitVec 3) (d : BitVec 7) (a : BitVec 7) (b : BitVec 7)
  /-- R132. Uniform FP64 conversion. -/
  | dcvtU (stl : BitVec 3) (d : BitVec 7) (a : BitVec 7) (c : BitVec 4) (m : BitVec 3)
  /-- R106. Uniform unconditional PC-relative branch. -/
  | br (stl : BitVec 3) (off : BitVec 21)
  /-- R106. Uniform branch on a q predicate. -/
  | brq (stl : BitVec 3) (off : BitVec 14) (k : BitVec 1) (n : BitVec 1) (p : BitVec 3)
  /-- R106. Uniform call writing the link into s62:s63. -/
  | call (stl : BitVec 3) (off : BitVec 21)
  /-- R106. Uniform jump to a pair target; the first from a handler path clears HND. -/
  | jmps (stl : BitVec 3) (a : BitVec 7)
  /-- R107. Exits every thread of the group. -/
  | exitg (stl : BitVec 3)
  /-- R109. Gives the group the youngest age stamp and clears its starvation count. -/
  | yield (stl : BitVec 3)
  /-- R109. Does nothing beyond its SSU clock and stall. -/
  | nop (stl : BitVec 3)
  /-- R115. Breakpoint trap, or a debug hold when armed. -/
  | bkpt (stl : BitVec 3) (code : BitVec 14)
  /-- R115. Software trap SWTRAP for all active threads. -/
  | trap (stl : BitVec 3) (code : BitVec 14)
  /-- R110. Uniform read of a special register. -/
  | sreadU (stl : BitVec 3) (d : BitVec 7) (n : BitVec 7)
  /-- R113. Writes a read-write special register, effective at retirement. -/
  | swrite (stl : BitVec 3) (n : BitVec 7) (a : BitVec 7)
  /-- R117. Under DET parks until the retired prefix reaches n, then acquires. -/
  | waitblk (stl : BitVec 3) (a : BitVec 7)
  /-- R118. Acquires the block's extended register set, parking until granted. -/
  | racq (stl : BitVec 3)
  /-- R118. Releases the extended register set and grants it to the next waiter. -/
  | rrel (stl : BitVec 3)
  /-- R187. Requests the core's matrix lease without waiting. -/
  | lease (stl : BitVec 3) (k : BitVec 1) (p : BitVec 3) (a : BitVec 7)
  /-- R187. Gives up the lease into DRAIN or withdraws a claim. -/
  | lrel (stl : BitVec 3)
  /-- R164. Initialises a barrier word in one indivisible step. -/
  | bari (stl : BitVec 3) (k : BitVec 7) (a : BitVec 7) (b : BitVec 7)
  /-- R165. Arrives at a barrier word after convergence and returns the phase. -/
  | bara (stl : BitVec 3) (d : BitVec 7) (a : BitVec 7)
  /-- R165. Waits until a barrier word's phase differs from the given phase. -/
  | barw (stl : BitVec 3) (a : BitVec 7) (b : BitVec 7)
  /-- R165. Arrives at a barrier word and waits for the phase to toggle. -/
  | baraw (stl : BitVec 3) (d : BitVec 7) (a : BitVec 7)
  /-- R169. Arrives, and unless .ARV waits, at a named block barrier. -/
  | nbar (stl : BitVec 3) (v : BitVec 7) (n : BitVec 7) (b : BitVec 7)
  /-- R170. Arrives at a hierarchical barrier of the given scope. -/
  | hbar (stl : BitVec 3) (c : BitVec 7)
  /-- R162. Orders the path's accesses at a scope by kind. -/
  | fence (stl : BitVec 3) (k : BitVec 7) (c : BitVec 7)
  /-- R171. Compares a word and parks until its granule is written. -/
  | mwait (stl : BitVec 3) (d : BitVec 7) (a : BitVec 7) (b : BitVec 7)
  /-- R172. Parks until a stage bit of a ring control word has the given phase. -/
  | swaitp (stl : BitVec 3) (g : BitVec 7) (a : BitVec 7) (b : BitVec 7)
  /-- R172. Releases and toggles a stage bit of a ring control word. -/
  | ssig (stl : BitVec 3) (g : BitVec 7) (a : BitVec 7)
  /-- R230. Accepts a copy command with optional conversion, tags and byte barrier. -/
  | cpy (stl : BitVec 3) (r : BitVec 1) (t : BitVec 1) (c : BitVec 4) (a : BitVec 7)
  /-- R230. Accepts a multicast copy to cluster members. -/
  | cpym (stl : BitVec 3) (r : BitVec 1) (t : BitVec 1) (c : BitVec 4) (a : BitVec 7)
  /-- R231. Accepts an entropy decode command into the aperture. -/
  | dec (stl : BitVec 3) (r : BitVec 1) (t : BitVec 1) (c : BitVec 4) (a : BitVec 7)
  /-- R233. Accepts a chain engine command named by its descriptor. -/
  | chain (stl : BitVec 3) (c : BitVec 4) (a : BitVec 7)
  /-- R209. Parks until a completion counter reaches a threshold, then acquires and reports. -/
  | ewait (stl : BitVec 3) (c : BitVec 7) (a : BitVec 7)
  /-- R210. Reads, or reads and clears, a completion counter. -/
  | ecnt (stl : BitVec 3) (d : BitVec 7) (c : BitVec 7) (o : BitVec 7)
  /-- R193. Accepts an MMAS command accumulating A rows against a slot into a bank. -/
  | mmas (stl : BitVec 3) (y : BitVec 1) (l : BitVec 1) (k : BitVec 1) (n : BitVec 4) (a : BitVec 7)
  /-- R192. Checks and accepts a load of a B operand into a slot. -/
  | bld (stl : BitVec 3) (n : BitVec 7) (a : BitVec 7)
  /-- R196. Accepts a command rounding bank rows once and storing them. -/
  | memit (stl : BitVec 3) (k : BitVec 7) (a : BitVec 7)
  /-- R225. Sends a commit of a tree's staged requests to its engine. -/
  | tcommit (stl : BitVec 3) (d : BitVec 7) (t : BitVec 7)
  /-- R226. Reads committed state of a tree. -/
  | tver (stl : BitVec 3) (d : BitVec 7) (t : BitVec 7) (e : BitVec 7)
  /-- R234. Starts a reload of a range of context table entries. -/
  | tblld (stl : BitVec 3) (k : BitVec 7) (a : BitVec 7) (c : BitVec 7)
  /-- R236. Releases and decrements a task's dependence counter. -/
  | tarm (stl : BitVec 3) (a : BitVec 7)
  /-- R235. Reads a task's status, counter, retired or over-arm count. -/
  | tstat (stl : BitVec 3) (d : BitVec 7) (a : BitVec 7) (e : BitVec 7)
  /-- R237. Makes a finished or idle task armable with a new count. -/
  | treset (stl : BitVec 3) (a : BitVec 7) (b : BitVec 7)
  /-- R240. Reads a fabric window counter. -/
  | wcnt (stl : BitVec 3) (d : BitVec 7) (a : BitVec 7) (e : BitVec 7)
  /-- R240. Parks until a window counter reaches a threshold, then acquires at .SYS. -/
  | wwait (stl : BitVec 3) (e : BitVec 7) (a : BitVec 7) (b : BitVec 7)
  /-- R240. Parks until the group's fabric operations to a package are acknowledged. -/
  | ffence (stl : BitVec 3) (a : BitVec 7)
  /-- R147. Uniform load. -/
  | ldU (stl : BitVec 3) (d : BitVec 7) (a : BitVec 7) (size : BitVec 3) (sign : BitVec 1) (scope : BitVec 3) (subop : BitVec 5) (off : BitVec 20)
  /-- R147. Uniform store. -/
  | stU (stl : BitVec 3) (d : BitVec 7) (a : BitVec 7) (size : BitVec 3) (sign : BitVec 1) (scope : BitVec 3) (subop : BitVec 5) (off : BitVec 20)
  /-- R147. Uniform returning atomic. -/
  | atomU (stl : BitVec 3) (d : BitVec 7) (a : BitVec 7) (b : BitVec 7) (size : BitVec 3) (sign : BitVec 1) (scope : BitVec 3) (subop : BitVec 5) (off : BitVec 20)
  /-- R147. Uniform atomic reduction. -/
  | redU (stl : BitVec 3) (a : BitVec 7) (b : BitVec 7) (size : BitVec 3) (sign : BitVec 1) (scope : BitVec 3) (subop : BitVec 5) (off : BitVec 20)
  /-- R104. Uniform load of a 32-bit immediate. -/
  | limmU (stl : BitVec 3) (d : BitVec 7) (imm : BitVec 32)
  /-- R104. Uniform add of a 32-bit immediate. -/
  | iaddiU (stl : BitVec 3) (d : BitVec 7) (a : BitVec 7) (imm : BitVec 32)
  /-- R161. Uniform polling load. -/
  | ldpollU (stl : BitVec 3) (d : BitVec 7) (a : BitVec 7) (size : BitVec 3) (sign : BitVec 1) (scope : BitVec 3) (subop : BitVec 5) (off : BitVec 20)
  /-- R104. Forms a 64-bit address in a uniform pair without access. -/
  | lea (stl : BitVec 3) (d : BitVec 7) (a : BitVec 7) (off : BitVec 20)
  /-- R239. Sends bytes into a fabric window of a target package. -/
  | put (stl : BitVec 3) (a : BitVec 7) (win : BitVec 8)
  /-- R239. Sends bytes and then a flag into a fabric window. -/
  | putf (stl : BitVec 3) (a : BitVec 7) (win : BitVec 8)
  /-- R239. Remote 64-bit fetch-add in a fabric window. -/
  | faar (stl : BitVec 3) (d : BitVec 7) (a : BitVec 7) (win : BitVec 8)
  /-- R239. Remote 64-bit compare-and-swap in a fabric window. -/
  | casr (stl : BitVec 3) (d : BitVec 7) (a : BitVec 7) (win : BitVec 8)
  /-- R235. Writes a trace mark record when tracing is open. -/
  | tmark (stl : BitVec 3) (mark : BitVec 32)
  /-- R50. An instruction word with an unassigned opcode in either set issues and traps ILLOP precisely at its PC. -/
  | unassignedOpcode (w : Word)
  /-- R28. A path's stall countdown reaches zero so it may be ready again. -/
  | stallCountdownExpiry
  /-- R25. The clocks for which an instruction holds its unit end and the unit becomes free. -/
  | unitRelease
  /-- R26. A group's starvation count reaches 2,048 and the group is promoted. -/
  | starvationPromotion
  /-- R35. A new grant level takes effect at the next clock with CYCLE mod 16 = 0. -/
  | grantChange
  /-- R466. A fixed-latency result becomes readable, the instruction retires and its flags are ORed in. -/
  | fixedLatencyResult
  /-- R32. A variable-latency result arrives and is written for a thread, clearing its pending mark. -/
  | variableResultWrite
  /-- R246. Live paths of a group with equal PC and HND merge after the waits of R31. -/
  | pathMerge
  /-- R248. The earliest spilled record returns into a freed table entry. -/
  | spillReturn
  /-- R248. A spilled live path out for 4,096 clocks returns by displacing a victim. -/
  | spillRotation
  /-- R251. A group's progress count reaches 2^20 and a hang report is written. -/
  | hangReport
  /-- R161. An LDPOLL.Y back-off ends and the poll reads again. -/
  | ldpollBackoffExpiry
  /-- R171. A write to the watched granule completes a parked MWAIT with sD = 1. -/
  | mwaitWake
  /-- R279. A load request is served at its home slice or controller. -/
  | loadAtHome
  /-- R279. A store is accepted at its home and becomes performed. -/
  | storePerformed
  /-- R151. An atomic request is applied indivisibly at its home in arrival order. -/
  | atomicAtHome
  /-- R275. A router on the atomic plane merges a request into a merge entry. -/
  | atomicMerge
  /-- R159. An LDFE or STFE request reaches its granule and is served or queued. -/
  | fullEmptyAtHome
  /-- R165. An arrival reaches a barrier word at its home, counts and may toggle the phase. -/
  | barrierArrival
  /-- R389. A retired store is rejected and a KIND 4 record is written. -/
  | impreciseStoreFault
  /-- R385. A trap coalescer record closes 256 clocks after its first event. -/
  | coalescerClose
  /-- R388. The control processor writes a record to a context's event ring when room allows. -/
  | eventRingWrite
  /-- R412. A vector's 4,096-clock moderation ends and a pending raise is signalled. -/
  | msixModerationExpiry
  /-- R189. A waiting BLD finds enough units, evicts and starts loading. -/
  | bldLoadStart
  /-- R192. A slot load ends LOADED or FAILED. -/
  | bldComplete
  /-- R300. An MMAS fill of an A row buffer image completes or faults. -/
  | aRowFillComplete
  /-- R190. At a pass boundary the engine starts the next chosen pass. -/
  | passStart
  /-- R299. A macro pass ends and its accumulations take effect. -/
  | passEnd
  /-- R299. MMAQ results are written 5 clocks after their pass ends. -/
  | mmaqWriteback
  /-- R309. All rows of a Chorus tile are written 5 clocks after its last layer. -/
  | chorusWriteback
  /-- R196. A MEMIT finishes rounding and storing its rows. -/
  | memitComplete
  /-- R197. An MRD or MWR is performed at the accumulator port in bank order. -/
  | accumPortAccess
  /-- R305. A saved program slot is restored before a pass that names it. -/
  | slotRestore
  /-- R187. A lease claim lapses 4,096 clocks after the lease became free. -/
  | leaseClaimLapse
  /-- R187. A draining lease becomes free once the holder's commands complete. -/
  | leaseFree
  /-- R307. A context's gather window closes and its open tiles close. -/
  | chorusWindowClose
  /-- R308. Open tiles close because no group with an unwritten row has a ready path. -/
  | chorusTileClose
  /-- R306. Chorus starts loading a closed tile's handle weights into a handle slot. -/
  | chorusHandleLoadStart
  /-- R310. A handle load completes or fails, failing its unwritten rows. -/
  | chorusHandleLoadEnd
  /-- R230. A copy arrival of up to 512 bytes is written, tags set and bytes counted. -/
  | copyArrival
  /-- R208. A copy, decode, chain or reload command completes and its counter rises. -/
  | copyComplete
  /-- R276. A chunk of a DEC stream is decoded at the destination slice port. -/
  | decChunkDecode
  /-- R334. A chain command finishes its elements and reductions. -/
  | chainComplete
  /-- R234. After accepted lookups drain, the control processor writes new entries and resumes lookups. -/
  | tblldReload
  /-- R213. The traversal unit reports a candidate, hit, miss, empty or fault. -/
  | traversalReport
  /-- R267. A record drains from a block's outbox into the die's film buffer. -/
  | filmOutboxDrain
  /-- R221. The film engine applies a record in key order once its block prefix has retired. -/
  | filmRecordApply
  /-- R222. A tree request reaches its home engine and is served in serial order. -/
  | treeRequestArrival
  /-- R224. A waiting tree request enters the staging area when room frees. -/
  | treeStagingEnter
  /-- R414. A put flit reaches its target and is written or refused. -/
  | putDelivery
  /-- R239. A PUTF's flag is written after all its data is delivered. -/
  | putfFlagWrite
  /-- R239. A FAAR or CASR is performed at the target's home. -/
  | fabricAtomicAtTarget
  /-- R240. An acknowledgement reaches the source and ACKED rises. -/
  | putAck
  /-- R414. No port reaches the target within 1 ms and the put fails. -/
  | fabricDeliveryTimeout
  /-- R414. A fabric port fails and its flits are resent on another port. -/
  | ualinkPortFailure
  /-- R457. A UALink port finishes training, or failure is signalled, after READY. -/
  | ualinkPortTrained
  /-- R415. An HBAR.POD arrival from a package is counted at the link dies. -/
  | podBarrierArrival
  /-- R170. A hierarchical barrier completes after its last arrival. -/
  | hbarComplete
  /-- R411. A host read, write or AtomicOp on BAR4 is performed at the line's home. -/
  | hostBar4Request
  /-- R154. A device-issued PCIe AtomicOp completes, normally or with an error. -/
  | hostAtomicCompletion
  /-- R352. A host FetchAdd of -1 on an arming word applies one arm. -/
  | armwordFetchadd
  /-- R352. Any other request to an arming word is ignored and counted. -/
  | armwordIgnored
  /-- R417. A recognised edge on a trigger input arms bound TCBs. -/
  | triggerEdge
  /-- R417. A write to a trigger binding, clearing EDGES when EN rises. -/
  | triggerBindingWrite
  /-- R356. The task unit gives the next context its turn. -/
  | dispatchTurn
  /-- R358. A block, instance or gang is placed once resources are free. -/
  | blockPlacement
  /-- R357. A task blocked for 65,536 task-unit clocks becomes reserving. -/
  | reservingTimeout
  /-- R361. A block's quantum count reaches q times 1,024. -/
  | quantumExpiry
  /-- R379. A group is stopped, saved to its frame and its resources freed. -/
  | groupEvict
  /-- R380. An evicted group returns to its core when room frees. -/
  | groupReturn
  /-- R253. A block retires once groups, stores and commands are done. -/
  | blockRetire
  /-- R362. A task becomes DONE, is written back, pulses sync and arms successors. -/
  | taskDone
  /-- R382. At the end of a 65,536-clock interval Leap compares cores and may choose a move. -/
  | leapInterval
  /-- R383. After the waits, Leap copies a block and forwards buffered messages. -/
  | leapMove
  /-- R375. A page walk finishes and answers every merged miss. -/
  | tlbWalkComplete
  /-- R374. INVAL completes once entries are removed and walks finish, clearing BUSY. -/
  | invalComplete
  /-- R369. DESTROY finishes after every block retires and clears VALID. -/
  | destroyComplete
  /-- R413. WUNREG frees the window once ACKED equals ISSUED. -/
  | wunregComplete
  /-- R435. The patrol scrubber reads a line or word on its interval. -/
  | scrub
  /-- R434. The control processor writes a device log record when room allows. -/
  | errorLogWrite
  /-- R436. An error in control state is handled per its kind. -/
  | controlStateError
  /-- R456. PERST#, hot reset or the reset register write resets the package and starts boot. -/
  | packageReset
  /-- R458. Power is lost, cutting off any flash write in progress. -/
  | powerLoss
  /-- R457. A boot stage completes or fails. -/
  | bootStage
  /-- R457. The 30-second boot watchdog expires and boot fails. -/
  | bootWatchdogExpiry
  /-- R462. At the end of each 4,096-clock interval the arbiter adjusts grant levels. -/
  | arbiterInterval
  /-- R462. A sensor above 115 degrees C puts the package in its fatal state. -/
  | thermalTrip
  /-- R418. A queued sync pulse is driven on the output. -/
  | syncPulse
  /-- R166. Reading a core's ORPHAN counter returns and clears it. -/
  | orphanRead
  /-- R410. Reading SYNCLOST returns and clears it. -/
  | synclostRead
  /-- R411. Reading a context's ignored-arm count returns and clears it. -/
  | ignoredArmCountRead
  /-- R432. Reading CECNT returns and clears it. -/
  | cecntRead
  /-- R443. Reading TOKREJ returns and clears it. -/
  | tokrejRead
  /-- R449. Reading TRDROP returns and clears it. -/
  | trdropRead
  /-- R18. A write to a device register without behaviour of its own, under its access code. -/
  | registerWrite
  /-- R369. Checks a context descriptor and makes the context valid. -/
  | create
  /-- R369. Cancels every task of a context and begins its teardown. -/
  | destroy
  /-- R374. Starts removing cached translations of a range. -/
  | inval
  /-- R381. Evicts every group of a context and saves its blocks. -/
  | suspend
  /-- R381. Places a suspended context's blocks back on their cores. -/
  | resume
  /-- R390. Resumes the stopped paths carrying a STOPTAG. -/
  | presume
  /-- R390. Ends a stopped path's task FAULTED. -/
  | pfault
  /-- R364. Cancels a task. -/
  | cancel
  /-- R404. Builds an importance tree from its configuration. -/
  | tbuild
  /-- R404. Unbuilds a tree and discards staged requests. -/
  | tdrop
  /-- R413. Registers a fabric window for a context. -/
  | wreg
  /-- R413. Begins unregistering a fabric window. -/
  | wunreg
  /-- R461. Writes a signed attestation report. -/
  | attest
  /-- R460. In Axolotl mode checks and writes a staged firmware image. -/
  | recover
  /-- R460. In Axolotl mode clears the failed-start count. -/
  | retry
  /-- R442. Checks a debug token and opens its features. -/
  | verify
  /-- R442. Closes debug features, resuming held paths if STOPS closes. -/
  | close
  /-- R445. Stops every path of a named group. -/
  | halt
  /-- R446. Resumes or single-steps a held path. -/
  | run
  /-- R447. Reads a register of a held group into DATA. -/
  | regrd
  /-- R447. Writes DATA into a register of a held group. -/
  | regwr
  /-- R455. Copies each core's counters to its snapshot. -/
  | snap
  /-- R443. Clears every top-down counter. -/
  | cntclr
  /-- R418. The sync output falls low after being held high for 700 core clocks, and the 700-clock low interval begins. -/
  | syncPulseEnd
  /-- R384. A source core receives acknowledgement of its last forwarded message to a moved footprint and installs the redirection to the new slice. -/
  | leapForwardAck
  /-- R405. A tree engine finishes writing every sum and minimum of a TBUILD, sets the tree READY and clears BUSY. -/
  | tbuildComplete
  /-- R461. The control processor finishes signing the attestation report and clears BUSY, making the report complete. -/
  | attestComplete
  /-- R460. The flash write of a RECOVER finishes, FSC and LASTRSN become 0 and BUSY clears. -/
  | recoverComplete
  /-- R381. After every group is evicted and each block's footprint, tags, slots and state are written to its frame, the footprints are freed and SUSP becomes 1. -/
  | suspendComplete
  /-- R440. An instruction arrives on the IEEE 1149.1 test port, acting only for IDCODE and BYPASS unless TAP or CPDBG is open. -/
  | testPortInstruction
  deriving DecidableEq, Repr

end Sys2Proof
end

