-- ==== Sys2Proof/Decode.lean ====
section
/-! DEFINITION. The decoder (R36, R39 to R50), total on any words and bytes, and after it the encoder written from the same
tables. A field the encoding fixes at zero and finds set is an error by the instruction's name; every other field value is
carried, and the check of legal values is Machine/Operands.lean's. -/
namespace Sys2Proof

/-- The fields of a first word (R36). -/
structure Fields where
  set : BitVec 1
  op : BitVec 7
  st : BitVec 3
  d : BitVec 7
  a : BitVec 7
  b : BitVec 7
  deriving DecidableEq, Repr

/-- The fields of a word (R36). -/
def Fields.ofWord (w : Word) : Fields :=
  ⟨w.extractLsb' 31 1, w.extractLsb' 24 7, w.extractLsb' 21 3, w.extractLsb' 14 7, w.extractLsb' 7 7, w.extractLsb' 0 7⟩

/-- The word of the fields (R36). -/
def Fields.toWord (f : Fields) : Word := f.set ++ f.op ++ f.st ++ f.d ++ f.a ++ f.b

/-- Why bytes are not an instruction: too few of them, or a field the named instruction must hold at zero (R40, R46), with what the other fields
say of it. -/
inductive DecodeError where
  | truncated
  | reservedField (mnemonic : String) (i : Instr)
  deriving DecidableEq, Repr

/-- The instruction, if the fields it leaves unused are zero (R40). -/
def needZero (mnemonic : String) (c : Prop) [Decidable c] (i : Instr) : Except DecodeError Instr :=
  if c then .ok i else .error (.reservedField mnemonic i)

/-- The lane opcode map (R48); an opcode not listed is unassigned (R50). -/
def decodeLane (f : Fields) (x : Word) : Except DecodeError Instr :=
  match f.op.toNat with
  | 0x00 => .ok (.iadd f.st f.d f.a f.b)
  | 0x01 => .ok (.isub f.st f.d f.a f.b)
  | 0x02 => .ok (.iaddc f.st f.d f.a f.b)
  | 0x03 => .ok (.isubb f.st f.d f.a f.b)
  | 0x04 => .ok (.imul f.st f.d f.a f.b)
  | 0x05 => .ok (.imulh f.st f.d f.a f.b)
  | 0x06 => .ok (.imulhu f.st f.d f.a f.b)
  | 0x07 => .ok (.imad f.st f.d f.a f.b)
  | 0x08 => .ok (.imin f.st f.d f.a f.b)
  | 0x09 => .ok (.imax f.st f.d f.a f.b)
  | 0x0A => .ok (.iminu f.st f.d f.a f.b)
  | 0x0B => .ok (.imaxu f.st f.d f.a f.b)
  | 0x0C => .ok (.and f.st f.d f.a f.b)
  | 0x0D => .ok (.or f.st f.d f.a f.b)
  | 0x0E => .ok (.xor f.st f.d f.a f.b)
  | 0x0F => .ok (.andn f.st f.d f.a f.b)
  | 0x10 => .ok (.shl f.st f.d f.a f.b)
  | 0x11 => .ok (.shr f.st f.d f.a f.b)
  | 0x12 => .ok (.sar f.st f.d f.a f.b)
  | 0x13 => .ok (.rotl f.st f.d f.a f.b)
  | 0x14 => needZero "POPC" (f.b = 0) (.popc f.st f.d f.a)
  | 0x15 => needZero "CLZ" (f.b = 0) (.clz f.st f.d f.a)
  | 0x16 => needZero "BREV" (f.b = 0) (.brev f.st f.d f.a)
  | 0x17 => .ok (.bfe f.st f.d f.a f.b)
  | 0x18 => .ok (.bfi f.st f.d f.a f.b)
  | 0x19 => .ok (.icmp f.st (f.d.extractLsb' 3 4) (f.d.extractLsb' 0 3) f.a f.b)
  | 0x1A => .ok (.fcmp f.st (f.d.extractLsb' 3 4) (f.d.extractLsb' 0 3) f.a f.b)
  | 0x1B => needZero "CMOV" ((f.a.extractLsb' 5 2) = 0) (.cmov f.st f.d (f.a.extractLsb' 4 1) (f.a.extractLsb' 3 1) (f.a.extractLsb' 0 3) f.b)
  | 0x1C => needZero "MOV" (f.b = 0) (.mov f.st f.d f.a)
  | 0x1D => .ok (.movi f.st f.d (f.a ++ f.b))
  | 0x1E => .ok (.dcmp f.st (f.d.extractLsb' 3 4) (f.d.extractLsb' 0 3) f.a f.b)
  | 0x1F => if f.b = 0 then .ok (.movu f.st f.d f.a) else if f.b = 1 then .ok (.movuX f.st f.d f.a) else .error (.reservedField "MOVU" (.movu f.st f.d f.a))
  | 0x20 => .ok (.fadd f.st f.d f.a f.b)
  | 0x21 => .ok (.fsub f.st f.d f.a f.b)
  | 0x22 => .ok (.fmul f.st f.d f.a f.b)
  | 0x23 => .ok (.ffma f.st f.d f.a f.b)
  | 0x24 => .ok (.fmin f.st f.d f.a f.b)
  | 0x25 => .ok (.fmax f.st f.d f.a f.b)
  | 0x26 => .ok (.fcpys f.st f.d f.a f.b)
  | 0x27 => .ok (.fcvt f.st f.d f.a (f.b.extractLsb' 3 4) (f.b.extractLsb' 0 3))
  | 0x28 => needZero "FRND" ((f.b.extractLsb' 3 4) = 0) (.frnd f.st f.d f.a (f.b.extractLsb' 0 3))
  | 0x29 => needZero "FCLASS" (f.b = 0) (.fclass f.st f.d f.a)
  | 0x2A => .ok (.dadd f.st f.d f.a f.b)
  | 0x2B => .ok (.dmul f.st f.d f.a f.b)
  | 0x2C => .ok (.dfma f.st f.d f.a f.b)
  | 0x2D => .ok (.dmin f.st f.d f.a f.b)
  | 0x2E => .ok (.dmax f.st f.d f.a f.b)
  | 0x2F => .ok (.dcvt f.st f.d f.a (f.b.extractLsb' 3 4) (f.b.extractLsb' 0 3))
  | 0x30 => needZero "RCP" (f.b = 0) (.rcp f.st f.d f.a)
  | 0x31 => needZero "RSQ" (f.b = 0) (.rsq f.st f.d f.a)
  | 0x32 => needZero "SQRT" (f.b = 0) (.sqrt f.st f.d f.a)
  | 0x33 => needZero "EXP2" (f.b = 0) (.exp2 f.st f.d f.a)
  | 0x34 => needZero "LOG2" (f.b = 0) (.log2 f.st f.d f.a)
  | 0x35 => needZero "SINPI" (f.b = 0) (.sinpi f.st f.d f.a)
  | 0x36 => needZero "COSPI" (f.b = 0) (.cospi f.st f.d f.a)
  | 0x37 => needZero "TANH" (f.b = 0) (.tanh f.st f.d f.a)
  | 0x38 => needZero "SIGM" (f.b = 0) (.sigm f.st f.d f.a)
  | 0x39 => needZero "ERF" (f.b = 0) (.erf f.st f.d f.a)
  | 0x3A => needZero "GELU" (f.b = 0) (.gelu f.st f.d f.a)
  | 0x3B => needZero "SILU" (f.b = 0) (.silu f.st f.d f.a)
  | 0x3C => .ok (.zadd f.st f.d f.a f.b)
  | 0x3D => .ok (.zmul f.st f.d f.a f.b)
  | 0x3E => .ok (.zfma f.st f.d f.a f.b)
  | 0x3F => .ok (.zop f.st f.d f.a f.b)
  | 0x40 => .ok (.wadd f.st f.d f.a f.b)
  | 0x41 => .ok (.wsub f.st f.d f.a f.b)
  | 0x42 => .ok (.wmul f.st f.d f.a f.b)
  | 0x43 => .ok (.wfma f.st f.d f.a f.b)
  | 0x44 => .ok (.wmin f.st f.d f.a f.b)
  | 0x45 => .ok (.wmax f.st f.d f.a f.b)
  | 0x46 => .ok (.wscl f.st f.d f.a f.b)
  | 0x47 => needZero "WBCST" (f.b = 0) (.wbcst f.st f.d f.a)
  | 0x48 => needZero "WSUM" (f.b = 0) (.wsum f.st f.d f.a)
  | 0x49 => needZero "WEXP" (f.b = 0) (.wexp f.st f.d f.a)
  | 0x4A => needZero "WHERO" (f.b = 0) (.whero f.st f.d f.a)
  | 0x4B => .ok (.wlut f.st f.d f.a f.b)
  | 0x4C => .ok (.wcmf f.st f.d f.a f.b)
  | 0x4D => .ok (.wrots f.st f.d f.a f.b)
  | 0x4E => .ok (.wmuel f.st f.d f.a f.b)
  | 0x4F => .ok (.wfres f.st f.d f.a f.b)
  | 0x50 => needZero "VOTE" ((f.a.extractLsb' 5 2) = 0) (.vote f.st f.d (f.a.extractLsb' 4 1) (f.a.extractLsb' 3 1) (f.a.extractLsb' 0 3) f.b)
  | 0x51 => .ok (.shfl f.st f.d f.a (f.b.extractLsb' 5 2) (f.b.extractLsb' 0 5))
  | 0x52 => .ok (.pushl f.st f.d f.a f.b)
  | 0x53 => .ok (.tred f.st f.d f.a f.b)
  | 0x54 => needZero "BRC" ((f.a.extractLsb' 5 2) = 0) (.brc f.st (f.d ++ f.b) (f.a.extractLsb' 4 1) (f.a.extractLsb' 3 1) (f.a.extractLsb' 0 3))
  | 0x55 => needZero "BRX" (f.d = 0 ∧ f.b = 0) (.brx f.st f.a)
  | 0x56 => needZero "CALLX" (f.b = 0) (.callx f.st f.d f.a)
  | 0x57 => needZero "RET" (f.d = 0 ∧ f.b = 0) (.ret f.st f.a)
  | 0x58 => needZero "EXIT" (f.d = 0 ∧ f.a = 0 ∧ f.b = 0) (.exit f.st)
  | 0x59 => .ok (.xsend f.st f.d f.a f.b)
  | 0x5A => .ok (.xrecv f.st f.d f.a f.b)
  | 0x5B => .ok (.rng f.st f.d f.a f.b)
  | 0x5C => needZero "SREAD" (f.b = 0) (.sread f.st f.d f.a)
  | 0x5D => needZero "WAITR" (f.d = 0 ∧ f.a = 0 ∧ (f.b.extractLsb' 3 4) = 0) (.waitr f.st (f.b.extractLsb' 0 3))
  | 0x5E => needZero "JOIN" (f.d = 0 ∧ f.a = 0 ∧ f.b = 0) (.join f.st)
  | 0x5F => needZero "TRAPP" ((f.a.extractLsb' 5 2) = 0) (.trapp f.st (f.d ++ f.b) (f.a.extractLsb' 4 1) (f.a.extractLsb' 3 1) (f.a.extractLsb' 0 3))
  | 0x60 => needZero "LD" (f.b = 0) (.ld f.st f.d f.a (x.extractLsb' 29 3) (x.extractLsb' 28 1) (x.extractLsb' 25 3) (x.extractLsb' 20 5) (x.extractLsb' 0 20))
  | 0x61 => needZero "ST" (f.b = 0) (.st f.st f.d f.a (x.extractLsb' 29 3) (x.extractLsb' 28 1) (x.extractLsb' 25 3) (x.extractLsb' 20 5) (x.extractLsb' 0 20))
  | 0x62 => needZero "LDW" (f.b = 0) (.ldw f.st f.d f.a (x.extractLsb' 29 3) (x.extractLsb' 28 1) (x.extractLsb' 25 3) (x.extractLsb' 20 5) (x.extractLsb' 0 20))
  | 0x63 => needZero "STW" (f.b = 0) (.stw f.st f.d f.a (x.extractLsb' 29 3) (x.extractLsb' 28 1) (x.extractLsb' 25 3) (x.extractLsb' 20 5) (x.extractLsb' 0 20))
  | 0x64 => needZero "LDFE" (f.b = 0) (.ldfe f.st f.d f.a (x.extractLsb' 29 3) (x.extractLsb' 28 1) (x.extractLsb' 25 3) (x.extractLsb' 20 5) (x.extractLsb' 0 20))
  | 0x65 => needZero "STFE" (f.b = 0) (.stfe f.st f.d f.a (x.extractLsb' 29 3) (x.extractLsb' 28 1) (x.extractLsb' 25 3) (x.extractLsb' 20 5) (x.extractLsb' 0 20))
  | 0x66 => .ok (.atom f.st f.d f.a f.b (x.extractLsb' 29 3) (x.extractLsb' 28 1) (x.extractLsb' 25 3) (x.extractLsb' 20 5) (x.extractLsb' 0 20))
  | 0x67 => needZero "RED" (f.d = 0) (.red f.st f.a f.b (x.extractLsb' 29 3) (x.extractLsb' 28 1) (x.extractLsb' 25 3) (x.extractLsb' 20 5) (x.extractLsb' 0 20))
  | 0x68 => .ok (.atomf f.st f.d f.a f.b (x.extractLsb' 29 3) (x.extractLsb' 28 1) (x.extractLsb' 25 3) (x.extractLsb' 20 5) (x.extractLsb' 0 20))
  | 0x69 => needZero "CVTFX" (f.b = 0 ∧ (x.extractLsb' 0 19) = 0) (.cvtfx f.st f.d f.a (x.extractLsb' 31 1) (x.extractLsb' 28 3) (x.extractLsb' 26 2) (x.extractLsb' 19 7))
  | 0x6A => needZero "ATOMX" (f.d = 0) (.atomx f.st f.a f.b (x.extractLsb' 29 3) (x.extractLsb' 28 1) (x.extractLsb' 25 3) (x.extractLsb' 20 5) (x.extractLsb' 0 20))
  | 0x6B => needZero "LDPOLL" (f.b = 0) (.ldpoll f.st f.d f.a (x.extractLsb' 29 3) (x.extractLsb' 28 1) (x.extractLsb' 25 3) (x.extractLsb' 20 5) (x.extractLsb' 0 20))
  | 0x6C => needZero "FILMADD" (f.d = 0 ∧ (x.extractLsb' 0 27) = 0) (.filmadd f.st f.a f.b (x.extractLsb' 29 3) (x.extractLsb' 27 2))
  | 0x6D => needZero "LIMM" (f.a = 0 ∧ f.b = 0) (.limm f.st f.d x)
  | 0x6E => needZero "IADDI" (f.b = 0) (.iaddi f.st f.d f.a x)
  | 0x6F => needZero "FMULI" (f.b = 0) (.fmuli f.st f.d f.a x)
  | 0x70 => needZero "TRACE" ((x.extractLsb' 0 16) = 0) (.trace f.st f.d f.a f.b (x.extractLsb' 31 1) (x.extractLsb' 24 7) (x.extractLsb' 16 8))
  | 0x71 => needZero "SPAWN" ((f.d.extractLsb' 5 2) = 0 ∧ (f.d.extractLsb' 3 1) = 0 ∧ (x.extractLsb' 16 16) = 0 ∧ (x.extractLsb' 0 12) = 0) (.spawn f.st (f.d.extractLsb' 4 1) (f.d.extractLsb' 0 3) f.a f.b (x.extractLsb' 12 4))
  | 0x72 => needZero "HITA" (f.a = 0 ∧ f.b = 0 ∧ (x.extractLsb' 16 16) = 0 ∧ (x.extractLsb' 0 12) = 0) (.hita f.st f.d (x.extractLsb' 12 4))
  | 0x73 => needZero "HITC" (f.b = 0 ∧ (x.extractLsb' 16 16) = 0 ∧ (x.extractLsb' 0 12) = 0) (.hitc f.st f.d f.a (x.extractLsb' 12 4))
  | 0x74 => needZero "TEX" (f.b = 0 ∧ (x.extractLsb' 0 16) = 0) (.tex f.st f.d f.a (x.extractLsb' 24 8) (x.extractLsb' 16 8))
  | 0x75 => needZero "WTEX" ((x.extractLsb' 0 16) = 0) (.wtex f.st f.d f.a f.b (x.extractLsb' 24 8) (x.extractLsb' 16 8))
  | 0x76 => needZero "NEVAL" ((x.extractLsb' 0 20) = 0) (.neval f.st f.d f.a f.b (x.extractLsb' 26 6) (x.extractLsb' 20 6))
  | 0x77 => needZero "MMAQ" ((x.extractLsb' 0 13) = 0) (.mmaq f.st f.d f.a f.b (x.extractLsb' 28 4) (x.extractLsb' 22 6) (x.extractLsb' 18 4) (x.extractLsb' 13 5))
  | 0x78 => needZero "MRD" (f.a = 0 ∧ (x.extractLsb' 0 17) = 0) (.mrd f.st f.d f.b (x.extractLsb' 28 4) (x.extractLsb' 22 6) (x.extractLsb' 17 5))
  | 0x79 => needZero "MWR" (f.a = 0 ∧ (x.extractLsb' 0 17) = 0) (.mwr f.st f.d f.b (x.extractLsb' 28 4) (x.extractLsb' 22 6) (x.extractLsb' 17 5))
  | 0x7A => needZero "MSYNC" (f.d = 0 ∧ f.a = 0 ∧ f.b = 0 ∧ (x.extractLsb' 0 31) = 0) (.msync f.st (x.extractLsb' 31 1))
  | 0x7B => needZero "OPRDY" (f.d = 0 ∧ f.a = 0 ∧ f.b = 0 ∧ (x.extractLsb' 0 31) = 0) (.oprdy f.st (x.extractLsb' 31 1))
  | 0x7C => needZero "TDRAW" ((x.extractLsb' 0 23) = 0) (.tdraw f.st f.d f.a f.b (x.extractLsb' 26 6) (x.extractLsb' 25 1) (x.extractLsb' 24 1) (x.extractLsb' 23 1))
  | 0x7D => needZero "TUPD" (f.d = 0 ∧ f.b = 0 ∧ (x.extractLsb' 0 26) = 0) (.tupd f.st f.a (x.extractLsb' 26 6))
  | 0x7E => needZero "TINS" (f.b = 0 ∧ (x.extractLsb' 0 26) = 0) (.tins f.st f.d f.a (x.extractLsb' 26 6))
  | _ => .ok (.unassignedOpcode f.toWord)

/-- The uniform opcode map (R49); an opcode not listed is unassigned (R50). -/
def decodeUniform (f : Fields) (x : Word) : Except DecodeError Instr :=
  match f.op.toNat with
  | 0x00 => .ok (.iaddU f.st f.d f.a f.b)
  | 0x01 => .ok (.isubU f.st f.d f.a f.b)
  | 0x02 => .ok (.iaddcU f.st f.d f.a f.b)
  | 0x03 => .ok (.isubbU f.st f.d f.a f.b)
  | 0x04 => .ok (.imulU f.st f.d f.a f.b)
  | 0x05 => .ok (.imulhU f.st f.d f.a f.b)
  | 0x06 => .ok (.imulhuU f.st f.d f.a f.b)
  | 0x07 => .ok (.imadU f.st f.d f.a f.b)
  | 0x08 => .ok (.iminU f.st f.d f.a f.b)
  | 0x09 => .ok (.imaxU f.st f.d f.a f.b)
  | 0x0A => .ok (.iminuU f.st f.d f.a f.b)
  | 0x0B => .ok (.imaxuU f.st f.d f.a f.b)
  | 0x0C => .ok (.andU f.st f.d f.a f.b)
  | 0x0D => .ok (.orU f.st f.d f.a f.b)
  | 0x0E => .ok (.xorU f.st f.d f.a f.b)
  | 0x0F => .ok (.andnU f.st f.d f.a f.b)
  | 0x10 => .ok (.shlU f.st f.d f.a f.b)
  | 0x11 => .ok (.shrU f.st f.d f.a f.b)
  | 0x12 => .ok (.sarU f.st f.d f.a f.b)
  | 0x13 => .ok (.rotlU f.st f.d f.a f.b)
  | 0x14 => needZero "POPC_U" (f.b = 0) (.popcU f.st f.d f.a)
  | 0x15 => needZero "CLZ_U" (f.b = 0) (.clzU f.st f.d f.a)
  | 0x16 => needZero "BREV_U" (f.b = 0) (.brevU f.st f.d f.a)
  | 0x17 => .ok (.bfeU f.st f.d f.a f.b)
  | 0x18 => .ok (.bfiU f.st f.d f.a f.b)
  | 0x19 => .ok (.icmpU f.st (f.d.extractLsb' 3 4) (f.d.extractLsb' 0 3) f.a f.b)
  | 0x1A => .ok (.fcmpU f.st (f.d.extractLsb' 3 4) (f.d.extractLsb' 0 3) f.a f.b)
  | 0x1B => needZero "CMOV_U" ((f.a.extractLsb' 5 2) = 0) (.cmovU f.st f.d (f.a.extractLsb' 4 1) (f.a.extractLsb' 3 1) (f.a.extractLsb' 0 3) f.b)
  | 0x1C => needZero "MOV_U" (f.b = 0) (.movU f.st f.d f.a)
  | 0x1D => .ok (.moviU f.st f.d (f.a ++ f.b))
  | 0x1E => .ok (.dcmpU f.st (f.d.extractLsb' 3 4) (f.d.extractLsb' 0 3) f.a f.b)
  | 0x1F => .ok (.rdlane f.st f.d f.a f.b)
  | 0x20 => .ok (.faddU f.st f.d f.a f.b)
  | 0x21 => .ok (.fsubU f.st f.d f.a f.b)
  | 0x22 => .ok (.fmulU f.st f.d f.a f.b)
  | 0x23 => .ok (.ffmaU f.st f.d f.a f.b)
  | 0x24 => .ok (.fminU f.st f.d f.a f.b)
  | 0x25 => .ok (.fmaxU f.st f.d f.a f.b)
  | 0x26 => .ok (.fcpysU f.st f.d f.a f.b)
  | 0x27 => .ok (.fcvtU f.st f.d f.a (f.b.extractLsb' 3 4) (f.b.extractLsb' 0 3))
  | 0x28 => needZero "FRND_U" ((f.b.extractLsb' 3 4) = 0) (.frndU f.st f.d f.a (f.b.extractLsb' 0 3))
  | 0x29 => needZero "FCLASS_U" (f.b = 0) (.fclassU f.st f.d f.a)
  | 0x2A => .ok (.daddU f.st f.d f.a f.b)
  | 0x2B => .ok (.dmulU f.st f.d f.a f.b)
  | 0x2C => .ok (.dfmaU f.st f.d f.a f.b)
  | 0x2D => .ok (.dminU f.st f.d f.a f.b)
  | 0x2E => .ok (.dmaxU f.st f.d f.a f.b)
  | 0x2F => .ok (.dcvtU f.st f.d f.a (f.b.extractLsb' 3 4) (f.b.extractLsb' 0 3))
  | 0x30 => .ok (.br f.st (f.d ++ f.a ++ f.b))
  | 0x31 => needZero "BRQ" ((f.a.extractLsb' 5 2) = 0) (.brq f.st (f.d ++ f.b) (f.a.extractLsb' 4 1) (f.a.extractLsb' 3 1) (f.a.extractLsb' 0 3))
  | 0x32 => .ok (.call f.st (f.d ++ f.a ++ f.b))
  | 0x33 => needZero "JMPS" (f.d = 0 ∧ f.b = 0) (.jmps f.st f.a)
  | 0x34 => needZero "EXITG" (f.d = 0 ∧ f.a = 0 ∧ f.b = 0) (.exitg f.st)
  | 0x35 => needZero "YIELD" (f.d = 0 ∧ f.a = 0 ∧ f.b = 0) (.yield f.st)
  | 0x36 => needZero "NOP" (f.d = 0 ∧ f.a = 0 ∧ f.b = 0) (.nop f.st)
  | 0x37 => needZero "BKPT" (f.d = 0) (.bkpt f.st (f.a ++ f.b))
  | 0x38 => needZero "TRAP" (f.d = 0) (.trap f.st (f.a ++ f.b))
  | 0x39 => needZero "SREAD_U" (f.b = 0) (.sreadU f.st f.d f.a)
  | 0x3A => needZero "SWRITE" (f.b = 0) (.swrite f.st f.d f.a)
  | 0x3B => needZero "WAITBLK" (f.d = 0 ∧ f.b = 0) (.waitblk f.st f.a)
  | 0x3C => needZero "RACQ" (f.d = 0 ∧ f.a = 0 ∧ f.b = 0) (.racq f.st)
  | 0x3D => needZero "RREL" (f.d = 0 ∧ f.a = 0 ∧ f.b = 0) (.rrel f.st)
  | 0x3E => needZero "LEASE" ((f.d.extractLsb' 5 2) = 0 ∧ (f.d.extractLsb' 3 1) = 0 ∧ f.b = 0) (.lease f.st (f.d.extractLsb' 4 1) (f.d.extractLsb' 0 3) f.a)
  | 0x3F => needZero "LREL" (f.d = 0 ∧ f.a = 0 ∧ f.b = 0) (.lrel f.st)
  | 0x40 => .ok (.bari f.st f.d f.a f.b)
  | 0x41 => needZero "BARA" (f.b = 0) (.bara f.st f.d f.a)
  | 0x42 => needZero "BARW" (f.d = 0) (.barw f.st f.a f.b)
  | 0x43 => needZero "BARAW" (f.b = 0) (.baraw f.st f.d f.a)
  | 0x44 => .ok (.nbar f.st f.d f.a f.b)
  | 0x45 => needZero "HBAR" (f.d = 0 ∧ f.a = 0) (.hbar f.st f.b)
  | 0x46 => needZero "FENCE" (f.d = 0) (.fence f.st f.a f.b)
  | 0x47 => .ok (.mwait f.st f.d f.a f.b)
  | 0x48 => .ok (.swaitp f.st f.d f.a f.b)
  | 0x49 => needZero "SSIG" (f.b = 0) (.ssig f.st f.d f.a)
  | 0x4A => needZero "CPY" ((f.d.extractLsb' 6 1) = 0 ∧ f.b = 0) (.cpy f.st (f.d.extractLsb' 5 1) (f.d.extractLsb' 4 1) (f.d.extractLsb' 0 4) f.a)
  | 0x4B => needZero "CPYM" ((f.d.extractLsb' 6 1) = 0 ∧ f.b = 0) (.cpym f.st (f.d.extractLsb' 5 1) (f.d.extractLsb' 4 1) (f.d.extractLsb' 0 4) f.a)
  | 0x4C => needZero "DEC" ((f.d.extractLsb' 6 1) = 0 ∧ f.b = 0) (.dec f.st (f.d.extractLsb' 5 1) (f.d.extractLsb' 4 1) (f.d.extractLsb' 0 4) f.a)
  | 0x4D => needZero "CHAIN" ((f.d.extractLsb' 4 3) = 0 ∧ f.b = 0) (.chain f.st (f.d.extractLsb' 0 4) f.a)
  | 0x4E => needZero "EWAIT" (f.b = 0) (.ewait f.st f.d f.a)
  | 0x4F => .ok (.ecnt f.st f.d f.a f.b)
  | 0x50 => needZero "MMAS" (f.b = 0) (.mmas f.st (f.d.extractLsb' 6 1) (f.d.extractLsb' 5 1) (f.d.extractLsb' 4 1) (f.d.extractLsb' 0 4) f.a)
  | 0x51 => needZero "BLD" (f.b = 0) (.bld f.st f.d f.a)
  | 0x52 => needZero "MEMIT" (f.b = 0) (.memit f.st f.d f.a)
  | 0x53 => needZero "TCOMMIT" (f.b = 0) (.tcommit f.st f.d f.a)
  | 0x54 => .ok (.tver f.st f.d f.a f.b)
  | 0x55 => .ok (.tblld f.st f.d f.a f.b)
  | 0x56 => needZero "TARM" (f.d = 0 ∧ f.b = 0) (.tarm f.st f.a)
  | 0x57 => .ok (.tstat f.st f.d f.a f.b)
  | 0x58 => needZero "TRESET" (f.d = 0) (.treset f.st f.a f.b)
  | 0x59 => .ok (.wcnt f.st f.d f.a f.b)
  | 0x5A => .ok (.wwait f.st f.d f.a f.b)
  | 0x5B => needZero "FFENCE" (f.d = 0 ∧ f.b = 0) (.ffence f.st f.a)
  | 0x60 => needZero "LD_U" (f.b = 0) (.ldU f.st f.d f.a (x.extractLsb' 29 3) (x.extractLsb' 28 1) (x.extractLsb' 25 3) (x.extractLsb' 20 5) (x.extractLsb' 0 20))
  | 0x61 => needZero "ST_U" (f.b = 0) (.stU f.st f.d f.a (x.extractLsb' 29 3) (x.extractLsb' 28 1) (x.extractLsb' 25 3) (x.extractLsb' 20 5) (x.extractLsb' 0 20))
  | 0x62 => .ok (.atomU f.st f.d f.a f.b (x.extractLsb' 29 3) (x.extractLsb' 28 1) (x.extractLsb' 25 3) (x.extractLsb' 20 5) (x.extractLsb' 0 20))
  | 0x63 => needZero "RED_U" (f.d = 0) (.redU f.st f.a f.b (x.extractLsb' 29 3) (x.extractLsb' 28 1) (x.extractLsb' 25 3) (x.extractLsb' 20 5) (x.extractLsb' 0 20))
  | 0x64 => needZero "LIMM_U" (f.a = 0 ∧ f.b = 0) (.limmU f.st f.d x)
  | 0x65 => needZero "IADDI_U" (f.b = 0) (.iaddiU f.st f.d f.a x)
  | 0x66 => needZero "LDPOLL_U" (f.b = 0) (.ldpollU f.st f.d f.a (x.extractLsb' 29 3) (x.extractLsb' 28 1) (x.extractLsb' 25 3) (x.extractLsb' 20 5) (x.extractLsb' 0 20))
  | 0x67 => needZero "LEA" (f.b = 0 ∧ (x.extractLsb' 20 12) = 0) (.lea f.st f.d f.a (x.extractLsb' 0 20))
  | 0x68 => needZero "PUT" (f.d = 0 ∧ f.b = 0 ∧ (x.extractLsb' 0 24) = 0) (.put f.st f.a (x.extractLsb' 24 8))
  | 0x69 => needZero "PUTF" (f.d = 0 ∧ f.b = 0 ∧ (x.extractLsb' 0 24) = 0) (.putf f.st f.a (x.extractLsb' 24 8))
  | 0x6A => needZero "FAAR" (f.b = 0 ∧ (x.extractLsb' 0 24) = 0) (.faar f.st f.d f.a (x.extractLsb' 24 8))
  | 0x6B => needZero "CASR" (f.b = 0 ∧ (x.extractLsb' 0 24) = 0) (.casr f.st f.d f.a (x.extractLsb' 24 8))
  | 0x6C => needZero "TMARK" (f.d = 0 ∧ f.a = 0 ∧ f.b = 0) (.tmark f.st x)
  | _ => .ok (.unassignedOpcode f.toWord)
/-- The instruction of a first word and the word after it, which only a two-word instruction uses (R36, R43). -/
def decode (w x : Word) : Except DecodeError Instr :=
  let f := Fields.ofWord w
  if f.set = 0 then decodeLane f x else decodeUniform f x

/-- The first word of an instruction, field by field (R36, R39 to R42); an event has none. -/
def Instr.fields : Instr → Option Fields
  | .iadd stl d a b => some ⟨0, 0x00, stl, d, a, b⟩
  | .isub stl d a b => some ⟨0, 0x01, stl, d, a, b⟩
  | .iaddc stl d a b => some ⟨0, 0x02, stl, d, a, b⟩
  | .isubb stl d a b => some ⟨0, 0x03, stl, d, a, b⟩
  | .imul stl d a b => some ⟨0, 0x04, stl, d, a, b⟩
  | .imulh stl d a b => some ⟨0, 0x05, stl, d, a, b⟩
  | .imulhu stl d a b => some ⟨0, 0x06, stl, d, a, b⟩
  | .imad stl d a b => some ⟨0, 0x07, stl, d, a, b⟩
  | .imin stl d a b => some ⟨0, 0x08, stl, d, a, b⟩
  | .imax stl d a b => some ⟨0, 0x09, stl, d, a, b⟩
  | .iminu stl d a b => some ⟨0, 0x0A, stl, d, a, b⟩
  | .imaxu stl d a b => some ⟨0, 0x0B, stl, d, a, b⟩
  | .and stl d a b => some ⟨0, 0x0C, stl, d, a, b⟩
  | .or stl d a b => some ⟨0, 0x0D, stl, d, a, b⟩
  | .xor stl d a b => some ⟨0, 0x0E, stl, d, a, b⟩
  | .andn stl d a b => some ⟨0, 0x0F, stl, d, a, b⟩
  | .shl stl d a b => some ⟨0, 0x10, stl, d, a, b⟩
  | .shr stl d a b => some ⟨0, 0x11, stl, d, a, b⟩
  | .sar stl d a b => some ⟨0, 0x12, stl, d, a, b⟩
  | .rotl stl d a b => some ⟨0, 0x13, stl, d, a, b⟩
  | .popc stl d a => some ⟨0, 0x14, stl, d, a, 0⟩
  | .clz stl d a => some ⟨0, 0x15, stl, d, a, 0⟩
  | .brev stl d a => some ⟨0, 0x16, stl, d, a, 0⟩
  | .bfe stl d a b => some ⟨0, 0x17, stl, d, a, b⟩
  | .bfi stl d a b => some ⟨0, 0x18, stl, d, a, b⟩
  | .icmp stl c p a b => some ⟨0, 0x19, stl, c ++ p, a, b⟩
  | .fcmp stl c p a b => some ⟨0, 0x1A, stl, c ++ p, a, b⟩
  | .cmov stl d k n p b => some ⟨0, 0x1B, stl, d, (0 : BitVec 2) ++ k ++ n ++ p, b⟩
  | .mov stl d a => some ⟨0, 0x1C, stl, d, a, 0⟩
  | .movi stl d imm => some ⟨0, 0x1D, stl, d, imm.extractLsb' 7 7, imm.extractLsb' 0 7⟩
  | .dcmp stl c p a b => some ⟨0, 0x1E, stl, c ++ p, a, b⟩
  | .movu stl d a => some ⟨0, 0x1F, stl, d, a, 0⟩
  | .movuX stl d a => some ⟨0, 0x1F, stl, d, a, 1⟩
  | .fadd stl d a b => some ⟨0, 0x20, stl, d, a, b⟩
  | .fsub stl d a b => some ⟨0, 0x21, stl, d, a, b⟩
  | .fmul stl d a b => some ⟨0, 0x22, stl, d, a, b⟩
  | .ffma stl d a b => some ⟨0, 0x23, stl, d, a, b⟩
  | .fmin stl d a b => some ⟨0, 0x24, stl, d, a, b⟩
  | .fmax stl d a b => some ⟨0, 0x25, stl, d, a, b⟩
  | .fcpys stl d a b => some ⟨0, 0x26, stl, d, a, b⟩
  | .fcvt stl d a c m => some ⟨0, 0x27, stl, d, a, c ++ m⟩
  | .frnd stl d a m => some ⟨0, 0x28, stl, d, a, (0 : BitVec 4) ++ m⟩
  | .fclass stl d a => some ⟨0, 0x29, stl, d, a, 0⟩
  | .dadd stl d a b => some ⟨0, 0x2A, stl, d, a, b⟩
  | .dmul stl d a b => some ⟨0, 0x2B, stl, d, a, b⟩
  | .dfma stl d a b => some ⟨0, 0x2C, stl, d, a, b⟩
  | .dmin stl d a b => some ⟨0, 0x2D, stl, d, a, b⟩
  | .dmax stl d a b => some ⟨0, 0x2E, stl, d, a, b⟩
  | .dcvt stl d a c m => some ⟨0, 0x2F, stl, d, a, c ++ m⟩
  | .rcp stl d a => some ⟨0, 0x30, stl, d, a, 0⟩
  | .rsq stl d a => some ⟨0, 0x31, stl, d, a, 0⟩
  | .sqrt stl d a => some ⟨0, 0x32, stl, d, a, 0⟩
  | .exp2 stl d a => some ⟨0, 0x33, stl, d, a, 0⟩
  | .log2 stl d a => some ⟨0, 0x34, stl, d, a, 0⟩
  | .sinpi stl d a => some ⟨0, 0x35, stl, d, a, 0⟩
  | .cospi stl d a => some ⟨0, 0x36, stl, d, a, 0⟩
  | .tanh stl d a => some ⟨0, 0x37, stl, d, a, 0⟩
  | .sigm stl d a => some ⟨0, 0x38, stl, d, a, 0⟩
  | .erf stl d a => some ⟨0, 0x39, stl, d, a, 0⟩
  | .gelu stl d a => some ⟨0, 0x3A, stl, d, a, 0⟩
  | .silu stl d a => some ⟨0, 0x3B, stl, d, a, 0⟩
  | .zadd stl d a b => some ⟨0, 0x3C, stl, d, a, b⟩
  | .zmul stl d a b => some ⟨0, 0x3D, stl, d, a, b⟩
  | .zfma stl d a b => some ⟨0, 0x3E, stl, d, a, b⟩
  | .zop stl d a o => some ⟨0, 0x3F, stl, d, a, o⟩
  | .wadd stl d a b => some ⟨0, 0x40, stl, d, a, b⟩
  | .wsub stl d a b => some ⟨0, 0x41, stl, d, a, b⟩
  | .wmul stl d a b => some ⟨0, 0x42, stl, d, a, b⟩
  | .wfma stl d a b => some ⟨0, 0x43, stl, d, a, b⟩
  | .wmin stl d a b => some ⟨0, 0x44, stl, d, a, b⟩
  | .wmax stl d a b => some ⟨0, 0x45, stl, d, a, b⟩
  | .wscl stl d a b => some ⟨0, 0x46, stl, d, a, b⟩
  | .wbcst stl d a => some ⟨0, 0x47, stl, d, a, 0⟩
  | .wsum stl d a => some ⟨0, 0x48, stl, d, a, 0⟩
  | .wexp stl d a => some ⟨0, 0x49, stl, d, a, 0⟩
  | .whero stl d a => some ⟨0, 0x4A, stl, d, a, 0⟩
  | .wlut stl d a b => some ⟨0, 0x4B, stl, d, a, b⟩
  | .wcmf stl d a b => some ⟨0, 0x4C, stl, d, a, b⟩
  | .wrots stl d a b => some ⟨0, 0x4D, stl, d, a, b⟩
  | .wmuel stl d a b => some ⟨0, 0x4E, stl, d, a, b⟩
  | .wfres stl d a b => some ⟨0, 0x4F, stl, d, a, b⟩
  | .vote stl d k n p m => some ⟨0, 0x50, stl, d, (0 : BitVec 2) ++ k ++ n ++ p, m⟩
  | .shfl stl d a m c => some ⟨0, 0x51, stl, d, a, m ++ c⟩
  | .pushl stl d a b => some ⟨0, 0x52, stl, d, a, b⟩
  | .tred stl d a o => some ⟨0, 0x53, stl, d, a, o⟩
  | .brc stl off k n p => some ⟨0, 0x54, stl, off.extractLsb' 7 7, (0 : BitVec 2) ++ k ++ n ++ p, off.extractLsb' 0 7⟩
  | .brx stl a => some ⟨0, 0x55, stl, 0, a, 0⟩
  | .callx stl d a => some ⟨0, 0x56, stl, d, a, 0⟩
  | .ret stl a => some ⟨0, 0x57, stl, 0, a, 0⟩
  | .exit stl => some ⟨0, 0x58, stl, 0, 0, 0⟩
  | .xsend stl g a c => some ⟨0, 0x59, stl, g, a, c⟩
  | .xrecv stl d g c => some ⟨0, 0x5A, stl, d, g, c⟩
  | .rng stl d a b => some ⟨0, 0x5B, stl, d, a, b⟩
  | .sread stl d n => some ⟨0, 0x5C, stl, d, n, 0⟩
  | .waitr stl q => some ⟨0, 0x5D, stl, 0, 0, (0 : BitVec 4) ++ q⟩
  | .join stl => some ⟨0, 0x5E, stl, 0, 0, 0⟩
  | .trapp stl code k n p => some ⟨0, 0x5F, stl, code.extractLsb' 7 7, (0 : BitVec 2) ++ k ++ n ++ p, code.extractLsb' 0 7⟩
  | .ld stl d a _ _ _ _ _ => some ⟨0, 0x60, stl, d, a, 0⟩
  | .st stl d a _ _ _ _ _ => some ⟨0, 0x61, stl, d, a, 0⟩
  | .ldw stl d a _ _ _ _ _ => some ⟨0, 0x62, stl, d, a, 0⟩
  | .stw stl d a _ _ _ _ _ => some ⟨0, 0x63, stl, d, a, 0⟩
  | .ldfe stl d a _ _ _ _ _ => some ⟨0, 0x64, stl, d, a, 0⟩
  | .stfe stl d a _ _ _ _ _ => some ⟨0, 0x65, stl, d, a, 0⟩
  | .atom stl d a b _ _ _ _ _ => some ⟨0, 0x66, stl, d, a, b⟩
  | .red stl a b _ _ _ _ _ => some ⟨0, 0x67, stl, 0, a, b⟩
  | .atomf stl d a b _ _ _ _ _ => some ⟨0, 0x68, stl, d, a, b⟩
  | .cvtfx stl d a _ _ _ _ => some ⟨0, 0x69, stl, d, a, 0⟩
  | .atomx stl a b _ _ _ _ _ => some ⟨0, 0x6A, stl, 0, a, b⟩
  | .ldpoll stl d a _ _ _ _ _ => some ⟨0, 0x6B, stl, d, a, 0⟩
  | .filmadd stl a b _ _ => some ⟨0, 0x6C, stl, 0, a, b⟩
  | .limm stl d _ => some ⟨0, 0x6D, stl, d, 0, 0⟩
  | .iaddi stl d a _ => some ⟨0, 0x6E, stl, d, a, 0⟩
  | .fmuli stl d a _ => some ⟨0, 0x6F, stl, d, a, 0⟩
  | .trace stl d a b _ _ _ => some ⟨0, 0x70, stl, d, a, b⟩
  | .spawn stl k p a b _ => some ⟨0, 0x71, stl, (0 : BitVec 2) ++ k ++ (0 : BitVec 1) ++ p, a, b⟩
  | .hita stl d _ => some ⟨0, 0x72, stl, d, 0, 0⟩
  | .hitc stl d a _ => some ⟨0, 0x73, stl, d, a, 0⟩
  | .tex stl d a _ _ => some ⟨0, 0x74, stl, d, a, 0⟩
  | .wtex stl d a b _ _ => some ⟨0, 0x75, stl, d, a, b⟩
  | .neval stl d a b _ _ => some ⟨0, 0x76, stl, d, a, b⟩
  | .mmaq stl d a b _ _ _ _ => some ⟨0, 0x77, stl, d, a, b⟩
  | .mrd stl d b _ _ _ => some ⟨0, 0x78, stl, d, 0, b⟩
  | .mwr stl d b _ _ _ => some ⟨0, 0x79, stl, d, 0, b⟩
  | .msync stl _ => some ⟨0, 0x7A, stl, 0, 0, 0⟩
  | .oprdy stl _ => some ⟨0, 0x7B, stl, 0, 0, 0⟩
  | .tdraw stl d a b _ _ _ _ => some ⟨0, 0x7C, stl, d, a, b⟩
  | .tupd stl a _ => some ⟨0, 0x7D, stl, 0, a, 0⟩
  | .tins stl d a _ => some ⟨0, 0x7E, stl, d, a, 0⟩
  | .iaddU stl d a b => some ⟨1, 0x00, stl, d, a, b⟩
  | .isubU stl d a b => some ⟨1, 0x01, stl, d, a, b⟩
  | .iaddcU stl d a b => some ⟨1, 0x02, stl, d, a, b⟩
  | .isubbU stl d a b => some ⟨1, 0x03, stl, d, a, b⟩
  | .imulU stl d a b => some ⟨1, 0x04, stl, d, a, b⟩
  | .imulhU stl d a b => some ⟨1, 0x05, stl, d, a, b⟩
  | .imulhuU stl d a b => some ⟨1, 0x06, stl, d, a, b⟩
  | .imadU stl d a b => some ⟨1, 0x07, stl, d, a, b⟩
  | .iminU stl d a b => some ⟨1, 0x08, stl, d, a, b⟩
  | .imaxU stl d a b => some ⟨1, 0x09, stl, d, a, b⟩
  | .iminuU stl d a b => some ⟨1, 0x0A, stl, d, a, b⟩
  | .imaxuU stl d a b => some ⟨1, 0x0B, stl, d, a, b⟩
  | .andU stl d a b => some ⟨1, 0x0C, stl, d, a, b⟩
  | .orU stl d a b => some ⟨1, 0x0D, stl, d, a, b⟩
  | .xorU stl d a b => some ⟨1, 0x0E, stl, d, a, b⟩
  | .andnU stl d a b => some ⟨1, 0x0F, stl, d, a, b⟩
  | .shlU stl d a b => some ⟨1, 0x10, stl, d, a, b⟩
  | .shrU stl d a b => some ⟨1, 0x11, stl, d, a, b⟩
  | .sarU stl d a b => some ⟨1, 0x12, stl, d, a, b⟩
  | .rotlU stl d a b => some ⟨1, 0x13, stl, d, a, b⟩
  | .popcU stl d a => some ⟨1, 0x14, stl, d, a, 0⟩
  | .clzU stl d a => some ⟨1, 0x15, stl, d, a, 0⟩
  | .brevU stl d a => some ⟨1, 0x16, stl, d, a, 0⟩
  | .bfeU stl d a b => some ⟨1, 0x17, stl, d, a, b⟩
  | .bfiU stl d a b => some ⟨1, 0x18, stl, d, a, b⟩
  | .icmpU stl c p a b => some ⟨1, 0x19, stl, c ++ p, a, b⟩
  | .fcmpU stl c p a b => some ⟨1, 0x1A, stl, c ++ p, a, b⟩
  | .cmovU stl d k n p b => some ⟨1, 0x1B, stl, d, (0 : BitVec 2) ++ k ++ n ++ p, b⟩
  | .movU stl d a => some ⟨1, 0x1C, stl, d, a, 0⟩
  | .moviU stl d imm => some ⟨1, 0x1D, stl, d, imm.extractLsb' 7 7, imm.extractLsb' 0 7⟩
  | .dcmpU stl c p a b => some ⟨1, 0x1E, stl, c ++ p, a, b⟩
  | .rdlane stl d a t => some ⟨1, 0x1F, stl, d, a, t⟩
  | .faddU stl d a b => some ⟨1, 0x20, stl, d, a, b⟩
  | .fsubU stl d a b => some ⟨1, 0x21, stl, d, a, b⟩
  | .fmulU stl d a b => some ⟨1, 0x22, stl, d, a, b⟩
  | .ffmaU stl d a b => some ⟨1, 0x23, stl, d, a, b⟩
  | .fminU stl d a b => some ⟨1, 0x24, stl, d, a, b⟩
  | .fmaxU stl d a b => some ⟨1, 0x25, stl, d, a, b⟩
  | .fcpysU stl d a b => some ⟨1, 0x26, stl, d, a, b⟩
  | .fcvtU stl d a c m => some ⟨1, 0x27, stl, d, a, c ++ m⟩
  | .frndU stl d a m => some ⟨1, 0x28, stl, d, a, (0 : BitVec 4) ++ m⟩
  | .fclassU stl d a => some ⟨1, 0x29, stl, d, a, 0⟩
  | .daddU stl d a b => some ⟨1, 0x2A, stl, d, a, b⟩
  | .dmulU stl d a b => some ⟨1, 0x2B, stl, d, a, b⟩
  | .dfmaU stl d a b => some ⟨1, 0x2C, stl, d, a, b⟩
  | .dminU stl d a b => some ⟨1, 0x2D, stl, d, a, b⟩
  | .dmaxU stl d a b => some ⟨1, 0x2E, stl, d, a, b⟩
  | .dcvtU stl d a c m => some ⟨1, 0x2F, stl, d, a, c ++ m⟩
  | .br stl off => some ⟨1, 0x30, stl, off.extractLsb' 14 7, off.extractLsb' 7 7, off.extractLsb' 0 7⟩
  | .brq stl off k n p => some ⟨1, 0x31, stl, off.extractLsb' 7 7, (0 : BitVec 2) ++ k ++ n ++ p, off.extractLsb' 0 7⟩
  | .call stl off => some ⟨1, 0x32, stl, off.extractLsb' 14 7, off.extractLsb' 7 7, off.extractLsb' 0 7⟩
  | .jmps stl a => some ⟨1, 0x33, stl, 0, a, 0⟩
  | .exitg stl => some ⟨1, 0x34, stl, 0, 0, 0⟩
  | .yield stl => some ⟨1, 0x35, stl, 0, 0, 0⟩
  | .nop stl => some ⟨1, 0x36, stl, 0, 0, 0⟩
  | .bkpt stl code => some ⟨1, 0x37, stl, 0, code.extractLsb' 7 7, code.extractLsb' 0 7⟩
  | .trap stl code => some ⟨1, 0x38, stl, 0, code.extractLsb' 7 7, code.extractLsb' 0 7⟩
  | .sreadU stl d n => some ⟨1, 0x39, stl, d, n, 0⟩
  | .swrite stl n a => some ⟨1, 0x3A, stl, n, a, 0⟩
  | .waitblk stl a => some ⟨1, 0x3B, stl, 0, a, 0⟩
  | .racq stl => some ⟨1, 0x3C, stl, 0, 0, 0⟩
  | .rrel stl => some ⟨1, 0x3D, stl, 0, 0, 0⟩
  | .lease stl k p a => some ⟨1, 0x3E, stl, (0 : BitVec 2) ++ k ++ (0 : BitVec 1) ++ p, a, 0⟩
  | .lrel stl => some ⟨1, 0x3F, stl, 0, 0, 0⟩
  | .bari stl k a b => some ⟨1, 0x40, stl, k, a, b⟩
  | .bara stl d a => some ⟨1, 0x41, stl, d, a, 0⟩
  | .barw stl a b => some ⟨1, 0x42, stl, 0, a, b⟩
  | .baraw stl d a => some ⟨1, 0x43, stl, d, a, 0⟩
  | .nbar stl v n b => some ⟨1, 0x44, stl, v, n, b⟩
  | .hbar stl c => some ⟨1, 0x45, stl, 0, 0, c⟩
  | .fence stl k c => some ⟨1, 0x46, stl, 0, k, c⟩
  | .mwait stl d a b => some ⟨1, 0x47, stl, d, a, b⟩
  | .swaitp stl g a b => some ⟨1, 0x48, stl, g, a, b⟩
  | .ssig stl g a => some ⟨1, 0x49, stl, g, a, 0⟩
  | .cpy stl r t c a => some ⟨1, 0x4A, stl, (0 : BitVec 1) ++ r ++ t ++ c, a, 0⟩
  | .cpym stl r t c a => some ⟨1, 0x4B, stl, (0 : BitVec 1) ++ r ++ t ++ c, a, 0⟩
  | .dec stl r t c a => some ⟨1, 0x4C, stl, (0 : BitVec 1) ++ r ++ t ++ c, a, 0⟩
  | .chain stl c a => some ⟨1, 0x4D, stl, (0 : BitVec 3) ++ c, a, 0⟩
  | .ewait stl c a => some ⟨1, 0x4E, stl, c, a, 0⟩
  | .ecnt stl d c o => some ⟨1, 0x4F, stl, d, c, o⟩
  | .mmas stl y l k n a => some ⟨1, 0x50, stl, y ++ l ++ k ++ n, a, 0⟩
  | .bld stl n a => some ⟨1, 0x51, stl, n, a, 0⟩
  | .memit stl k a => some ⟨1, 0x52, stl, k, a, 0⟩
  | .tcommit stl d t => some ⟨1, 0x53, stl, d, t, 0⟩
  | .tver stl d t e => some ⟨1, 0x54, stl, d, t, e⟩
  | .tblld stl k a c => some ⟨1, 0x55, stl, k, a, c⟩
  | .tarm stl a => some ⟨1, 0x56, stl, 0, a, 0⟩
  | .tstat stl d a e => some ⟨1, 0x57, stl, d, a, e⟩
  | .treset stl a b => some ⟨1, 0x58, stl, 0, a, b⟩
  | .wcnt stl d a e => some ⟨1, 0x59, stl, d, a, e⟩
  | .wwait stl e a b => some ⟨1, 0x5A, stl, e, a, b⟩
  | .ffence stl a => some ⟨1, 0x5B, stl, 0, a, 0⟩
  | .ldU stl d a _ _ _ _ _ => some ⟨1, 0x60, stl, d, a, 0⟩
  | .stU stl d a _ _ _ _ _ => some ⟨1, 0x61, stl, d, a, 0⟩
  | .atomU stl d a b _ _ _ _ _ => some ⟨1, 0x62, stl, d, a, b⟩
  | .redU stl a b _ _ _ _ _ => some ⟨1, 0x63, stl, 0, a, b⟩
  | .limmU stl d _ => some ⟨1, 0x64, stl, d, 0, 0⟩
  | .iaddiU stl d a _ => some ⟨1, 0x65, stl, d, a, 0⟩
  | .ldpollU stl d a _ _ _ _ _ => some ⟨1, 0x66, stl, d, a, 0⟩
  | .lea stl d a _ => some ⟨1, 0x67, stl, d, a, 0⟩
  | .put stl a _ => some ⟨1, 0x68, stl, 0, a, 0⟩
  | .putf stl a _ => some ⟨1, 0x69, stl, 0, a, 0⟩
  | .faar stl d a _ => some ⟨1, 0x6A, stl, d, a, 0⟩
  | .casr stl d a _ => some ⟨1, 0x6B, stl, d, a, 0⟩
  | .tmark stl _ => some ⟨1, 0x6C, stl, 0, 0, 0⟩
  | .unassignedOpcode w => some (Fields.ofWord w)
  | _ => none

/-- The extension word of a two-word instruction (R43 to R46). -/
def Instr.ext : Instr → Option Word
  | .ld _ _ _ size sign scope subop off => some (size ++ sign ++ scope ++ subop ++ off)
  | .st _ _ _ size sign scope subop off => some (size ++ sign ++ scope ++ subop ++ off)
  | .ldw _ _ _ size sign scope subop off => some (size ++ sign ++ scope ++ subop ++ off)
  | .stw _ _ _ size sign scope subop off => some (size ++ sign ++ scope ++ subop ++ off)
  | .ldfe _ _ _ size sign scope subop off => some (size ++ sign ++ scope ++ subop ++ off)
  | .stfe _ _ _ size sign scope subop off => some (size ++ sign ++ scope ++ subop ++ off)
  | .atom _ _ _ _ size sign scope subop off => some (size ++ sign ++ scope ++ subop ++ off)
  | .red _ _ _ size sign scope subop off => some (size ++ sign ++ scope ++ subop ++ off)
  | .atomf _ _ _ _ size sign scope subop off => some (size ++ sign ++ scope ++ subop ++ off)
  | .cvtfx _ _ _ dir rm fxw frac => some (dir ++ rm ++ fxw ++ frac ++ (0 : BitVec 19))
  | .atomx _ _ _ size sign scope subop off => some (size ++ sign ++ scope ++ subop ++ off)
  | .ldpoll _ _ _ size sign scope subop off => some (size ++ sign ++ scope ++ subop ++ off)
  | .filmadd _ _ _ film nch => some (film ++ nch ++ (0 : BitVec 27))
  | .limm _ _ imm => some (imm)
  | .iaddi _ _ _ imm => some (imm)
  | .fmuli _ _ _ imm => some (imm)
  | .trace _ _ _ _ pop flags mask => some (pop ++ flags ++ mask ++ (0 : BitVec 16))
  | .spawn _ _ _ _ _ sel => some ((0 : BitVec 16) ++ sel ++ (0 : BitVec 12))
  | .hita _ _ sel => some ((0 : BitVec 16) ++ sel ++ (0 : BitVec 12))
  | .hitc _ _ _ sel => some ((0 : BitVec 16) ++ sel ++ (0 : BitVec 12))
  | .tex _ _ _ desc samp => some (desc ++ samp ++ (0 : BitVec 16))
  | .wtex _ _ _ _ desc samp => some (desc ++ samp ++ (0 : BitVec 16))
  | .neval _ _ _ _ nin nout => some (nin ++ nout ++ (0 : BitVec 20))
  | .mmaq _ _ _ _ slot km nm win => some (slot ++ km ++ nm ++ win ++ (0 : BitVec 13))
  | .mrd _ _ _ tile col row => some (tile ++ col ++ row ++ (0 : BitVec 17))
  | .mwr _ _ _ tile col row => some (tile ++ col ++ row ++ (0 : BitVec 17))
  | .msync _ bank => some (bank ++ (0 : BitVec 31))
  | .oprdy _ bank => some (bank ++ (0 : BitVec 31))
  | .tdraw _ _ _ _ tree strat keyed vchk => some (tree ++ strat ++ keyed ++ vchk ++ (0 : BitVec 23))
  | .tupd _ _ tree => some (tree ++ (0 : BitVec 26))
  | .tins _ _ _ tree => some (tree ++ (0 : BitVec 26))
  | .ldU _ _ _ size sign scope subop off => some (size ++ sign ++ scope ++ subop ++ off)
  | .stU _ _ _ size sign scope subop off => some (size ++ sign ++ scope ++ subop ++ off)
  | .atomU _ _ _ _ size sign scope subop off => some (size ++ sign ++ scope ++ subop ++ off)
  | .redU _ _ _ size sign scope subop off => some (size ++ sign ++ scope ++ subop ++ off)
  | .limmU _ _ imm => some (imm)
  | .iaddiU _ _ _ imm => some (imm)
  | .ldpollU _ _ _ size sign scope subop off => some (size ++ sign ++ scope ++ subop ++ off)
  | .lea _ _ _ off => some ((0 : BitVec 12) ++ off)
  | .put _ _ win => some (win ++ (0 : BitVec 24))
  | .putf _ _ win => some (win ++ (0 : BitVec 24))
  | .faar _ _ _ win => some (win ++ (0 : BitVec 24))
  | .casr _ _ _ win => some (win ++ (0 : BitVec 24))
  | .tmark _ mark => some (mark)
  | _ => none
/-- The words of an instruction (R36, R43); an event has none. -/
def encode (i : Instr) : Option (Word × Option Word) := i.fields.map fun f => (f.toWord, i.ext)

/-- The length in bytes (R36). An unassigned opcode reads no second word (R50). -/
def Instr.length (i : Instr) : Nat := if i.ext.isSome then 8 else 4

/-- Whether a first word is that of a two-word instruction: an assigned opcode of 0x60 to 0x7F (R36, R50). -/
def twoWords (w : Word) : Bool :=
  let op := (w.extractLsb' 24 7).toNat
  if w.getLsbD 31 then decide (0x60 ≤ op ∧ op ≤ 0x6C) else decide (0x60 ≤ op ∧ op ≤ 0x7E)

/-- The little-endian word of four bytes (R17). -/
def wordOfBytes (b0 b1 b2 b3 : Byte) : Word := b3 ++ b2 ++ b1 ++ b0

/-- The instruction at the head of a list of bytes, and the bytes after it. -/
def decodeBytes : List Byte → Except DecodeError (Instr × List Byte)
  | b0 :: b1 :: b2 :: b3 :: rest =>
    let w := wordOfBytes b0 b1 b2 b3
    if twoWords w then
      match rest with
      | c0 :: c1 :: c2 :: c3 :: rest' => (decode w (wordOfBytes c0 c1 c2 c3)).map fun i => (i, rest')
      | _ => .error .truncated
    else (decode w 0).map fun i => (i, rest)
  | _ => .error .truncated

/-- The bytes of a word, lowest address first (R17). -/
def bytesOfWord (w : Word) : List Byte := [w.extractLsb' 0 8, w.extractLsb' 8 8, w.extractLsb' 16 8, w.extractLsb' 24 8]

/-- The bytes of an instruction given as one number, bit 0 the least significant bit of the first word: two words laid out in
memory order. -/
def tableBytes (w : Nat) : List Byte := bytesOfWord (BitVec.ofNat 32 w) ++ bytesOfWord (BitVec.ofNat 32 (w / 2 ^ 32))

/-- The instruction the decoder reads from an instruction whose bits are w, numbered as spec/opcode_table.json numbers them. -/
def decodeTableWord (nbits w : Nat) : Option Instr :=
  match decodeBytes (tableBytes (w % 2 ^ nbits)) with
  | .ok (i, _) => some i
  | .error _ => none

end Sys2Proof
end

