-- ==== Sys2Proof/Machine/Operands.lean ====
section
/-! DEFINITION. Operand forms: the class of every register field (R39, R97 to R242), the registers it names (R33), and which
field values are legal (R34 check 1, R39 to R47 and the instruction chapters). -/
namespace Sys2Proof.Machine
open Sys2Proof

/-- A register operand: its field and class, and whether it is read and written. -/
inductive Opnd where
  /-- A lane operand of `len` v registers from v(unit × number): unit 1 vector, 2 pair, 8 spectral and Stokes. -/
  | lane (f : BitVec 7) (unit len : Nat) (rd wr : Bool)
  /-- A quad: v(2k) to v(2k+3), k even (R148). -/
  | quad (f : BitVec 7) (rd wr : Bool)
  /-- `len` s registers from the field's number, which is even when len > 1 (R39, R191). -/
  | uni (f : BitVec 7) (len : Nat) (rd wr : Bool)
  /-- A lane predicate field with CONST k, NEG n and number p (R39). -/
  | pred (k n : BitVec 1) (p : BitVec 3) (wr : Bool)
  /-- A uniform predicate field. -/
  | upred (k n : BitVec 1) (p : BitVec 3) (wr : Bool)
  /-- An index register. -/
  | idx (f : BitVec 7) (wr : Bool)
  deriving DecidableEq, Repr

/-- The data class of a lane memory operand by SIZE (R148). -/
def memOpnd (f : BitVec 7) (size : BitVec 3) (rd wr : Bool) : Opnd :=
  match size.toNat with
  | 3 => .lane f 2 2 rd wr
  | 4 => .quad f rd wr
  | 5 => .lane f 8 8 rd wr
  | _ => .lane f 1 1 rd wr

/-- The data class of a uniform memory operand by SIZE (R148). -/
def uniMemOpnd (f : BitVec 7) (size : BitVec 3) (rd wr : Bool) : Opnd := .uni f (if size = 3 then 2 else 1) rd wr

/-- Registers of the destination of DCVT by its code (R131): 2 for a pair. -/
def dcvtD (c : BitVec 4) : Nat := if c = 0 ∨ c = 2 ∨ c = 3 then 1 else 2
/-- Registers of the source of DCVT by its code (R131). -/
def dcvtA (c : BitVec 4) : Nat := if c = 1 ∨ c = 4 ∨ c = 5 then 1 else 2

/-- The destination of VOTE: a predicate for ANY and ALL, a vector for BAL and CNT (R173). -/
def voteOpnd (d m : BitVec 7) : List Opnd :=
  if m.toNat ≤ 1 then [.pred (d.extractLsb' 4 1) 0 (d.extractLsb' 0 3) true] else [.lane d 1 1 false true]

/-- The index register SREAD reads, for X0 to X3 (R110). -/
def sreadIdx (n : BitVec 7) : List Opnd := if 0x1E ≤ n.toNat ∧ n.toNat ≤ 0x21 then [.idx (n - 0x1E) false] else []

/-- The operands of CVTFX (R145): the fixed-point side is a pair or a quad. -/
def cvtfxOpnd (d a : BitVec 7) (dir : BitVec 1) (fxw : BitVec 2) : List Opnd :=
  let fx (f : BitVec 7) (rd wr : Bool) : Opnd := if fxw = 1 then .quad f rd wr else .lane f 2 2 rd wr
  if dir = 0 then [fx d false true, .lane a 1 1 true false] else [.lane d 1 1 false true, fx a true false]

/-- The destination of HITA by its selector (R215). -/
def hitaOpnd (d : BitVec 7) (sel : BitVec 4) : Opnd :=
  match sel.toNat with
  | 0 => .lane d 1 6 false true
  | 1 => .lane d 1 2 false true
  | 3 => .lane d 8 8 false true
  | _ => .lane d 1 1 false true

/-- The register operands of an instruction, with the class of each field (R39, R97 to R242) and whether it is read or
written. -/
def operands : Instr → List Opnd
  | .iadd _ d a b => [.lane d 1 1 false true, .lane a 1 1 true false, .lane b 1 1 true false]
  | .isub _ d a b => [.lane d 1 1 false true, .lane a 1 1 true false, .lane b 1 1 true false]
  | .iaddc _ d a b => [.lane d 1 1 false true, .lane a 1 1 true false, .lane b 1 1 true false, .pred 0 0 6 false, .pred 0 0 6 true]
  | .isubb _ d a b => [.lane d 1 1 false true, .lane a 1 1 true false, .lane b 1 1 true false, .pred 0 0 6 false, .pred 0 0 6 true]
  | .imul _ d a b => [.lane d 1 1 false true, .lane a 1 1 true false, .lane b 1 1 true false]
  | .imulh _ d a b => [.lane d 1 1 false true, .lane a 1 1 true false, .lane b 1 1 true false]
  | .imulhu _ d a b => [.lane d 1 1 false true, .lane a 1 1 true false, .lane b 1 1 true false]
  | .imad _ d a b => [.lane d 1 1 true true, .lane a 1 1 true false, .lane b 1 1 true false]
  | .imin _ d a b => [.lane d 1 1 false true, .lane a 1 1 true false, .lane b 1 1 true false]
  | .imax _ d a b => [.lane d 1 1 false true, .lane a 1 1 true false, .lane b 1 1 true false]
  | .iminu _ d a b => [.lane d 1 1 false true, .lane a 1 1 true false, .lane b 1 1 true false]
  | .imaxu _ d a b => [.lane d 1 1 false true, .lane a 1 1 true false, .lane b 1 1 true false]
  | .and _ d a b => [.lane d 1 1 false true, .lane a 1 1 true false, .lane b 1 1 true false]
  | .or _ d a b => [.lane d 1 1 false true, .lane a 1 1 true false, .lane b 1 1 true false]
  | .xor _ d a b => [.lane d 1 1 false true, .lane a 1 1 true false, .lane b 1 1 true false]
  | .andn _ d a b => [.lane d 1 1 false true, .lane a 1 1 true false, .lane b 1 1 true false]
  | .shl _ d a b => [.lane d 1 1 false true, .lane a 1 1 true false, .lane b 1 1 true false]
  | .shr _ d a b => [.lane d 1 1 false true, .lane a 1 1 true false, .lane b 1 1 true false]
  | .sar _ d a b => [.lane d 1 1 false true, .lane a 1 1 true false, .lane b 1 1 true false]
  | .rotl _ d a b => [.lane d 1 1 false true, .lane a 1 1 true false, .lane b 1 1 true false]
  | .popc _ d a => [.lane d 1 1 false true, .lane a 1 1 true false]
  | .clz _ d a => [.lane d 1 1 false true, .lane a 1 1 true false]
  | .brev _ d a => [.lane d 1 1 false true, .lane a 1 1 true false]
  | .bfe _ d a b => [.lane d 1 1 false true, .lane a 1 1 true false, .lane b 1 1 true false]
  | .bfi _ d a b => [.lane d 1 1 true true, .lane a 1 1 true false, .lane b 1 1 true false]
  | .icmp _ _ p a b => [.pred 0 0 p true, .lane a 1 1 true false, .lane b 1 1 true false]
  | .fcmp _ _ p a b => [.pred 0 0 p true, .lane a 1 1 true false, .lane b 1 1 true false]
  | .cmov _ d k n p b => [.lane d 1 1 false true, .pred k n p false, .lane b 1 1 true false]
  | .mov _ d a => [.lane d 1 1 false true, .lane a 1 1 true false]
  | .movi _ d _ => [.lane d 1 1 false true]
  | .dcmp _ _ p a b => [.pred 0 0 p true, .lane a 2 2 true false, .lane b 2 2 true false]
  | .movu _ d a => [.lane d 1 1 false true, .uni a 1 true false]
  | .movuX _ d a => [.idx d true, .uni a 1 true false]
  | .fadd _ d a b => [.lane d 1 1 false true, .lane a 1 1 true false, .lane b 1 1 true false]
  | .fsub _ d a b => [.lane d 1 1 false true, .lane a 1 1 true false, .lane b 1 1 true false]
  | .fmul _ d a b => [.lane d 1 1 false true, .lane a 1 1 true false, .lane b 1 1 true false]
  | .ffma _ d a b => [.lane d 1 1 true true, .lane a 1 1 true false, .lane b 1 1 true false]
  | .fmin _ d a b => [.lane d 1 1 false true, .lane a 1 1 true false, .lane b 1 1 true false]
  | .fmax _ d a b => [.lane d 1 1 false true, .lane a 1 1 true false, .lane b 1 1 true false]
  | .fcpys _ d a b => [.lane d 1 1 false true, .lane a 1 1 true false, .lane b 1 1 true false]
  | .fcvt _ d a _ _ => [.lane d 1 1 false true, .lane a 1 1 true false]
  | .frnd _ d a _ => [.lane d 1 1 false true, .lane a 1 1 true false]
  | .fclass _ d a => [.lane d 1 1 false true, .lane a 1 1 true false]
  | .dadd _ d a b => [.lane d 2 2 false true, .lane a 2 2 true false, .lane b 2 2 true false]
  | .dmul _ d a b => [.lane d 2 2 false true, .lane a 2 2 true false, .lane b 2 2 true false]
  | .dfma _ d a b => [.lane d 2 2 true true, .lane a 2 2 true false, .lane b 2 2 true false]
  | .dmin _ d a b => [.lane d 2 2 false true, .lane a 2 2 true false, .lane b 2 2 true false]
  | .dmax _ d a b => [.lane d 2 2 false true, .lane a 2 2 true false, .lane b 2 2 true false]
  | .dcvt _ d a c _ => [.lane d (dcvtD c) (dcvtD c) false true, .lane a (dcvtA c) (dcvtA c) true false]
  | .rcp _ d a => [.lane d 1 1 false true, .lane a 1 1 true false]
  | .rsq _ d a => [.lane d 1 1 false true, .lane a 1 1 true false]
  | .sqrt _ d a => [.lane d 1 1 false true, .lane a 1 1 true false]
  | .exp2 _ d a => [.lane d 1 1 false true, .lane a 1 1 true false]
  | .log2 _ d a => [.lane d 1 1 false true, .lane a 1 1 true false]
  | .sinpi _ d a => [.lane d 1 1 false true, .lane a 1 1 true false]
  | .cospi _ d a => [.lane d 1 1 false true, .lane a 1 1 true false]
  | .tanh _ d a => [.lane d 1 1 false true, .lane a 1 1 true false]
  | .sigm _ d a => [.lane d 1 1 false true, .lane a 1 1 true false]
  | .erf _ d a => [.lane d 1 1 false true, .lane a 1 1 true false]
  | .gelu _ d a => [.lane d 1 1 false true, .lane a 1 1 true false]
  | .silu _ d a => [.lane d 1 1 false true, .lane a 1 1 true false]
  | .zadd _ d a b => [.lane d 2 2 false true, .lane a 2 2 true false, .lane b 2 2 true false]
  | .zmul _ d a b => [.lane d 2 2 false true, .lane a 2 2 true false, .lane b 2 2 true false]
  | .zfma _ d a b => [.lane d 2 2 true true, .lane a 2 2 true false, .lane b 2 2 true false]
  | .zop _ d a o => [.lane d 2 2 false true, .lane a 2 (if o = 2 then 1 else 2) true false]
  | .wadd _ d a b => [.lane d 8 8 false true, .lane a 8 8 true false, .lane b 8 8 true false]
  | .wsub _ d a b => [.lane d 8 8 false true, .lane a 8 8 true false, .lane b 8 8 true false]
  | .wmul _ d a b => [.lane d 8 8 false true, .lane a 8 8 true false, .lane b 8 8 true false]
  | .wfma _ d a b => [.lane d 8 8 true true, .lane a 8 8 true false, .lane b 8 8 true false]
  | .wmin _ d a b => [.lane d 8 8 false true, .lane a 8 8 true false, .lane b 8 8 true false]
  | .wmax _ d a b => [.lane d 8 8 false true, .lane a 8 8 true false, .lane b 8 8 true false]
  | .wscl _ d a b => [.lane d 8 8 false true, .lane a 8 8 true false, .lane b 1 1 true false]
  | .wbcst _ d a => [.lane d 8 8 false true, .lane a 1 1 true false]
  | .wsum _ d a => [.lane d 1 1 false true, .lane a 8 8 true false]
  | .wexp _ d a => [.lane d 8 8 false true, .lane a 8 8 true false]
  | .whero _ d a => [.lane d 8 8 false true, .lane a 1 1 true false]
  | .wlut _ d a b => [.lane d 8 8 false true, .lane a 8 8 true false, .lane b 1 1 true false]
  | .wcmf _ d a b => [.lane d 8 8 false true, .lane a 8 8 true false, .lane b 8 8 true false, .idx 3 false]
  | .wrots _ d a b => [.lane d 8 32 false true, .lane a 8 32 true false, .lane b 1 1 true false]
  | .wmuel _ d a b => [.lane d 8 32 false true, .lane a 8 32 true false, .lane b 8 32 true false]
  | .wfres _ d a b => [.lane d 8 32 false true, .lane a 8 16 true false, .lane b 1 1 true false]
  | .vote _ d k n p m => voteOpnd d m ++ [.pred k n p false]
  | .shfl _ d a _ _ => [.lane d 1 1 false true, .lane a 1 1 true false]
  | .pushl _ d a b => [.lane d 1 1 true true, .lane a 1 1 true false, .lane b 1 1 true false]
  | .tred _ d a _ => [.lane d 1 1 false true, .lane a 1 1 true false]
  | .brc _ _ k n p => [.pred k n p false]
  | .brx _ a => [.lane a 2 2 true false]
  | .callx _ d a => [.lane d 2 2 false true, .lane a 2 2 true false]
  | .ret _ a => [.lane a 2 2 true false]
  | .xsend _ _ a _ => [.lane a 1 1 true false]
  | .xrecv _ d _ _ => [.lane d 1 1 false true]
  | .rng _ d a b => [.lane d 1 1 false true, .uni a 2 true false, .lane b 1 1 true false]
  | .sread _ d n => [.lane d 1 1 false true] ++ sreadIdx n
  | .trapp _ _ k n p => [.pred k n p false]
  | .ld _ d a size _ _ _ _ => [memOpnd d size false true, .lane a 2 2 true false]
  | .st _ d a size _ _ _ _ => [memOpnd d size true false, .lane a 2 2 true false]
  | .ldw _ d a size _ _ _ _ => [memOpnd d size false true, .lane a 2 2 true false]
  | .stw _ d a size _ _ _ _ => [memOpnd d size true false, .lane a 2 2 true false]
  | .ldfe _ d a size _ _ _ _ => [memOpnd d size false true, .lane a 2 2 true false]
  | .stfe _ d a size _ _ _ _ => [memOpnd d size true false, .lane a 2 2 true false]
  | .atom _ d a b size _ _ subop _ => [memOpnd d size (subop == 9) true, .lane a 2 2 true false, memOpnd b size true false]
  | .red _ a b size _ _ _ _ => [.lane a 2 2 true false, memOpnd b size true false]
  | .atomf _ d a b size _ _ _ _ => [memOpnd d size false true, .lane a 2 2 true false, memOpnd b size true false]
  | .cvtfx _ d a dir _ fxw _ => cvtfxOpnd d a dir fxw
  | .atomx _ a b size _ _ _ _ => [.lane a 2 2 true false, memOpnd b size true false]
  | .ldpoll _ d a size _ _ subop _ => [memOpnd d size (subop.getLsbD 0) true, .lane a 2 2 true false]
  | .filmadd _ a b _ nch => [.lane a 1 (nch.toNat + 1) true false, .lane b 1 2 true false]
  | .limm _ d _ => [.lane d 1 1 false true]
  | .iaddi _ d a _ => [.lane d 1 1 false true, .lane a 1 1 true false]
  | .fmuli _ d a _ => [.lane d 1 1 false true, .lane a 1 1 true false]
  | .trace _ d a b pop _ _ => [.lane d 1 6 false true, .lane a 1 9 (pop == 0) (pop == 1), .lane b 2 2 true false]
  | .spawn _ k p a b _ => [.pred k 0 p true, .lane a 1 9 true false, .lane b 8 8 true false]
  | .hita _ d sel => [hitaOpnd d sel]
  | .hitc _ d a _ => [.lane d 1 6 false true, .lane a 1 1 true false]
  | .tex _ d a _ _ => [.lane d 1 4 false true, .lane a 1 4 true false]
  | .wtex _ d a b _ _ => [.lane d 8 8 false true, .lane a 1 3 true false, .lane b 8 8 true false]
  | .neval _ d a b nin nout => [.lane d 1 (nout.toNat + 1) false true, .lane a 1 (nin.toNat + 1) true false, .lane b 1 1 true false]
  | .mmaq _ d _ b _ _ nm _ => [.lane d 1 (nm.toNat + 1) (b == 1) true]
  | .mrd _ d _ _ _ _ => [.lane d 2 2 false true]
  | .mwr _ d _ _ _ _ => [.lane d 2 2 true false]
  | .tdraw _ d a b _ strat _ vchk => [.lane d 1 5 false true, .lane a 1 (if strat = 1 then 3 else 1) true false] ++ (if vchk = 1 then [.lane b 1 1 true false] else [])
  | .tupd _ a _ => [.lane a 1 3 true false]
  | .tins _ d a _ => [.lane d 1 1 false true, .lane a 1 2 true false]
  | .iaddU _ d a b => [.uni d 1 false true, .uni a 1 true false, .uni b 1 true false]
  | .isubU _ d a b => [.uni d 1 false true, .uni a 1 true false, .uni b 1 true false]
  | .iaddcU _ d a b => [.uni d 1 false true, .uni a 1 true false, .uni b 1 true false, .upred 0 0 6 false, .upred 0 0 6 true]
  | .isubbU _ d a b => [.uni d 1 false true, .uni a 1 true false, .uni b 1 true false, .upred 0 0 6 false, .upred 0 0 6 true]
  | .imulU _ d a b => [.uni d 1 false true, .uni a 1 true false, .uni b 1 true false]
  | .imulhU _ d a b => [.uni d 1 false true, .uni a 1 true false, .uni b 1 true false]
  | .imulhuU _ d a b => [.uni d 1 false true, .uni a 1 true false, .uni b 1 true false]
  | .imadU _ d a b => [.uni d 1 true true, .uni a 1 true false, .uni b 1 true false]
  | .iminU _ d a b => [.uni d 1 false true, .uni a 1 true false, .uni b 1 true false]
  | .imaxU _ d a b => [.uni d 1 false true, .uni a 1 true false, .uni b 1 true false]
  | .iminuU _ d a b => [.uni d 1 false true, .uni a 1 true false, .uni b 1 true false]
  | .imaxuU _ d a b => [.uni d 1 false true, .uni a 1 true false, .uni b 1 true false]
  | .andU _ d a b => [.uni d 1 false true, .uni a 1 true false, .uni b 1 true false]
  | .orU _ d a b => [.uni d 1 false true, .uni a 1 true false, .uni b 1 true false]
  | .xorU _ d a b => [.uni d 1 false true, .uni a 1 true false, .uni b 1 true false]
  | .andnU _ d a b => [.uni d 1 false true, .uni a 1 true false, .uni b 1 true false]
  | .shlU _ d a b => [.uni d 1 false true, .uni a 1 true false, .uni b 1 true false]
  | .shrU _ d a b => [.uni d 1 false true, .uni a 1 true false, .uni b 1 true false]
  | .sarU _ d a b => [.uni d 1 false true, .uni a 1 true false, .uni b 1 true false]
  | .rotlU _ d a b => [.uni d 1 false true, .uni a 1 true false, .uni b 1 true false]
  | .popcU _ d a => [.uni d 1 false true, .uni a 1 true false]
  | .clzU _ d a => [.uni d 1 false true, .uni a 1 true false]
  | .brevU _ d a => [.uni d 1 false true, .uni a 1 true false]
  | .bfeU _ d a b => [.uni d 1 false true, .uni a 1 true false, .uni b 1 true false]
  | .bfiU _ d a b => [.uni d 1 true true, .uni a 1 true false, .uni b 1 true false]
  | .icmpU _ _ p a b => [.upred 0 0 p true, .uni a 1 true false, .uni b 1 true false]
  | .fcmpU _ _ p a b => [.upred 0 0 p true, .uni a 1 true false, .uni b 1 true false]
  | .cmovU _ d k n p b => [.uni d 1 false true, .upred k n p false, .uni b 1 true false]
  | .movU _ d a => [.uni d 1 false true, .uni a 1 true false]
  | .moviU _ d _ => [.uni d 1 false true]
  | .dcmpU _ _ p a b => [.upred 0 0 p true, .uni a 2 true false, .uni b 2 true false]
  | .rdlane _ d a _ => [.uni d 1 false true, .lane a 1 1 true false]
  | .faddU _ d a b => [.uni d 1 false true, .uni a 1 true false, .uni b 1 true false]
  | .fsubU _ d a b => [.uni d 1 false true, .uni a 1 true false, .uni b 1 true false]
  | .fmulU _ d a b => [.uni d 1 false true, .uni a 1 true false, .uni b 1 true false]
  | .ffmaU _ d a b => [.uni d 1 true true, .uni a 1 true false, .uni b 1 true false]
  | .fminU _ d a b => [.uni d 1 false true, .uni a 1 true false, .uni b 1 true false]
  | .fmaxU _ d a b => [.uni d 1 false true, .uni a 1 true false, .uni b 1 true false]
  | .fcpysU _ d a b => [.uni d 1 false true, .uni a 1 true false, .uni b 1 true false]
  | .fcvtU _ d a _ _ => [.uni d 1 false true, .uni a 1 true false]
  | .frndU _ d a _ => [.uni d 1 false true, .uni a 1 true false]
  | .fclassU _ d a => [.uni d 1 false true, .uni a 1 true false]
  | .daddU _ d a b => [.uni d 2 false true, .uni a 2 true false, .uni b 2 true false]
  | .dmulU _ d a b => [.uni d 2 false true, .uni a 2 true false, .uni b 2 true false]
  | .dfmaU _ d a b => [.uni d 2 true true, .uni a 2 true false, .uni b 2 true false]
  | .dminU _ d a b => [.uni d 2 false true, .uni a 2 true false, .uni b 2 true false]
  | .dmaxU _ d a b => [.uni d 2 false true, .uni a 2 true false, .uni b 2 true false]
  | .dcvtU _ d a c _ => [.uni d (dcvtD c) false true, .uni a (dcvtA c) true false]
  | .brq _ _ k n p => [.upred k n p false]
  | .call _ _ => [.uni 62 2 false true]
  | .jmps _ a => [.uni a 2 true false]
  | .sreadU _ d n => [.uni d 1 false true] ++ sreadIdx n
  | .swrite _ _ a => [.uni a 1 true false]
  | .waitblk _ a => [.uni a 1 true false]
  | .lease _ k p a => [.upred k 0 p true, .uni a 1 true false]
  | .bari _ _ a b => [.uni a 2 true false, .uni b 1 true false]
  | .bara _ d a => [.uni d 1 false true, .uni a 2 true false]
  | .barw _ a b => [.uni a 2 true false, .uni b 1 true false]
  | .baraw _ d a => [.uni d 1 false true, .uni a 2 true false]
  | .nbar _ _ _ b => [.uni b 1 true false]
  | .mwait _ d a b => [.uni d 1 false true, .uni a 2 true false, .uni b 1 true false]
  | .swaitp _ _ a b => [.uni a 2 true false, .uni b 1 true false]
  | .ssig _ _ a => [.uni a 2 true false]
  | .cpy _ _ _ _ a => [.uni a 9 true false]
  | .cpym _ _ _ _ a => [.uni a 10 true false]
  | .dec _ _ _ _ a => [.uni a 9 true false]
  | .chain _ _ a => [.uni a 2 true false]
  | .ewait _ _ a => [.uni a 1 true false]
  | .ecnt _ d _ _ => [.uni d 1 false true]
  | .mmas _ _ _ _ _ a => [.uni a 7 true false]
  | .bld _ _ a => [.uni a 8 true false]
  | .memit _ _ a => [.uni a 5 true false]
  | .tcommit _ d _ => [.uni d 1 false true]
  | .tver _ d _ _ => [.uni d 1 false true]
  | .tblld _ _ a _ => [.uni a 4 true false]
  | .tarm _ a => [.uni a 1 true false]
  | .tstat _ d a _ => [.uni d 1 false true, .uni a 1 true false]
  | .treset _ a b => [.uni a 1 true false, .uni b 1 true false]
  | .wcnt _ d a _ => [.uni d 2 false true, .uni a 1 true false]
  | .wwait _ _ a b => [.uni a 1 true false, .uni b 2 true false]
  | .ffence _ a => [.uni a 1 true false]
  | .ldU _ d a size _ _ _ _ => [uniMemOpnd d size false true, .uni a 2 true false]
  | .stU _ d a size _ _ _ _ => [uniMemOpnd d size true false, .uni a 2 true false]
  | .atomU _ d a b size _ _ subop _ => [uniMemOpnd d size (subop == 9) true, .uni a 2 true false, uniMemOpnd b size true false]
  | .redU _ a b size _ _ _ _ => [.uni a 2 true false, uniMemOpnd b size true false]
  | .limmU _ d _ => [.uni d 1 false true]
  | .iaddiU _ d a _ => [.uni d 1 false true, .uni a 1 true false]
  | .ldpollU _ d a size _ _ subop _ => [uniMemOpnd d size (subop.getLsbD 0) true, .uni a 2 true false]
  | .lea _ d a _ => [.uni d 2 false true, .uni a 2 true false]
  | .put _ a _ => [.uni a 6 true false]
  | .putf _ a _ => [.uni a 9 true false]
  | .faar _ d a _ => [.uni d 2 false true, .uni a 6 true false]
  | .casr _ d a _ => [.uni d 2 false true, .uni a 8 true false]
  | _ => []
/-- Whether the field of an operand holds a legal value of its class (R39). -/
def Opnd.legal : Opnd → Bool
  | .lane f unit _ _ _ => unit != 8 || f.toNat < 32 || 64 ≤ f.toNat
  | .quad f _ _ => 64 ≤ f.toNat || f.toNat % 2 == 0
  | .uni f len _ _ => f.toNat + len ≤ 64 && (len == 1 || f.toNat % 2 == 0)
  | .pred k n p wr => (k == 0 || p == 0) && !(wr && n == 1)
  | .upred k n p wr => (k == 0 || p == 0) && !(wr && n == 1)
  | .idx f _ => f.toNat < 4

/-- A condition code legal in FCMP and DCMP (R41). -/
def floatCond (c : BitVec 4) : Bool := c.toNat ≤ 5 || (0xA ≤ c.toNat && c.toNat ≤ 0xD)
/-- A rounding mode legal in a narrowing conversion (R47). -/
def rmNarrow (m : BitVec 3) : Bool := m != 7
/-- A rounding mode legal where SR is not (R47). -/
def rmNoSR (m : BitVec 3) : Bool := m != 7 && m != 5
/-- FCVT codes that are exact (R128). -/
def fcvtExact (c : BitVec 4) : Bool := c == 2 || c == 3 || c == 6 || c == 7 || c == 9
/-- DCVT codes in which SR is not legal: the exact ones and RINT (R131). -/
def dcvtNoSR (c : BitVec 4) : Bool := c == 1 || c == 4 || c == 5 || c == 10
/-- The SIZE, SIGN, SCOPE and SUBOP of a memory instruction (R44, R45, R147): the largest and least legal SIZE, whether SIGN may be
set for 8 and 16 bits, the largest legal SUBOP. -/
def memLegal (lo hi : Nat) (signed : Bool) (pkg : Bool) (sub : Nat) (size : BitVec 3) (sign : BitVec 1) (scope : BitVec 3)
    (subop : BitVec 5) : Bool :=
  lo ≤ size.toNat && size.toNat ≤ hi && (sign == 0 || (signed && size.toNat ≤ 1)) &&
    (if pkg then scope.toNat ≤ 5 else scope != 6) && subop.toNat ≤ sub

/-- The code fields of an instruction that the spec lists legal values for (R34 check 1). -/
def codesLegal : Instr → Bool
  | .icmp _ c _ _ _ | .icmpU _ c _ _ _ => c.toNat ≤ 9
  | .fcmp _ c _ _ _ | .fcmpU _ c _ _ _ | .dcmp _ c _ _ _ | .dcmpU _ c _ _ _ => floatCond c
  | .fcvt _ _ _ c m | .fcvtU _ _ _ c m => if fcvtExact c then rmNoSR m else rmNarrow m
  | .dcvt _ _ _ c m | .dcvtU _ _ _ c m => c.toNat ≤ 10 && (if dcvtNoSR c then rmNoSR m else rmNarrow m)
  | .frnd _ _ _ m | .frndU _ _ _ m => rmNoSR m
  | .zop _ _ _ o => o.toNat ≤ 4
  | .vote _ d _ _ _ m => m.toNat ≤ 3 && (2 ≤ m.toNat || (d.toNat < 32 && !d.getLsbD 3))
  | .tred _ _ _ o => o.toNat ≤ 10
  | .xsend _ g _ c => g.toNat ≤ 15 && c.toNat ≤ 15
  | .xrecv _ _ g c => g.toNat ≤ 15 && c.toNat ≤ 15
  | .sread _ _ n => n.toNat ≤ 0x21
  | .sreadU _ _ n => 3 ≤ n.toNat && n.toNat ≤ 0x21
  | .swrite _ n _ => n == 0x0D || n == 0x13 || n == 0x1A || n == 0x1B
  | .waitr _ q => q != 0
  | .rdlane _ _ _ t => t.toNat ≤ 95
  | .ld _ _ _ z g sc u _ => memLegal 0 4 true false 0 z g sc u
  | .st _ _ _ z g sc u _ => memLegal 0 4 false false 0 z g sc u
  | .ldw _ _ _ z g sc u _ | .stw _ _ _ z g sc u _ => memLegal 5 5 false false 0 z g sc u
  | .ldfe _ _ _ z g sc u _ => memLegal 0 4 true true 1 z g sc u
  | .stfe _ _ _ z g sc u _ => memLegal 0 4 false true 1 z g sc u
  | .atom _ _ _ _ z g sc u _ => memLegal 2 3 false false 9 z g sc u
  | .atomU _ _ _ _ z g sc u _ => memLegal 0 3 false false 9 z g sc u
  | .red _ _ _ z g sc u _ => memLegal 2 3 false false 7 z g sc u
  | .redU _ _ _ z g sc u _ => memLegal 0 3 false false 7 z g sc u
  | .atomf _ _ _ _ z g sc u _ => memLegal 2 3 false false 2 z g sc u
  | .atomx _ _ _ z g sc u _ => memLegal 4 4 false false 0 z g sc u
  | .ldpoll _ _ _ z g sc u _ | .ldpollU _ _ _ z g sc u _ => memLegal 0 3 true false 1 z g sc u
  | .ldU _ _ _ z g sc u _ => memLegal 0 3 true false 0 z g sc u
  | .stU _ _ _ z g sc u _ => memLegal 0 3 false false 0 z g sc u
  | .cvtfx _ _ _ _ rm fxw frac => rmNarrow rm && fxw.toNat ≤ 1 && (fxw == 1 || frac.toNat < 64)
  | .trace _ _ _ _ _ flags _ => flags.toNat < 32
  | .spawn _ _ _ _ _ sel | .hitc _ _ _ sel => sel.toNat ≤ 3
  | .hita _ _ sel => sel.toNat ≤ 5
  | .mmaq _ _ _ b _ _ _ _ => b.toNat ≤ 1
  | .mrd _ _ b _ _ _ | .mwr _ _ b _ _ _ => b.toNat ≤ 1
  | .tdraw _ _ _ b _ _ _ vchk => vchk == 1 || b == 0
  | .bari _ k _ b => k.toNat ≤ 2 && (k != 0 || b == 0)
  | .nbar _ v n _ => v.toNat ≤ 1 && n.toNat ≤ 15
  | .hbar _ c => 2 ≤ c.toNat && c.toNat ≤ 6
  | .fence _ k c => 1 ≤ k.toNat && k.toNat ≤ 4 && c.toNat ≤ 7
  | .swaitp _ g _ _ => g.toNat ≤ 31
  | .ssig _ g _ => g.toNat ≤ 31
  | .ewait _ c _ => c.toNat ≤ 15
  | .ecnt _ _ c o => c.toNat ≤ 15 && o.toNat ≤ 1
  | .memit _ k _ => k.toNat ≤ 1
  | .bld _ n _ => n.toNat ≤ 15
  | .tcommit _ _ t => t.toNat ≤ 63
  | .tver _ _ t e => t.toNat ≤ 63 && e.toNat ≤ 5
  | .tblld _ k _ c => k.toNat ≤ 4 && c.toNat ≤ 15
  | .tstat _ _ _ e => e.toNat ≤ 3
  | .wcnt _ _ _ e => e.toNat ≤ 2
  | .wwait _ e _ _ => e.toNat ≤ 1
  | .unassignedOpcode _ => false
  | _ => true

/-- Every field of the instruction holds a legal value (R34 check 1). -/
def fieldsLegal (i : Instr) : Bool := codesLegal i && (operands i).all Opnd.legal

/-- The set and opcode of an instruction of the two sets (R36); none for an event. -/
def opcode (i : Instr) : Option (Bool × Nat) := i.fields.map fun f => (f.set = 1, f.op.toNat)

/-- The hardware units of R25. -/
inductive HwUnit where
  | vector | special | loadStore | engine | control | scalar
  deriving DecidableEq, Repr

/-- The unit an opcode needs (R25). -/
def unitOfOpcode : Bool × Nat → HwUnit
  | (true, _) => .scalar
  | (false, op) =>
    if op < 0x30 then .vector else if op < 0x3C then .special else if op < 0x54 then .vector
    else if op < 0x60 then .control else if op = 0x69 ∨ op = 0x6D ∨ op = 0x6E ∨ op = 0x6F then .vector
    else if op < 0x70 then .loadStore else .engine

/-- The core clocks an opcode holds its unit (R25). -/
def holdOfOpcode : Bool × Nat → Nat
  | (true, _) => 1
  | (false, op) =>
    if op = 0x1E ∨ (0x2A ≤ op ∧ op ≤ 0x2F) then 12 else if 0x54 ≤ op ∧ op < 0x60 then 1 else 3

/-- How an instruction's register result arrives (R29, R32, R466): after a fixed number of core clocks, after a time that is not
fixed, or not at all. -/
inductive Latency where
  | fixed (n : Nat) | variable | none
  deriving DecidableEq, Repr

/-- The latency class of an opcode (R29, R113, R132, R187, R216). -/
def latencyOfOpcode : Bool × Nat → Latency
  | (false, op) =>
    if op = 0x1E then .fixed 15 else if op < 0x20 then .fixed 3 else if op < 0x2A then .fixed 6 else if op < 0x30 then .fixed 15
    else if op < 0x3C then .variable else if op = 0x4B ∨ op = 0x4C then .variable else if op < 0x50 then .fixed 6
    else if op < 0x54 then .fixed 9 else if op = 0x56 ∨ op = 0x5B ∨ op = 0x5C then .fixed 3 else if op = 0x5A then .variable
    else if op < 0x60 then .none else if op = 0x69 ∨ op = 0x6F then .fixed 6 else if op = 0x6D ∨ op = 0x6E ∨ op = 0x71 then .fixed 3
    else if op = 0x61 ∨ op = 0x63 ∨ op = 0x65 ∨ op = 0x67 ∨ op = 0x6A ∨ op = 0x6C ∨ op = 0x79 ∨ op = 0x7A ∨ op = 0x7B ∨ op = 0x7D
    then .none else .variable
  | (true, op) =>
    if op = 0x1A ∨ op = 0x1E then .fixed 4 else if op < 0x20 then .fixed 2 else if op < 0x30 then .fixed 4
    else if op = 0x32 ∨ op = 0x39 ∨ op = 0x3E ∨ op = 0x64 ∨ op = 0x65 ∨ op = 0x67 then .fixed 2
    else if op = 0x41 ∨ op = 0x43 ∨ op = 0x47 ∨ op = 0x4F ∨ op = 0x53 ∨ op = 0x54 ∨ op = 0x57 ∨ op = 0x59 ∨ op = 0x60 ∨ op = 0x62
      ∨ op = 0x66 ∨ op = 0x6A ∨ op = 0x6B then .variable
    else .none

/-- The latency of an instruction; an event has none. -/
def latencyOf (i : Instr) : Latency := match opcode i with | some o => latencyOfOpcode o | none => .none
/-- The clocks by which a fixed-latency result is readable, 0 where there is none. -/
def fixedLatency (i : Instr) : Nat := match latencyOf i with | .fixed n => n | _ => 0
/-- The unit of an instruction. -/
def unitOf (i : Instr) : HwUnit := match opcode i with | some o => unitOfOpcode o | none => .control
/-- The clocks an instruction holds its unit. -/
def holdOf (i : Instr) : Nat := match opcode i with | some o => holdOfOpcode o | none => 1

/-- Whether a group with the 2-bit role code may issue an opcode (R207, R257). -/
def roleAllows (role : Nat) : Bool × Nat → Bool
  | (false, op) =>
    if role = 0 then true
    else if (0x54 ≤ op ∧ op ≤ 0x58) ∨ op = 0x5E ∨ op = 0x5F ∨ op = 0x5D ∨ op = 0x5C then true
    else if op = 0x78 ∨ op = 0x79 ∨ op = 0x7A ∨ op = 0x7B then role == 2 else role == 3
  | (true, op) =>
    if role = 0 then true
    else if op = 0x4A ∨ op = 0x4B ∨ op = 0x4C then role == 1
    else if op = 0x50 ∨ op = 0x51 ∨ op = 0x52 ∨ op = 0x3E ∨ op = 0x3F then role == 2
    else if op = 0x4D then role == 3 else true

/-- STALL of an instruction (R28). -/
def stallOf (i : Instr) : Nat := match i.fields with | some f => f.st.toNat | none => 0
/-- The clocks for which a path issues nothing after an instruction: max(1, 3n) (R28). -/
def stallClocks (i : Instr) : Nat := max 1 (3 * stallOf i)

end Sys2Proof.Machine
end

