-- ==== Sys2Proof/Machine/MatrixArith.lean ====
section
/-! DEFINITION. The arithmetic of the matrix engine: format blocks and modes (R182, R183), NB8 (R78), aligned operands (R91, R92),
contributions (R92), accumulator rows (R93), layout records (R186). -/
namespace Sys2Proof.Machine
open Sys2Proof

/-! ### Format blocks (R182, R183) -/

/-- One half of a format block (R182). -/
structure Half where
  fmt : Nat
  sgn : Bool
  ctr : Bool
  pln : Nat
  w : Nat
  blen : Nat
  sfmt : Nat
  spn : Nat
  rsv : Nat
  soff : Int
  deriving DecidableEq, Repr

/-- A half read from 64 bits. -/
def Half.of (x : Nat) : Half :=
  { fmt := x / 2 ^ 60 % 16, sgn := x.testBit 59, ctr := x.testBit 58, pln := x / 2 ^ 54 % 16, w := x / 2 ^ 47 % 128
    blen := 16 * 2 ^ (x / 2 ^ 45 % 4), sfmt := x / 2 ^ 43 % 4, spn := x / 2 ^ 40 % 8, rsv := x / 2 ^ 32 % 256, soff := signedOf 32 (x % 2 ^ 32) }
/-- The A half is the low one, the B half the high one. -/
def halfA (f : BitVec 128) : Half := Half.of (f.toNat % 2 ^ 64)
def halfB (f : BitVec 128) : Half := Half.of (f.toNat / 2 ^ 64)

def Half.nb8 (h : Half) : Bool := h.fmt == 13
/-- The element format: an NB8 element stands as its INT8 value. -/
def Half.elem (h : Half) : Fmt := if h.fmt = 13 then .int 8 true else (Fmt.ofCode h.fmt h.sgn).getD .fp32
def Half.isFloat (h : Half) : Bool := decide (h.fmt ≤ 6)
/-- Significand width with the hidden bit, and plane count, of a float format (R91, R182). -/
def planeCount (fmt : Nat) : Nat × Nat :=
  match fmt with | 0 => (24, 32) | 1 => (53, 64) | 2 => (11, 16) | 3 => (8, 16) | 4 => (3, 8) | 5 => (4, 8) | _ => (2, 4)

/-- No reserved value and every "must" met (R182). -/
def Half.legal (h : Half) (isB : Bool) : Bool :=
  let p := planeCount h.fmt
  h.fmt != 7 && h.fmt < 14 && h.rsv == 0 && h.sfmt ≤ 1 && (if isB then h.spn ≤ 3 else h.spn == 0)
    && (if h.isFloat then !h.sgn && !h.ctr && h.pln == 0 && p.1 + 1 ≤ h.w && h.w ≤ p.2
        else h.w == 0 && (if h.nb8 then h.sgn && 2 ≤ h.pln && h.pln ≤ 8 else !h.ctr && h.pln == 0))
/-- N of a sparse B half, 0 when dense (R184). -/
def Half.sparse (h : Half) : Nat := match h.spn with | 1 => 16 | 2 => 32 | 3 => 64 | _ => 0

/-- The mode two halves select (R183, R185), coded as in R198; 0 for none. -/
def modeOf (a b : Half) : Nat :=
  let fp8 (h : Half) : Bool := h.fmt == 4 || h.fmt == 5
  let half (h : Half) : Bool := h.fmt == 2 || h.fmt == 3
  let m :=
    if (a.fmt = 10 ∨ a.fmt = 13) ∧ b.fmt = 10 then 1 else if a.fmt = 11 ∧ b.fmt = 11 then 2 else if a.fmt = 12 ∧ b.fmt = 12 then 3
    else if fp8 a && fp8 b then 4 else if a.fmt = 6 ∧ b.fmt = 6 then 5 else if half a && half b then 6
    else if a.fmt = 0 ∧ b.fmt = 0 then 7 else if a.fmt = 1 ∧ b.fmt = 1 then 8 else 0
  if 1 ≤ m ∧ m ≤ 3 ∧ (a.sfmt = 1 ∨ b.sfmt = 1) then m + 8 else m

/-- The unscaled mode of a scaled variant. -/
def baseMode (m : Nat) : Nat := if 9 ≤ m then m - 8 else m
/-- c, v, output columns and words of a mode (R183). -/
def modeC (m : Nat) : Nat := match baseMode m with | 6 => 2 | 7 => 4 | 8 => 8 | _ => 1
def modeV (m : Nat) : Nat := match baseMode m with | 2 => 2 | 3 => 4 | 5 => 2 | _ => 1
def modeCols (m : Nat) : Nat := 512 / modeC m
def modeWords (m : Nat) : Nat := match m with | 7 => 2 | 8 => 4 | _ => 1
/-- Step of a mode with an A half (R183). -/
def modeStep (m : Nat) (a : Half) : Nat :=
  match baseMode m with | 1 => if a.nb8 then a.pln else 8 | 2 => 4 | 3 => 2 | 8 => 2 * a.w | _ => a.w
/-- Integer modes without scales (R93). -/
def modeInt (m : Nat) : Bool := decide (1 ≤ m ∧ m ≤ 3)
/-- Units of a slot (R180). -/
def slotUnits (m ks n : Nat) : Nat := ((ks + 16 * modeV m - 1) / (16 * modeV m)) * ((n * modeC m + 63) / 64)

/-! ### Layout records (R186) -/

/-- The byte address and bit of every element, in generation order; none where a rule of R186 is broken for `count` elements. -/
def genElems (base : Int) (rec : BitVec 256) (bits count : Nat) : Option (List (Int × Nat)) :=
  let ext (i : Nat) : Nat := (rec.extractLsb' (64 * i) 32).toNat
  let str (i : Nat) : Int := signedOf 32 (rec.extractLsb' (64 * i + 32) 32).toNat
  let total := ext 0 * ext 1 * ext 2 * ext 3
  if ext 0 = 0 ∨ ext 1 = 0 ∨ ext 2 = 0 ∨ ext 3 = 0 ∨ total ≠ count ∨ (bits < 8 ∧ (str 0 ≠ 0 ∨ ext 0 * bits % 8 ≠ 0)) then none
  else some ((List.range total).map fun n =>
    let i0 := n % ext 0; let i1 := n / ext 0 % ext 1; let i2 := n / (ext 0 * ext 1) % ext 2; let i3 := n / (ext 0 * ext 1 * ext 2)
    let a := base + i1 * str 1 + i2 * str 2 + i3 * str 3
    if str 0 = 0 then (a + i0 * bits / 8, i0 * bits % 8) else (a + i0 * str 0, 0))

/-- Where an NB8 element in memory stands (R78, R186): the address of its unit of 64 elements and its index there. Packed elements of loop 0
lie in the units that begin at the loop's first element; with a stride every element begins a unit of its own (log entry 34). -/
def genUnits (base : Int) (rec : BitVec 256) (count : Nat) : Option (List (Int × Nat)) :=
  let packed := rec.extractLsb' 32 32 == 0
  let ext0 := (rec.extractLsb' 0 32).toNat
  (genElems base rec 8 count).map fun es => es.zipIdx.map fun e =>
    let i0 := e.2 % ext0
    if packed then (e.1.1 - i0 + 64 * (i0 / 64), i0 % 64) else (e.1.1, 0)

/-- Element i of a unit of which the first k planes were read (R78): the planes not read stand as 0. -/
def unitByte (k x i : Nat) : Nat := (List.range k).foldl (fun n q => n + x / 2 ^ (64 * q + i) % 2 * 2 ^ (7 - q)) 0

/-- An NB8 byte read at k planes (R78). -/
def nb8Value (h : Half) (x : Nat) : Int :=
  let k := h.pln
  let v := signedOf 8 (x % 256)
  if 8 ≤ k then v else v / 2 ^ (8 - k) * 2 ^ (8 - k) + (if h.ctr then 2 ^ (7 - k) else 0)

/-! ### Aligned operands (R91, R92) -/

/-- A row of A or a column of B, aligned: the elements as read, the aligned integers, the unit exponent and the E8M0 scale of each
block along K. -/
structure MCol where
  raw : List Nat
  vals : List Int
  units : List Int
  scales : List Nat
  deriving DecidableEq, Repr

/-- The integer an element of an integer format stands for. -/
def Half.intVal (h : Half) (x : Nat) : Int :=
  if h.nb8 then nb8Value h x
  else match h.elem with | .int w true => signedOf w x | _ => x

/-- Alignment of the elements at the dense positions `pos`, in blocks of BLEN (R91). -/
def alignCol (h : Half) (k : Nat) (raw : List Nat) (pos : List Nat) (scales : List Nat) : MCol :=
  let nb := (k + h.blen - 1) / h.blen
  if h.isFloat then
    let xs := raw.zip pos
    let bs := (List.range nb).map fun g => alignBlock h.elem h.w ((xs.filter fun x => x.2 / h.blen == g).map (·.1))
    { raw := raw, vals := bs.flatMap (·.1), units := bs.map fun b => b.2.1 - h.w + 1, scales := scales }
  else { raw := raw, vals := raw.map h.intVal, units := List.replicate nb 0, scales := scales }

/-- The flags of aligning the elements at the stored indices used (R87, R91): NX where one is inexact, IV for a signalling NaN. -/
def alignFlags (h : Half) (c : MCol) (pos used : List Nat) : Flags :=
  if !h.isFloat then 0
  else used.foldl (fun f i =>
    let v := h.elem.value (c.raw.getD i 0)
    let u := c.units.getD (pos.getD i 0 / h.blen) 0
    f ||| (match v with
      | .num q => if ((c.vals.getD i 0 : Int) : Rat) * pow2 u = q then 0 else fNX
      | .nan true => fIV
      | _ => 0)) 0

/-- Special bits of an accumulator element: 1 +∞, 2 −∞, 4 NaN, 8 a NaN that raises invalid. -/
def specBits (v : FVal) (invalid : Bool) : Nat :=
  match v with | .nan _ => if invalid then 12 else 4 | .inf n => if n then 2 else 1 | _ => 0

def scaleOf (c : MCol) (g : Nat) : Nat := c.scales.getD g 127

/-- The contributions of a row and a column (R92): one for each 16-row segment, split where the blocks of either operand change, and the
special bits. `pos` gives the dense position of each stored row. Rows at position `len` and beyond, which the instruction's length leaves out,
have their value and raise no flag (R87). -/
def contribs (ha hb : Half) (a b : MCol) (pos : List Nat) (len : Nat) : List (Int × Int) × Nat :=
  let step (acc : List ((Nat × Nat × Nat) × Int × Int) × Nat) (i : Nat) : List ((Nat × Nat × Nat) × Int × Int) × Nat :=
    let p := pos.getD i 0
    let ga := p / ha.blen; let gb := p / hb.blen
    let va := if ha.isFloat then ha.elem.value (a.raw.getD p 0) else .zero false
    let vb := if hb.isFloat then hb.elem.value (b.raw.getD i 0) else .zero false
    let special : Bool := match va, vb with | .nan _, _ | .inf _, _ | _, .nan _ | _, .inf _ => true | _, _ => false
    let silent (n : Nat) : Nat := if p < len then n else n % 8
    if scaleOf a ga = 255 ∨ scaleOf b gb = 255 then (acc.1, acc.2 ||| silent 12)
    else if special then
      let m := va.mul vb
      (acc.1, acc.2 ||| silent (specBits m.1 m.2))
    else
      let c := a.vals.getD p 0 * b.vals.getD i 0
      let y := a.units.getD ga 0 + b.units.getD gb 0 + (scaleOf a ga : Int) - 127 + (scaleOf b gb : Int) - 127
      match acc.1 with
      | (key, s, z) :: rest => if key = (i / 16, ga, gb) then ((key, s + c, z) :: rest, acc.2) else (((i / 16, ga, gb), c, y) :: acc.1, acc.2)
      | [] => ([((i / 16, ga, gb), c, y)], acc.2)
  let r := (List.range pos.length).foldl step ([], 0)
  (r.1.reverse.map fun x => (x.2.1, x.2.2), r.2)

/-! ### Accumulator rows (R93) -/

/-- A row while a pass works on it: its window, and each output column's integer, lost bit and special bits. -/
structure RowAcc where
  x : Option Int
  c : List Int
  lost : List Bool
  spec : List Nat
  deriving DecidableEq, Repr

def RowAcc.clear (n : Nat) : RowAcc := ⟨none, List.replicate n 0, List.replicate n false, List.replicate n 0⟩

/-- round_to(q, INTL, RNE) and whether it is inexact. -/
def rneInt (q : Rat) : Int × Bool :=
  let neg := decide (q < 0)
  let r := roundMag .rne neg (if neg then -q else q)
  (if neg then -r.1 else r.1, r.2)

/-- The least window in which every magnitude below or at m fits under the headroom (R93): m < 2^(X + L − 17). -/
def leastWindow (l : Nat) (m : Rat) : Int := floorLog2 m + 1 - ((l : Int) - 17)

/-- add_row (R93): the contributions of every column, added in one step, with special bits; and whether a window rounding took place. -/
def addRow (l : Nat) (r : RowAcc) (cs : List (List Rat × Nat)) : RowAcc × Bool :=
  let old (j : Nat) : Rat := match r.x with | some x => ((r.c.getD j 0 : Int) : Rat) * pow2 x | none => 0
  let idx := List.range r.c.length
  let add (j : Nat) : List Rat × Nat := cs.getD j ([], 0)
  let s := idx.map fun j => (add j).1.foldl (· + ·) (old j)
  let m := s.foldl (fun m q => max m |q|) 0
  let spec := idx.map fun j => r.spec.getD j 0 ||| (add j).2
  if m = 0 && r.x.isNone then ({ r with spec := spec }, false)
  else
    let need := if m = 0 then r.x.getD 0 else leastWindow l m
    let x' := match r.x with | some x => max x need | none => need
    let col (j : Nat) : Int × Bool :=
      let moved : Int × Bool := match r.x with
        | some x => if x < x' then rneInt (((r.c.getD j 0 : Int) : Rat) * pow2 (x - x')) else (r.c.getD j 0, false)
        | none => (0, false)
      (add j).1.foldl (fun acc q => let d := rneInt (q * pow2 (-x')); (acc.1 + d.1, acc.2 || d.2)) moved
    let cols := idx.map col
    ({ x := some x', c := cols.map (·.1), lost := idx.map fun j => r.lost.getD j false || (cols.getD j (0, false)).2, spec := spec },
     cols.any (·.2))

/-- The value an element delivers (R92, R196), and whether its special bits raise invalid. -/
def RowAcc.value (r : RowAcc) (j : Nat) : FVal × Bool :=
  let b := r.spec.getD j 0
  if b.testBit 2 then (.nan false, b.testBit 3)
  else if b.testBit 0 && b.testBit 1 then (.nan false, true)
  else if b.testBit 0 then (.inf false, false)
  else if b.testBit 1 then (.inf true, false)
  else (FVal.ofRat (((r.c.getD j 0 : Int) : Rat) * pow2 (r.x.getD 0)), false)

/-- Contributions as exact values. -/
def contribRats (cs : List (Int × Int)) : List Rat := cs.map fun c => ((c.1 : Int) : Rat) * pow2 c.2
/-- The exact sum of an integer mode (R93). -/
def contribSum (cs : List (Int × Int)) : Int := cs.foldl (fun s c => s + c.1) 0

end Sys2Proof.Machine
end

