-- ==== Sys2Proof/Machine/Sparse.lean ====
section
/-! DEFINITION. Tables with natural keys, held as lists in one canonical form: keys strictly rising, and no entry equal to what
an unlisted key reads as. Registers, memory bytes and the machine's own tables are held so. -/
namespace Sys2Proof.Machine

/-- A table: what a key not listed reads as is given at each use. -/
abbrev SMap (α : Type) := List (Nat × α)

/-- The entry listed for a key. -/
def SMap.find? {α : Type} : SMap α → Nat → Option α
  | [], _ => none
  | (a, x) :: m, k => if a = k then some x else SMap.find? m k

/-- The value of a key; `d` for one not listed. -/
def SMap.get {α : Type} (d : α) (m : SMap α) (k : Nat) : α := (SMap.find? m k).getD d

/-- The table without a key. -/
def SMap.del {α : Type} : SMap α → Nat → SMap α
  | [], _ => []
  | (a, x) :: m, k => if a = k then m else if k < a then (a, x) :: m else (a, x) :: SMap.del m k

/-- The table with a key listed at a value, in key order. -/
def SMap.put {α : Type} : SMap α → Nat → α → SMap α
  | [], k, v => [(k, v)]
  | (a, x) :: m, k, v =>
    if a = k then (k, v) :: m else if k < a then (k, v) :: (a, x) :: m else (a, x) :: SMap.put m k v

/-- The table with a key at a value; the value `d` of unlisted keys is not listed. -/
def SMap.set {α : Type} [DecidableEq α] (d : α) (m : SMap α) (k : Nat) (v : α) : SMap α :=
  if v = d then SMap.del m k else SMap.put m k v

/-- The keys rise strictly. -/
def SMap.sorted {α : Type} (m : SMap α) : Bool := match m with
  | [] => true
  | (a, _) :: r => r.all (fun e => a < e.1) && SMap.sorted r

/-- The canonical form: keys strictly rising and no entry at the value of unlisted keys. -/
def SMap.wf {α : Type} [DecidableEq α] (d : α) (m : SMap α) : Bool := SMap.sorted m && m.all (fun e => e.2 != d)

/-- A change of one key's value. -/
def SMap.upd {α : Type} [DecidableEq α] (d : α) (m : SMap α) (k : Nat) (f : α → α) : SMap α := SMap.set d m k (f (SMap.get d m k))

/-- Several writes, the later ones over the earlier. -/
def SMap.setAll {α : Type} [DecidableEq α] (d : α) (m : SMap α) (ws : List (Nat × α)) : SMap α :=
  ws.foldl (fun m w => SMap.set d m w.1 w.2) m

end Sys2Proof.Machine
end

