-- ==== Sys2Proof/Machine/Parts.lean ====
section
/-! DEFINITION. Parts of the machine's state, as plain data: rays in traversal, film records, tree requests, commands of the copy, chain
and table engines, fabric windows and operations, held TCBs, and the registers of the device. -/
namespace Sys2Proof.Machine
open Sys2Proof

/-! ### Traversal (R213, R312 to R317) -/

/-- The space a ray is traced in: origin and direction as FP32 bits, and in an instance its index, user word and FOPQ. -/
structure Space where
  o : List Nat
  d : List Nat
  bottom : Bool
  inst : Nat
  user : Nat
  fopq : Bool
  deriving DecidableEq, Repr

/-- A candidate or accepted hit: its kind (1 triangle, 2 procedural), distance, barycentrics, face, indices, and its space. -/
structure Hit where
  kind : Nat
  t : FVal
  u : FVal
  v : FVal
  front : Bool
  prim : Nat
  geom : Nat
  space : Space
  deriving DecidableEq, Repr

/-- Work still to do: an internal node (kind 1) or a leaf record (R312's kind), its address, its space, its entry distance and the
internal nodes open above it. -/
structure Visit where
  kind : Nat
  addr : Nat
  space : Space
  entry : FVal
  depth : Nat
  deriving DecidableEq, Repr

/-- The traversal of a thread: the structure, MASK and flags, the ray's tmin, tmax and time (FP32 bits), what is still to visit, the
closest accepted hit, the candidate it waits at, and the report it has still to make: the operation, the first result register, for a
POP the ray span by register. `due` is set while a report is due; `fault` is its FCAUSE, `empty` a POP that found no child. Status bits 7:5 and the weight
popped with the ray; HITA requests waiting (operation, SEL, first register, what its issue has settled: SEL 3 to 5); the last report's KIND. -/
structure Trav where
  root : Nat
  mask : Nat
  flags : Nat
  tmin : Nat
  tmax : Nat
  time : Nat
  todo : List Visit
  best : Option Hit
  cand : Option Hit
  due : Bool
  op : Nat
  dest : Nat
  pop : List (Nat × Word × Bool)
  fault : Nat
  empty : Bool
  popBits : Nat
  weight : List (Word × Bool)
  hita : List (Nat × Nat × Nat × List (Word × Bool))
  last : Nat
  deriving DecidableEq, Repr

/-! ### Film (R220, R221, R324) -/

/-- A film record: its context, film, task and key, pixel, channel values, weight, and where it is: 0 the block's outbox, 1 the die's
film buffer, 2 the overflow area. -/
structure FilmRec where
  ctx : Nat
  film : Nat
  task : Nat
  bk : Nat
  bid : Nat
  gix : Nat
  thread : Nat
  seq : Nat
  pix : Nat
  vals : List Nat
  weight : Nat
  die : Nat
  place : Nat
  deriving DecidableEq, Repr

/-! ### Importance trees (R222 to R227, R402 to R407) -/

/-- A request to a tree engine: 0 TDRAW, 1 TUPD, 2 TINS, 3 TCOMMIT, 4 TVER; who made it; its key (BID, GIX, TIX, seq packed); its
operands; its first destination register. -/
structure TreeReq where
  id : Nat
  kind : Nat
  gk : Nat
  mask : BitVec 96
  core : Nat
  ctx : Nat
  task : Nat
  tree : Nat
  thread : Nat
  key : Nat
  args : List Nat
  dest : Nat
  deriving DecidableEq, Repr

/-- A tree at its engine (R405): STATE (0 UNBUILT, 1 READY, 2 FAILED), the configuration TBUILD read, V, DISC, the staged requests,
and those that wait at the input for room. -/
structure Tree where
  st : Nat
  cfg : BitVec 512
  v : Nat
  disc : Nat
  staged : List TreeReq
  waiting : List TreeReq
  deriving DecidableEq, Repr

/-! ### Commands of the copy, chain and table engines (R208 to R210, R228 to R234) -/

/-- An accepted command: its kind as in INFO of R209 (4 CPY, 5 CPYM, 6 DEC, 7 CHAIN, 8 TBLLD), who issued it, the counter, the operands
captured at issue, and how it stands: the arrivals still to come (member and piece; a CHAIN's rows), flags, cause of failure. -/
structure EngCmd where
  id : Nat
  kind : Nat
  gk : Nat
  bk : Nat
  /-- the threads of the path that issued it -/
  mask : BitVec 96
  core : Nat
  counter : Nat
  args : List Nat
  left : List (Nat × Nat)
  /-- of a CPYM the pieces read: number, elements as converted with their poison (R230) -/
  pieces : List (Nat × List (Nat × Bool))
  flags : BitVec 6
  cause : Nat
  deriving DecidableEq, Repr

/-! ### Fabric (R238 to R241, R413 to R415) -/

/-- A registered window (R240, R413). -/
structure Window where
  ctx : Nat
  base : Nat
  len : Nat
  putok : Bool
  atomok : Bool
  issued : Nat
  acked : Nat
  deliv : Nat
  deriving DecidableEq, Repr

/-- A part of an access (R51): its virtual address, its home, its length, its page kind (1 in the aperture) and whether it is host
memory or aperture. -/
structure Part where
  va : Nat
  home : Nat
  len : Nat
  ord : Nat
  host : Bool
  aper : Bool
  deriving DecidableEq, Repr

/-- A fabric operation of a group: 0 PUT, 1 PUTF, 2 FAAR, 3 CASR; its window, package and operands; its stage (0 issued, 1 accepted by
its target or on its way to another package, 2 to be acknowledged); the flits still to be delivered; the cause of its failure. -/
structure FabOp where
  id : Nat
  kind : Nat
  gk : Nat
  mask : BitVec 96
  /-- the clock of its issue (R414) -/
  since : Nat
  ctx : Nat
  core : Nat
  bk : Nat
  win : Nat
  pkg : Nat
  src : Nat
  off : Nat
  len : Nat
  a : Nat
  b : Nat
  dest : Nat
  stage : Nat
  left : List Nat
  cause : Nat
  /-- of a put that has been found good: its source, its target and its flag's place if they are on this package -/
  srcs : List Part := []
  dsts : List Part := []
  flag : List Part := []
  deriving DecidableEq, Repr

/-- A put of another package that has begun to arrive (R414): its number, its window, whether it is refused, the bytes still to come, whether a flag
follows, and the places of its bytes and of its flag. -/
structure PutIn where
  id : Nat
  win : Nat
  refused : Bool
  left : Nat
  flagged : Bool
  dst : List Part
  flag : List Part
  deriving DecidableEq, Repr

/-! ### The device (R410, R418, R432 to R462) -/

/-- An entry of the stop table (R445): its number in the path's wait, the group, and the entry's image. -/
structure Stop where
  id : Nat
  gk : Nat
  image : BitVec 256
  deriving DecidableEq, Repr

/-- The persistent area of the flash (R458): FSC, LASTRSN, the repair list and the bad-row list. -/
structure Persist where
  fsc : Nat
  lastrsn : Nat
  repair : List Nat
  bad : List (BitVec 32)
  deriving DecidableEq, Repr

/-- A sector of the flash that holds a copy of the persistent area (R458): its sequence number, whether its digest verifies, the copy. -/
structure Sector where
  num : Nat
  whole : Bool
  area : Persist
  deriving DecidableEq, Repr

/-- What outlasts a package reset (R437, R439, R440, R458): the flash (the image, the two sectors of the persistent area), the fuses (LCS,
PRODMAX, minimum security version, digests of the debug authority's key and of the vendor's), retired core sites by die, the spare-site
map (logical core and the spare of its die that serves), rows' corrected-error counts. -/
structure Kept where
  image : List Byte
  sectors : Sector × Sector
  lcs : Nat
  prodmax : Nat
  fusesvn : Nat
  authority : Nat
  vendor : Nat
  retired : SMap Nat
  sites : SMap Nat
  rows : SMap Nat
  deriving DecidableEq, Repr

/-- The persistent area as manufactured. -/
def Persist.reset : Persist := ⟨0, 0, [], []⟩
/-- Whether the first sector is the copy in force: the valid one with the higher sequence number (R458). -/
def Kept.first (k : Kept) : Bool := k.sectors.1.whole && (!k.sectors.2.whole || decide (k.sectors.2.num < k.sectors.1.num))
/-- Whether a copy is valid. -/
def Kept.readable (k : Kept) : Bool := k.sectors.1.whole || k.sectors.2.whole
/-- The copy in force. -/
def Kept.area (k : Kept) : Persist := if k.first then k.sectors.1.area else if k.sectors.2.whole then k.sectors.2.area else Persist.reset
def Kept.fsc (k : Kept) : Nat := k.area.fsc
def Kept.lastrsn (k : Kept) : Nat := k.area.lastrsn
def Kept.repair (k : Kept) : List Nat := k.area.repair
def Kept.bad (k : Kept) : List (BitVec 32) := k.area.bad
/-- The persistent area written: into the sector that is not in force, with the next sequence number (R458). -/
def Kept.write (k : Kept) (f : Persist → Persist) : Kept :=
  if k.first then { k with sectors := (k.sectors.1, ⟨k.sectors.1.num + 1, true, f k.area⟩) }
  else { k with sectors := (⟨k.sectors.2.num + 1, true, f k.area⟩, k.sectors.2) }
/-- The last write cut off: the digest of the sector it went to does not verify. -/
def Kept.cut (k : Kept) : Kept :=
  if k.first then { k with sectors := ({ k.sectors.1 with whole := false }, k.sectors.2) }
  else { k with sectors := (k.sectors.1, { k.sectors.2 with whole := false }) }

/-- The registers and control state of the device. -/
structure Dev where
  /-- R410 -/
  pkgid : Nat
  podcnt : Nat
  faben : Bool
  syncpend : Nat
  synclost : Nat
  /-- the sync output: 0 low and free, 1 high, 2 low after a pulse; the clock of its next change (R418) -/
  sync : Nat
  syncUntil : Nat
  /-- ports that have trained (R414, R457) -/
  ports : BitVec 18
  /-- the command interface (R369): ARG0 to ARG3, RESULT, the command in progress (code, context, whether it has begun), and the
  debug command in progress (R443) -/
  arg0 : DWord
  arg1 : DWord
  arg2 : DWord
  arg3 : DWord
  result : Nat
  busy : Option (Nat × Nat × Bool)
  /-- ARG0 to ARG3 as they were at the CMD write, and ARG0, ARG1 and DATA as they were at the DBGCMD write -/
  cargs : List DWord
  dcargs : List DWord
  dbusy : Option Nat
  /-- boot (R456, R457): STAGE, READY, AXOLOTL, RSN, BOOTNONCE -/
  stage : Nat
  ready : Bool
  axolotl : Bool
  rsn : Nat
  nonce : BitVec 256
  kept : Kept
  /-- a write of the persistent area is under way (R458); the control processor's time spent in stages 2 to 6, in ns (R457) -/
  flashing : Bool
  bootTime : Nat
  /-- staging window words (R460), by word of 8 bytes, the image a RECOVER has checked, and the old one until its final flash write is done -/
  staging : SMap DWord
  recovering : List Byte
  wasImage : Option (List Byte)
  /-- the report of the last ATTEST, and the measurement of the image (R461) -/
  report : List Byte
  mimg : Nat
  /-- R462 -/
  tthrot : Nat
  pkgw : Nat
  diew : List Nat
  capped : List Bool
  arbiter : Nat
  /-- by core: the grant level in force there and the one its quad has been given (R35), which comes into force by the core's own CYCLE -/
  grants : SMap (Nat × Nat)
  /-- debug (R441 to R447): token words, OPEN, CTXOPEN, LASTREJ, TOKREJ, BKPTEN, ARG0, ARG1, DATA, RESULT -/
  token : SMap DWord
  opened : BitVec 7
  ctxopen : DWord
  lastrej : Nat
  tokrej : Nat
  bkpten : Bool
  darg0 : DWord
  darg1 : DWord
  data : DWord
  dresult : Nat
  /-- comparators (R444), the stop table (R445) and stops waiting for an entry -/
  comps : SMap (BitVec 128)
  stops : SMap Stop
  stopWait : List Stop
  /-- the trace registers (R449) and records on their way -/
  trbase : Nat
  trprod : Nat
  trcons : Nat
  trdrop : Nat
  trkinds : Nat
  trlog2 : Nat
  tren : Bool
  tracing : List (BitVec 512)
  /-- MSI-X (R412): by vector the clock of its last message plus 1 and whether a raise waits; messages sent -/
  msix : SMap (Nat × Bool)
  sent : SMap Nat
  /-- arrivals at pod barriers that are not over (R415): PGID, PGCNT, package, phase; by PGID the phase under way here; by 512 × PGID + package
  the arrivals received -/
  pod : List (Nat × Nat × Nat × Nat)
  podPhase : SMap Nat
  podSeen : SMap Nat
  /-- by PGID: the blocks of the task whose completion in this package sent its arrival of the phase under way -/
  podOwn : SMap (List Nat)
  /-- fabric traffic that waits at the link dies for a suspended context (R381): the kind (0 a flit, 1 a flag, 2 an atomic) and what it carries -/
  linkWait : List (Nat × List Nat)
  /-- puts of other packages of which flits or a flag are still to come (R414) -/
  putsIn : List PutIn
  /-- scrub position: the next line (R435) -/
  scrub : Nat
  /-- moves Leap has chosen and not yet made: block and target core (R382) -/
  leap : List (Nat × Nat)
  /-- the trigger inputs (R417): the level sampled, the clock since which it stands, the level last recognised, and the clock of the last
  recognised edge plus 1 -/
  trig : SMap (Nat × Nat × Nat × Nat)
  /-- what the last read or reply delivered to the host, its EP bit, and whether it was Unsupported Request (R352, R408, R411) -/
  reply : Nat × Bool × Bool
  deriving DecidableEq, Repr

/-! ### Tasks (R346 to R364) -/

/-- A TCB the task unit holds (R348): STATUS, DEPCNT (32 bits), OVERARM, RETIRED, whether a write-back has failed; the image and the
successors as read at READY; its place in the ready queues, blocks placed, the clock since which it is blocked, its turn among the
reserving; blocks retired, the retired prefix (R117); how it is ending (1 FAULTED, 2 CANCELLED), its first fault as a record's bits and
the number of later ones. -/
structure Task where
  status : Nat
  depcnt : Word
  overarm : Nat
  retired : Nat
  kept : Bool
  desc : BitVec 1024
  succ : List Nat
  queued : Nat
  placed : Nat
  since : Nat
  reserving : Option Nat
  done : List Nat
  pfx : Nat
  ending : Nat
  fault : Option (BitVec 512)
  later : Nat
  deriving DecidableEq, Repr

/-- A stop takes the lowest free entry, or waits for one (R445). -/
def Dev.place (d : Dev) (x : Stop) : Dev :=
  match (List.range 64).find? fun i => (SMap.find? d.stops i).isNone with
  | some i => { d with stops := SMap.put d.stops i x }
  | none => { d with stopWait := d.stopWait ++ [x] }

/-- Stops that hold no path any more go, and those that wait take the entries freed (R445). -/
def Dev.dropStops (d : Dev) (gone : Stop → Bool) : Dev :=
  (d.stopWait.filter fun x => !gone x).foldl Dev.place { d with stops := d.stops.filter fun e => !gone e.2, stopWait := [] }

end Sys2Proof.Machine
end

