-- ==== Sys2Proof/Machine/State.lean ====
section
/-! DEFINITION. The state of the machine: every piece of state the spec names, as plain data. INVENTORY.md, '## State', lists each
with its rule and its reset value. -/
namespace Sys2Proof.Machine
open Sys2Proof

/-- Why a run stops with a fault. -/
inductive Fault where
  /-- A trace record would be written to a physical address that is in no populated range of HBM (R373, R449). Raised by the step where
  the trace unit writes (Machine/Sched.lean). Safe: the run stops. -/
  | noSuchAddress
  deriving DecidableEq, Repr

/-- Why the model has no next state. -/
inductive Refusal where
  /-- The instruction has no meaning in this model yet. Raised by no arm of this model once every meaning is written. Safe. -/
  | notModelled (mnemonic : String)
  /-- An instruction of the test port other than IDCODE and BYPASS while TAP or CPDBG is open: the spec does not say what it does
  (R440). Raised by execTestPortInstruction alone. Safe: the run stops. -/
  | testPort
  deriving DecidableEq, Repr

/-- The value of a v or s register with its poison bit (R90). -/
structure RegVal where
  val : Word
  poison : Bool
  deriving DecidableEq, Repr

/-- The register value of a group at placement (R244). -/
def RegVal.zero : RegVal := ⟨0, false⟩

/-- A register as the interlocks name it (R30, R32). -/
inductive DReg where
  | v (n : Nat) | s (n : Nat) | p (n : Nat) | q (n : Nat) | x (n : Nat)
  /-- no register: the handler of threads that trap FPEXC waits for the flags of the instruction that trapped (R89, R466) -/
  | handler
  deriving DecidableEq, Repr

/-- The state of a path-table entry (R245). -/
inductive PState where
  | free | live | parked | stopped
  deriving DecidableEq, Repr

/-- A poll in progress (R161): the read now out (0: none), the size and sign, its scope, the destination's first register and
whether it is a uniform one, the address and the value last seen of each thread (127 for the uniform form). -/
structure Poll where
  op : Nat
  bytes : Nat
  sign : Bool
  scope : Nat
  dest : Nat
  uni : Bool
  eas : List (Nat × Nat)
  last : List (Nat × Nat)
  deriving DecidableEq, Repr

/-- What a parked or stopped path waits for, with the operands captured when the waiting instruction issued (R249). -/
inductive Wait where
  | none
  /-- REASON 1. -/
  | join
  /-- REASON 2: a barrier word at a linear home address and the phase waited out (R165); `dest` is BARAW's phase register. -/
  | barWord (home : Nat) (phase : Bool)
  /-- REASON 2: a named barrier (R169). -/
  | named (n : Nat) (phase : Bool)
  /-- REASON 3: the scope and how many HBARs of that scope the block had completed (R170). -/
  | hbar (scope turn : Nat)
  /-- The wait has ended in a trap while the path was spilled (R168, R178): its REASON and the trap's cause. -/
  | doomed (reason cause : Nat)
  /-- REASON 4: LDPOLL.Y: the clock of the next read, the exponent of the back-off, and the poll (R161). -/
  | ldpoll (next k : Nat) (poll : Poll)
  /-- REASON 5: the home of the word watched and its page kind, the compared value, how far the wait has come (0: not compared yet, 1:
  armed, 2: written since), the destination, and the poison it will take (R90, R171). -/
  | mwait (home ord : Nat) (val : Word) (phase : Nat) (dest : Nat) (poison : Bool)
  /-- REASON 6: a ring control word, the stage bit and the value awaited (R172). -/
  | swaitp (home bit : Nat) (phase : Bool)
  /-- REASON 7: the STFE.WE whose requests are still out (R159). -/
  | stfe (id : Nat)
  /-- REASON 8: the XSEND waits to be paired (R178). -/
  | xsend (id : Nat)
  /-- REASON 9: the operations WAITR waits for (R116). -/
  | waitr (ids : List Nat)
  /-- REASON 10: EWAIT on a counter and threshold (R209). -/
  | ewait (c thr : Nat)
  /-- REASON 10: MSYNC on the commands accepted before it (R195). -/
  | msync (bank : Nat) (upto : Nat)
  /-- REASON 11 (R117). -/
  | waitblk (n : Nat)
  /-- REASON 12 (R118). -/
  | racq
  /-- REASON 13: a window counter and threshold (R240). -/
  | wwait (sel win thr : Nat)
  /-- REASON 13: the fabric operations to be acknowledged (R240). -/
  | ffence (ids : List Nat) (pkg : Nat)
  /-- REASON 14: convergence at a uniform barrier (R167, R170). -/
  | conv
  /-- REASON 15: the queue for the handler, with the trap not yet written (R260). -/
  | handler (cause info : Nat) (trapMask : Mask)
  /-- REASON 16 (R262). -/
  | escalated (tag : Nat)
  /-- REASON 17: the stop (R446). -/
  | debug (id : Nat)
  deriving DecidableEq, Repr

/-- A pending static distance (R30): a register, the distance so far from its latest producer, and the producer's latency. -/
structure Dist where
  reg : DReg
  dist : Nat
  lat : Nat
  deriving DecidableEq, Repr

/-- A path (R245, R249). -/
structure Path where
  st : PState
  pc : DWord
  mask : Mask
  /-- the clock from which the path may issue again (R28) -/
  ready : Nat
  hnd : Bool
  wait : Wait
  /-- where a parked path goes on -/
  resume : DWord
  /-- the clock of the last issue (R247) -/
  stamp : Nat
  dist : List Dist
  /-- the instruction at the PC must not stop on an execution comparator, or on BKPT, again (R446) -/
  exempt : Bool
  /-- 1: stop again after one instruction (R446); 2: that instruction has issued; 3: stop for HALT (R445) -/
  step : Nat
  deriving DecidableEq, Repr

/-- A free path-table entry. -/
def Path.free : Path := ⟨.free, 0, 0, 0, false, .none, 0, 0, [], false, 0⟩

/-- A fixed-latency result on its way (R29, R466): the clock it becomes readable, the threads of the issuing path, the writes, the
flags it raises, and an SWRITE's number and value (R113). Vector keys are 128 × register + thread, predicate keys 128 × predicate
+ thread. -/
structure FixRes where
  ready : Nat
  mask : Mask
  vw : List (Nat × RegVal)
  sw : List (Nat × RegVal)
  pw : List (Nat × Bool)
  qw : List (Nat × Bool)
  xw : List (Nat × Word)
  flags : BitVec 6
  spec : Option (Nat × Word)
  deriving DecidableEq, Repr

/-- The classes of operations WAITR names (R116), and the rest. -/
inductive OpClass where
  | load | store | engine | other
  deriving DecidableEq, Repr

/-- A pending mark of a variable-latency destination (R32): the register, the threads, the operation that will write it and its
class. -/
structure Pend where
  reg : DReg
  mask : Mask
  id : Nat
  cls : OpClass
  deriving DecidableEq, Repr

/-- A texture lookup of a thread whose texels are still to be read (R218, R288): whether it is a spectral one, the descriptor, whether the
sampler filters, the level, the coordinates, the wavelengths (none for TEX) and the first destination register. -/
structure Look where
  thread : Nat
  e : Nat
  linear : Bool
  level : Nat
  c : List Nat
  lams : List Nat
  dest : Nat
  deriving DecidableEq, Repr

/-- A variable-latency result on its way back (R32): the operation, its group, class and threads, the writes (vector keys 128 ×
register + thread) and the flags that come with it; of a texture lookup the values are not read yet, and `looks` says what they are. -/
structure Result where
  id : Nat
  gk : Nat
  cls : OpClass
  mask : Mask
  vw : List (Nat × RegVal)
  sw : List (Nat × RegVal)
  flags : BitVec 6
  looks : List Look := []
  deriving DecidableEq, Repr

/-- A part of a memory request that lies in one line (R271): the threads that make it, the thread its data belong to (127 for a
uniform instruction), its virtual address, home address and length, where it stands in the thread's data, its page kind, and for a
store its data and their poison. -/
structure Touch where
  ts : Mask
  thread : Nat
  va : Nat
  home : Nat
  len : Nat
  off : Nat
  ord : Nat
  data : Nat
  poison : Bool
  deriving DecidableEq, Repr

/-- The kinds of memory requests (R270), and what stands among them without being one: a fence with its kind (R162), an acquire that is
still to complete (XRECV, FAAR and CASR: R178, R239), and a refused store whose record is still to be written (R389). -/
inductive ReqKind where
  | load | store | atomic
  | ldfe (clr : Bool)
  | stfe (we : Bool)
  | fence (kind : Nat)
  | acquire
  | refused
  deriving DecidableEq, Repr

/-- One atomic of a request that may have been merged (R153): its operation, group, thread (127 a uniform one, 128 an SSIG), its operand B, the value
CAS expects, whether an operand is poisoned, and whether it returns the old value. -/
structure AtomUse where
  op : Nat
  gk : Nat
  thread : Nat
  b : Nat
  exp : Nat
  poison : Bool
  ret : Bool
  deriving DecidableEq, Repr

/-- A request on its way to its home (R270, R279, R282). -/
structure MemReq where
  /-- its number, in the order requests leave their cores (R270) -/
  rid : Nat
  /-- the instruction's operation -/
  op : Nat
  gk : Nat
  /-- where it was issued: context, core, block, path index, PC, mask (R389) -/
  ctx : Nat
  core : Nat
  bk : Nat
  pi : Nat
  pc : DWord
  mask : Mask
  /-- threads whose later accesses to its bytes come after it (R287) -/
  sync : Mask
  kind : ReqKind
  parts : List Touch
  acq : Bool
  rel : Bool
  /-- atomics: the operation (R45; 16 to 18 ATOMF, 32 ATOMX) and its uses -/
  aop : Nat
  atoms : List AtomUse
  /-- the cause for which its translation was refused; 0 for none (R53) -/
  cause : Nat
  /-- its place in its granule's queue (R159); of a merged atomic the request it has joined (R153) -/
  queued : Option Nat
  /-- withdrawn, until its group returns (R160) -/
  out : Bool := false
  /-- of an acquire that a release answers: the operations before that release which are still out (R287) -/
  deps : List Nat := []
  deriving DecidableEq, Repr

/-- A load, returning atomic or poll whose data are coming back (R32): its destination's first register, size and sign, and per
thread the bytes still to come, the value so far and its poison; a poll keeps its data until all have come. -/
structure LoadOp where
  id : Nat
  gk : Nat
  dest : Nat
  uni : Bool
  bytes : Nat
  sign : Bool
  poll : Bool
  left : List (Nat × Nat × Nat × Bool)
  got : List (Nat × Nat × Bool)
  deriving DecidableEq, Repr

/-- An XSEND or XRECV not yet paired (R178): its operation, the group that made it, its GIX and its peer's, the channel, the
threads, the values sent, the destination. -/
structure XReq where
  id : Nat
  gk : Nat
  send : Bool
  me : Nat
  peer : Nat
  ch : Nat
  mask : Mask
  vals : List (Nat × RegVal)
  dest : Nat
  /-- of an XSEND: its path's earlier operations, which the receiver's later accesses come after (R287) -/
  deps : List Nat := []
  deriving DecidableEq, Repr

/-- A group (R243, R244). Its key is 16 × block key + GIX. -/
structure Grp where
  /-- group slot of the core, 0 to 31 (R370, R386) -/
  slot : Nat
  gix : Nat
  blk : Nat
  resident : Bool
  /-- age stamp: the lower, the older (R24) -/
  age : Nat
  starve : Nat
  promoted : Bool
  /-- core clocks since the last progress or report, and whether the group issued after it (R251) -/
  progress : Nat
  issued : Bool
  /-- threads not exited -/
  alive : Mask
  /-- the path table, eight entries (R245) -/
  paths : List Path
  /-- spilled paths, the earliest first, with the clock each went out (R248) -/
  spilled : List (Nat × Path)
  /-- of each spilled path the record of the spill area it has, the 32 bytes written there, once they are (R31, R248, R249), and where they go -/
  spillRecs : List (Nat × Option Nat × List Part)
  /-- v registers of the base set: key 128 × register + thread -/
  v : SMap RegVal
  s : SMap RegVal
  p : SMap Mask
  q : SMap Bool
  x : SMap Word
  /-- special registers (R110) -/
  flags : BitVec 14
  rmode : Word
  bankc : Word
  partn : Nat
  trapCause : Word
  trapPc : DWord
  trapMask : Mask
  cycleh : Word
  /-- the last completed WAITBLK operand (R117) -/
  retpfx : Nat
  /-- sequences of the threads, the uniform one under key 127 (R83, R220, R224) -/
  srn : SMap Word
  fseq : SMap Word
  tseq : SMap Word
  fixed : List FixRes
  pend : List Pend
  /-- faulted destinations: key 128 × register + thread, the cause (256 more where the read traps that cause itself) and the NEVAL (R204) or
  other operation (R178, R430) -/
  faulted : SMap (Nat × Nat)
  /-- flags of Chorus rows not yet seen: NEVAL, thread, destination registers, flags (R203) -/
  rowFlags : List (Nat × Nat × List Nat × BitVec 6)
  /-- failed fabric operations not yet reported, the oldest first: window, package, cause (R241) -/
  fabricFail : List (Nat × Nat × Nat)
  /-- traversals of the threads (R213) -/
  travs : SMap Trav
  /-- the place of an evicted group in the order of return (R380) -/
  evictAt : Nat
  /-- predicates and index registers with an uncorrectable error not yet overwritten (R436) -/
  damaged : List DReg
  /-- POISON traps of threads whose STFE or SSIG met poison at its home (R430), with the address -/
  owed : List (Mask × Nat) := []
  deriving DecidableEq, Repr

/-- A command of the copy, decompression, chain or table engine counted on a completion counter (R208): what EWAIT delivers. -/
structure Done where
  counter : Nat
  flags : BitVec 6
  /-- cause and kind code of a failure; 0 for none -/
  cause : Nat
  kind : Nat
  /-- the group whose FLAGS the flags go to -/
  grp : Nat
  deriving DecidableEq, Repr

/-- A slot of the matrix engine's macros (R180): its state (1 LOADING, 2 LOADED, 3 FAILED, 4 SAVED), the format block it was loaded
with, dense and stored depth, width, mode, the aligned columns, the dense position of each stored row, poison, use stamp (R303). -/
structure MSlot where
  st : Nat
  fmt : BitVec 128
  k : Nat
  ks : Nat
  n : Nat
  mode : Nat
  cols : List MCol
  pos : List Nat
  poison : Bool
  stamp : Nat
  deriving DecidableEq, Repr

/-- A row of an accumulator bank (R181, R198): mode, window exponent and whether it is set, words, and per output column lost, special and
poison bits. -/
structure MRow where
  mode : Nat
  set : Bool
  x : Int
  words : SMap DWord
  lost : SMap Bool
  spec : SMap Nat
  poison : SMap Bool
  deriving DecidableEq, Repr

/-- An accumulator bank: 32 rows, and its OPRDY tokens (R181, R194). -/
structure Bank where
  rows : SMap MRow
  tokens : Nat
  deriving DecidableEq, Repr

/-- The kinds of commands of the matrix engine. -/
inductive MKind where
  | bld | mmas | memit | mrd | mwr | mmaq
  deriving DecidableEq, Repr

/-- A thread's row of an MMAQ pass (R200): its elements, the values of its destinations for .ACC, and their poison. -/
structure QRow where
  thread : Nat
  elems : List Nat
  acc : List RegVal
  poison : Bool
  deriving DecidableEq, Repr

/-- A command the matrix engine has accepted (R190 to R202), with the operands captured at issue: bases, format block, layout record,
shape or control word, bitmap offset, MRD and MWR data, MMAQ rows. Its state: 0 accepted, 1 loading or filling, 2 filled, 3 running,
4 to be written back at `until'`, 5 chosen while its slot is SAVED, 6 an MMAQ whose slot has been restored for it. -/
structure MCmd where
  id : Nat
  gk : Nat
  bk : Nat
  kind : MKind
  slot : Nat
  bank : Nat
  clr : Bool
  rdy : Bool
  /-- MRD and MWR: .META; MMAQ: .ACC -/
  alt : Bool
  base : Nat
  fmt : BitVec 128
  layout : BitVec 256
  ctl : Word
  /-- rounding mode and SR sequence of a MEMIT; window, first destination and N of an MMAQ; tile, column, row of MRD and MWR -/
  aux : List Nat
  data : List (Nat × DWord × Bool)
  qrows : List QRow
  fill : List (MCol × Bool)
  flags : BitVec 6
  fail : Nat
  st : Nat
  until' : Nat
  deriving DecidableEq, Repr

/-- A completed matrix command as MSYNC reports it (R195): its command, group, bank (2: a BLD), flags, cause, kind, slot or bank. -/
structure MDone where
  id : Nat
  gk : Nat
  bank : Nat
  flags : BitVec 6
  cause : Nat
  kind : Nat
  num : Nat
  deriving DecidableEq, Repr

/-- A layer of a network in a handle slot (R306, R397): format block, widths, mode, aligned weights, FP32 biases, activation. -/
structure HLayer where
  fmt : BitVec 128
  k : Nat
  n : Nat
  mode : Nat
  cols : List MCol
  bias : List Nat
  act : Nat
  deriving DecidableEq, Repr

/-- A handle slot of Chorus (R306): its state as MSlot's, units, layers, poison, the weight flags (R203), its use stamp. -/
structure HSlot where
  ctx : Nat
  handle : Nat
  st : Nat
  units : Nat
  layers : List HLayer
  poison : Bool
  flags : BitVec 6
  stamp : Nat
  deriving DecidableEq, Repr

/-- A row of a Chorus tile (R308): its NEVAL, group, key (TASK, BID, GIX, TIX), values, poison, first destination, flags. -/
structure CRow where
  neval : Nat
  gk : Nat
  task : Nat
  bid : Nat
  gix : Nat
  thread : Nat
  xs : List Nat
  poison : Bool
  dest : Nat
  flags : BitVec 6
  deriving DecidableEq, Repr

/-- A Chorus tile (R308, R309): its rows in order of entry, the acceptance clock of the earliest; its state (0 open, 1 closed, 2 a layer
running, 3 computed), the next layer, the earliest clock of the next thing to happen to it. -/
structure CTile where
  id : Nat
  ctx : Nat
  handle : Nat
  rows : List CRow
  accepted : Nat
  st : Nat
  layer : Nat
  ready : Nat
  deriving DecidableEq, Repr

/-- The matrix engine of a core: the lease (R187), the banks, the slots by 16 × block key + number, Chorus (R307, R308), the commands
in acceptance order, the pass on the macros. -/
structure Matrix where
  holder : Option Nat
  prev : Option Nat
  budget : Nat
  drain : Bool
  claim : Option Nat
  /-- the clock the lease became free -/
  freeAt : Nat
  bank0 : Bank
  bank1 : Bank
  slots : SMap MSlot
  handles : List HSlot
  /-- open gather windows: context and closing clock -/
  windows : SMap Nat
  tiles : List CTile
  cmds : List MCmd
  /-- the pass running: the command or tile, whether it is a tile's, and the clock it ends -/
  pass : Option (Nat × Bool × Nat)
  /-- the clock from which the accumulator port is free (R299) -/
  port : Nat
  deriving DecidableEq, Repr

/-- A bank after it is cleared (R189). -/
def Bank.clear : Bank := ⟨[], 0⟩
/-- The engine after reset. -/
def Matrix.reset : Matrix := ⟨none, none, 0, false, none, 0, Bank.clear, Bank.clear, [], [], [], [], [], none, 0⟩

/-- A named barrier of a block (R169). -/
structure Named where
  count : Nat
  arrived : Nat
  phase : Bool
  deriving DecidableEq, Repr

/-- A block in residence (R252). Its key counts placements. -/
structure Blk where
  ctx : Nat
  task : Nat
  bid : Nat
  core : Nat
  /-- the save frame (R370) -/
  frame : Nat
  gpb : Nat
  regs : Nat
  xregs : Nat
  roles : List Nat
  nblk : Nat
  clsz : Nat
  /-- slice offset and size of the footprint (R266) -/
  fbase : Nat
  fsize : Nat
  spawn : Nat
  lease : Nat
  det : Bool
  gang : Bool
  preemptible : Bool
  migratable : Bool
  mark : Bool
  check : Bool
  entry : DWord
  quantum : Nat
  /-- core clocks charged to the quantum (R361) -/
  used : Nat
  /-- completion counters (R208) and what EWAIT has still to deliver -/
  counters : SMap Word
  dones : List Done
  named : SMap Named
  /-- extended registers: key 128 × register + thread (R118), their holder, the waiters and the turn under DET -/
  xr : SMap RegVal
  holder : Option Nat
  turn : Nat
  /-- matrix commands completed and not yet delivered at MSYNC (R195) -/
  mdones : List MDone
  /-- the block's tiles while another block has the lease (R189) -/
  tiles : Option (Bank × Bank)
  /-- HBAR arrivals of the block's groups by scope, and HBARs completed by scope (R170) -/
  hbarArr : SMap (List Nat)
  /-- unpaired exchanges, in issue order (R178) -/
  xreqs : List XReq
  hbarDone : SMap Nat
  /-- footprint ranges left behind by Leap: core and base (R383), and the source cores whose messages still go by them (R384) -/
  olds : List (Nat × Nat)
  fwd : List Nat
  /-- the footprint is in the save area (R381) -/
  suspended : Bool
  /-- spawn stacks: depth, kinds (bottom first) and dropped count of a thread, key 96 × GIX + thread (R216) -/
  stackKinds : SMap (List Nat)
  dropped : SMap Nat
  retained : Bool
  evicted : Bool
  /-- areas of the block's frame whose layout the spec leaves open, by offset, with the bytes last saved there (R370; log entry 20) -/
  images : SMap Nat
  /-- while the block is suspended: the lease it held, as BUDGET and DRAIN, and whether it had the claim (R370, R381) -/
  leaseKept : Option (Nat × Bool)
  claimKept : Bool
  /-- what releases of the block have before them, by who acquires: 0 to 15 the waiters of a named barrier's phase under way (R169), 16 + scope
  those of an HBAR (R170), 32 the next holder of the extended set (R287): operations -/
  rels : SMap (List Nat) := []
  deriving DecidableEq, Repr

/-- A record of the event ring (R386); the refused stores it stands for (R389) are the model's own. -/
structure Rec where
  /-- the faulting address; 2^64 where the event carries none (`noVa`) -/
  va : Nat
  pc : DWord
  mask : Mask
  slots : Word
  count : Nat
  tag : Nat
  bid : Nat
  task : Nat
  info : Nat
  core : Nat
  gix : Nat
  path : Nat
  exited : Bool
  ctx : Nat
  kind : Nat
  cause : Nat
  later : Nat
  aux : DWord
  stores : List Nat
  deriving DecidableEq, Repr

/-- A core (R3, R24 to R27). Absent from the table: nothing has happened on it since reset. -/
structure Core where
  /-- units held: unit number and the clock it becomes free (R25) -/
  units : SMap Nat
  /-- the pair's toggle names the odd core (R27); held with the even core -/
  toggle : Bool
  /-- the clock in which the pair's shared scalar unit was last taken (R27); held with the even core -/
  ssu : Option Nat
  /-- open records of the trap coalescer with the clock each opened (R385) -/
  coalescer : List (Nat × Rec)
  /-- engine arrivals ignored at barrier words of the slice (R166) -/
  orphan : Nat
  mx : Matrix
  /-- top-down counters by word but for SLOTS and EMPTY, which follow from the clock of the last clearing (R453, R454), and the
  snapshot with its number (R455) -/
  counts : SMap Nat
  countsFrom : Nat
  snap : SMap Nat
  snapseq : Nat
  /-- trace records made (R450) -/
  traceSeq : Nat
  /-- clocks of the interval in which the core issued, and in which a ready path did not (R382) -/
  issuedIn : Nat
  crowdedIn : Nat
  /-- the clock the core has been offered last, plus 1: the model's own -/
  offered : Nat
  deriving DecidableEq, Repr

/-- A core after reset. -/
def Core.reset : Core := ⟨[], false, none, [], 0, Matrix.reset, [], 0, [], 0, 0, 0, 0, 0⟩

/-- A context (R366). -/
structure Ctx where
  /-- the descriptor (R367) -/
  desc : BitVec 1024
  /-- TABBASE and NETCNT (R391) -/
  tab : BitVec 128
  /-- copies of the format blocks of network table entries (R396): whether a TBLLD made them, and four blocks a handle -/
  netCopies : SMap (Bool × Option (BitVec 512))
  /-- film descriptors (R324) -/
  films : SMap (BitVec 512)
  /-- trigger bindings (R417), the pod group register (R415), the ignored-arm count (R352) -/
  binds : SMap DWord
  podgrp : DWord
  ignored : Nat
  trees : SMap Tree
  /-- frames of the save area in use (R370) -/
  frames : List Nat
  deriving DecidableEq, Repr

/-- A context after reset: descriptor 0 but CHORUSWIN 24 (R367). -/
def Ctx.reset : Ctx := ⟨BitVec.ofNat 1024 (24 * 2 ^ 496), 0, [], [], [], 0, 0, [], []⟩

/-- Memory (R264, R271, R274): the bytes of HBM, of the slices and of host memory under their home addresses (Machine/Memory.lean),
the poisoned lines (R428), the empty granules (R158), and the lines with an error not yet found (R426). -/
structure Memory where
  bytes : List Host.Cell
  poison : SMap Bool
  empties : SMap Bool
  /-- 1: an error that correction mends; 2: an uncorrectable one -/
  latent : SMap Nat
  deriving DecidableEq, Repr

/-- The device error log (R432 to R434). -/
structure ErrLog where
  prod : Word
  cons : Word
  cecnt : Nat
  cedrop : Nat
  scrubh : Nat
  /-- records on their way to the log, the oldest first -/
  held : List (BitVec 512)
  /-- the 64 record places at BAR0 0x2000 -/
  recs : SMap (BitVec 512)
  /-- by location, the corrected events whose class 1 records were dropped since its last record (R433) -/
  missed : SMap Nat
  deriving DecidableEq, Repr

/-- An entry held for translation (R374): where (0 a core's TLB, 1 a cluster's, 2 the cache of a die's walkers, which hold table entries), the
number of the core, cluster or die, its context, the addresses it serves and their extent, and the entry. -/
structure TlbEnt where
  kind : Nat
  unit : Nat
  ctx : Nat
  va : Nat
  log2 : Nat
  entry : DWord
  deriving DecidableEq, Repr

/-- How a walk ends (R372): in a leaf entry for a page of a size, or in a fault. -/
inductive WalkEnd where
  | leaf (entry size : Nat) | pageFault | access
  deriving DecidableEq, Repr

/-- A walk (R375): its die, context and 64 KiB page, the cores that wait for it, how it stands (0 it waits in its cluster for room, 1 the die
holds the miss, 2 it is under way), the table entries it has met (lowest bit indexed, value), and how it ends. -/
structure Walk where
  die : Nat
  ctx : Nat
  page : Nat
  cores : List Nat
  st : Nat
  tables : List (Nat × Nat)
  answer : WalkEnd
  deriving DecidableEq, Repr

/-- An arm that has reached the home (R351): its source (1 TARM, 2 trigger edge, 3 host), what orders it among those of its source, the core a TARM
comes from, the TCB, and the bits of the answer a host waits for (0 for none). -/
structure Arm where
  src : Nat
  key : Nat
  core : Nat
  ctx : Nat
  idx : Nat
  bits : Nat
  deriving DecidableEq, Repr
/-- The place of an arm in the order of its clock. -/
def Arm.rank (a : Arm) : Nat := (a.src * 2 ^ 12 + a.core) * 2 ^ 64 + a.key

/-- What a release does once it is made: an OPRDY of a block and bank, a TARM of a context's TCB. -/
inductive ActKind where
  | oprdy (bk bank : Nat)
  | tarm (ctx idx : Nat)
  deriving DecidableEq, Repr

/-- A release whose effect waits for its path's earlier accesses (R282): its operation, path, block and core. -/
structure Act where
  id : Nat
  gk : Nat
  mask : Mask
  bk : Nat
  core : Nat
  kind : ActKind
  deriving DecidableEq, Repr

/-- The machine. -/
structure State where
  mem : Memory
  errlog : ErrLog
  /-- the package is in its fatal state (R462) -/
  fatal : Bool
  reqs : List MemReq
  loads : List LoadOp
  /-- engine arrivals on their way to barrier words: home and bytes (R165, R230) -/
  bars : List (Nat × Nat)
  tlb : List TlbEnt
  /-- the walks that have not finished, the earliest miss first (R375) -/
  walks : List Walk
  /-- the requests numbered below it have had their pages looked up in the TLBs: the model's own -/
  looked : Nat
  results : List Result
  clock : Nat
  /-- the clock's events are over, and what comes at its end follows (R351): the model's own -/
  closing : Bool
  /-- what blocks of code held before writes made while a task of a context was RUNNING, until its instruction caches are invalidated
  (R38): context, 64-byte line and its bytes -/
  codeWas : List (Nat × Nat × Nat)
  /-- built trees, by context and number, whose arrays or staging area another agent has stored to (R405) -/
  spoiled : List (Nat × Nat)
  /-- the group key and path index whose instruction is issuing: set by the step -/
  issuer : Option (Nat × Nat)
  /-- what the event that is taking place acts on: set by the step -/
  subject : List Nat
  /-- free values drawn (log entry 1) -/
  free : Nat
  /-- identifiers given out -/
  seq : Nat
  groups : SMap Grp
  blocks : SMap Blk
  cores : SMap Core
  ctxs : SMap Ctx
  tasks : SMap Task
  /-- the context whose turn it is, the blocks it has placed in it, and its weight as read when the turn began (R356, R368); weight 0: no turn -/
  turn : Nat × Nat × Nat
  /-- records on their way to the event rings, in the order the coalescers closed them (R388) -/
  records : List Rec
  /-- the records of escalated traps by STOPTAG, as the coalescers have them (R385, R390) -/
  stopRecs : SMap Rec
  /-- releases issued whose effect waits for the path's earlier accesses: OPRDY and TARM (R194, R235, R282) -/
  acts : List Act
  /-- arms that have reached the home in this clock, in order of coming (R351) -/
  arms : List Arm
  ecmds : List EngCmd
  films : List FilmRec
  treeReqs : List TreeReq
  windows : SMap Window
  fab : List FabOp
  dev : Dev
  /-- what reaches the machine from outside, in order of coming: the event and what it acts on (log entry 4) -/
  inputs : List (Instr × List Nat)
  deriving DecidableEq, Repr

/-- What the flash image and the fuses hold: the spec gives no value (log entry 8). -/
def Kept.reset : Kept := ⟨[], (⟨1, true, Persist.reset⟩, ⟨0, true, Persist.reset⟩), 1, 0, 0, 0, 0, [], [], []⟩

/-- The device after reset (R410, R432, R443, R449, R456, R462). -/
def Dev.reset (k : Kept) : Dev :=
  { pkgid := 0, podcnt := 1, faben := false, syncpend := 0, synclost := 0, sync := 0, syncUntil := 0, ports := 0
    arg0 := 0, arg1 := 0, arg2 := 0, arg3 := 0, result := 0, busy := none, dbusy := none, cargs := [], dcargs := []
    stage := 0, ready := false, axolotl := false, rsn := 0, nonce := 0, kept := k, flashing := false, bootTime := 0, staging := [], recovering := [], wasImage := none, report := [], mimg := 0
    tthrot := 95, pkgw := 3200, diew := List.replicate 8 400, capped := List.replicate 8 false, arbiter := 0, grants := []
    token := [], opened := if k.lcs = 0 then 0x3F else 0, ctxopen := if k.lcs = 0 then ~~~0 else 0, lastrej := 0, tokrej := 0
    bkpten := false, darg0 := 0, darg1 := 0, data := 0, dresult := 0
    comps := [], stops := [], stopWait := []
    trbase := 0, trprod := 0, trcons := 0, trdrop := 0, trkinds := 0, trlog2 := 10, tren := false, tracing := []
    msix := [], sent := [], pod := [], podPhase := [], podSeen := [], podOwn := [], linkWait := [], putsIn := [], scrub := 0, leap := [], trig := [], reply := (0, false, false) }

/-- The machine right after a package reset that finds these in flash, fuses and sites. -/
def State.resetWith (k : Kept) : State :=
  { mem := ⟨[], [], [], []⟩, errlog := ⟨0, 0, 0, 0, 24, [], [], []⟩, fatal := false, reqs := [], loads := [], bars := [], tlb := [], walks := [], looked := 0, results := [], codeWas := [], spoiled := []
    clock := 0, closing := false, issuer := none, subject := [], free := 0, seq := 0, groups := [], blocks := [], cores := [], ctxs := [], tasks := []
    turn := (0, 0, 0), records := [], stopRecs := [], acts := [], arms := [], ecmds := [], films := [], treeReqs := [], windows := [], fab := [], dev := Dev.reset k, inputs := [] }

/-- The machine right after reset (R439, R456). -/
def State.reset : State := State.resetWith Kept.reset

end Sys2Proof.Machine
end

