-- ==== Sys2Proof/Machine/Base.lean ====
section
/-! DEFINITION. The named operations over the machine's tables and registers (R33, R90, R110), trap causes (R112) and the trap
coalescer (R385). -/
namespace Sys2Proof.Machine
open Sys2Proof

/-! ### Threads and masks -/

/-- The threads of a mask in ascending index (R19). -/
def threadsOf (m : Mask) : List Nat := (List.range 96).filter fun t => m.getLsbD t
/-- The mask of a list of threads. -/
def maskOf (ts : List Nat) : Mask := ts.foldl (fun m t => m ||| BitVec.ofNat 96 (2 ^ t)) 0

/-! ### Trap causes -/

/-- The trap causes (R112). -/
inductive Cause where
  | illop | regBounds | stallShort | role | misalign | pageFault | access | aperture | atomHost | atomKind | poison
  | barrierBroken | barrierMismatch | nevalHandle | nevalDeferred | leaseNone | tree | determ | fabric | task | swtrap | bkpt
  | fpexc | xmov | spillFault
  deriving DecidableEq, Repr

/-- The code of a cause (R112). -/
def Cause.code : Cause → Nat
  | .illop => 0x01 | .regBounds => 0x02 | .stallShort => 0x03 | .role => 0x04 | .misalign => 0x05 | .pageFault => 0x06
  | .access => 0x07 | .aperture => 0x08 | .atomHost => 0x09 | .atomKind => 0x0A | .poison => 0x0B | .barrierBroken => 0x0C
  | .barrierMismatch => 0x0D | .nevalHandle => 0x0E | .nevalDeferred => 0x0F | .leaseNone => 0x10 | .tree => 0x11
  | .determ => 0x12 | .fabric => 0x13 | .task => 0x14 | .swtrap => 0x15 | .bkpt => 0x16 | .fpexc => 0x17 | .xmov => 0x18
  | .spillFault => 0x19

/-- A trap: its cause code and INFO (R111). -/
structure Trap where
  cause : Nat
  info : Nat
  deriving DecidableEq, Repr

/-- A trap without INFO. -/
def trap (c : Cause) : Trap := ⟨c.code, 0⟩
/-- A trap with INFO. -/
def trapI (c : Cause) (info : Nat) : Trap := ⟨c.code, info⟩

/-! ### Tables -/

def State.grp (s : State) (gk : Nat) : Option Grp := SMap.find? s.groups gk
def State.setGrp (s : State) (gk : Nat) (g : Grp) : State := { s with groups := SMap.put s.groups gk g }
def State.updGrp (s : State) (gk : Nat) (f : Grp → Grp) : State :=
  match s.grp gk with | some g => s.setGrp gk (f g) | none => s
def State.blk (s : State) (bk : Nat) : Option Blk := SMap.find? s.blocks bk
def State.setBlk (s : State) (bk : Nat) (b : Blk) : State := { s with blocks := SMap.put s.blocks bk b }
def State.updBlk (s : State) (bk : Nat) (f : Blk → Blk) : State :=
  match s.blk bk with | some b => s.setBlk bk (f b) | none => s
def State.core (s : State) (c : Nat) : Core := SMap.get Core.reset s.cores c
def State.setCore (s : State) (c : Nat) (x : Core) : State := { s with cores := SMap.put s.cores c x }
def State.updCore (s : State) (c : Nat) (f : Core → Core) : State := s.setCore c (f (s.core c))
def State.ctx (s : State) (c : Nat) : Ctx := SMap.get Ctx.reset s.ctxs c
def State.setCtx (s : State) (c : Nat) (x : Ctx) : State := { s with ctxs := SMap.put s.ctxs c x }
def State.updCtx (s : State) (c : Nat) (f : Ctx → Ctx) : State := s.setCtx c (f (s.ctx c))

/-- A counter of a core's rises (R453, R454). -/
def State.count (s : State) (core word n : Nat) : State := s.updCore core fun c => { c with counts := SMap.upd 0 c.counts word (· + n) }

def Path.set (g : Grp) (i : Nat) (p : Path) : Grp := { g with paths := g.paths.set i p }
def Grp.path (g : Grp) (i : Nat) : Path := g.paths.getD i Path.free
/-- A change of one path of a group. -/
def State.updPath (s : State) (gk i : Nat) (f : Path → Path) : State := s.updGrp gk fun g => Path.set g i (f (g.path i))

/-- A free value, and the state with the next one still unused (R15; log entry 1). -/
def State.draw (s : State) : BitVec 512 × State := (Config.freeValue s.free, { s with free := s.free + 1 })
/-- An identifier never given out before. -/
def State.fresh (s : State) : Nat × State := (s.seq, { s with seq := s.seq + 1 })

/-! ### The issuing path -/

/-- What an issuing instruction sees: the state, its group, block and path. -/
structure Env where
  s : State
  gk : Nat
  g : Grp
  b : Blk
  pi : Nat
  p : Path

/-- The issuing path, if one is issuing. -/
def State.env (s : State) : Option Env :=
  match s.issuer with
  | none => none
  | some (gk, pi) =>
    match s.grp gk with
    | none => none
    | some g =>
      match s.blk g.blk with
      | none => none
      | some b => some ⟨s, gk, g, b, pi, g.path pi⟩

/-! ### Registers -/

/-- The number a register field names (R33): direct, or through an index register. -/
def Grp.num (g : Grp) (f : BitVec 7) : Nat :=
  if f.toNat < 64 then f.toNat else (SMap.get 0 g.x (f.toNat / 16 % 4)).toNat + f.toNat % 16

/-- Whether an indirect field's index register is in range (R33). -/
def Grp.idxOk (g : Grp) (f : BitVec 7) : Bool := f.toNat < 64 || (SMap.get 0 g.x (f.toNat / 16 % 4)).toNat ≤ 255

/-- The value of an extended register nothing has written since placement: unspecified (R118), one value for the block's life. -/
def Blk.freeXr (bk key : Nat) : RegVal :=
  let v := Config.freeValue (2 ^ 40 * (bk + 1) + key)
  ⟨v.extractLsb' 0 32, v.getLsbD 32⟩

/-- A v register of a thread (R33, R118). -/
def rdV (g : Grp) (b : Blk) (r t : Nat) : RegVal :=
  if r < 128 then SMap.get RegVal.zero g.v (128 * r + t)
  else match SMap.find? b.xr (128 * r + t) with | some x => x | none => Blk.freeXr g.blk (128 * r + t)

def Env.v (e : Env) (r t : Nat) : RegVal := rdV e.g e.b r t
/-- Register i of a field's span, `unit` registers a number. -/
def Env.span (e : Env) (f : BitVec 7) (unit i t : Nat) : RegVal := e.v (unit * e.g.num f + i) t
/-- A vector operand. -/
def Env.vec (e : Env) (f : BitVec 7) (t : Nat) : RegVal := e.span f 1 0 t
def Env.sreg (e : Env) (n : Nat) : RegVal := SMap.get RegVal.zero e.g.s n
/-- A uniform operand. -/
def Env.uni (e : Env) (f : BitVec 7) : RegVal := e.sreg f.toNat
def Grp.pr (g : Grp) (n t : Nat) : Bool := (SMap.get 0 g.p n).getLsbD t
def Grp.qr (g : Grp) (n : Nat) : Bool := SMap.get false g.q n
/-- A lane predicate field as read (R39). -/
def Env.pred (e : Env) (k n : BitVec 1) (p : BitVec 3) (t : Nat) : Bool :=
  ((k == 1) || e.g.pr p.toNat t) != (n == 1)
/-- A uniform predicate field as read (R39). -/
def Env.upred (e : Env) (k n : BitVec 1) (p : BitVec 3) : Bool := ((k == 1) || e.g.qr p.toNat) != (n == 1)

/-- A 64-bit value from the two registers of a pair (R17), with the OR of their poison. -/
def pairOf (lo hi : RegVal) : DWord × Bool := (hi.val ++ lo.val, lo.poison || hi.poison)
def Env.pair (e : Env) (f : BitVec 7) (t : Nat) : DWord × Bool := pairOf (e.span f 2 0 t) (e.span f 2 1 t)
def Env.upair (e : Env) (f : BitVec 7) : DWord × Bool := pairOf (e.sreg f.toNat) (e.sreg (f.toNat + 1))
/-- The low and high registers of a 64-bit value. -/
def loHi (x : DWord) (poison : Bool) : List RegVal := [⟨x.extractLsb' 0 32, poison⟩, ⟨x.extractLsb' 32 32, poison⟩]

/-- A write of a v register (R33): the base set in the group, the extended set in the block. -/
def State.wrV (s : State) (gk r t : Nat) (x : RegVal) : State :=
  match s.grp gk with
  | none => s
  | some g =>
    if r < 128 then s.setGrp gk { g with v := SMap.set RegVal.zero g.v (128 * r + t) x }
    else s.updBlk g.blk fun b => { b with xr := SMap.put b.xr (128 * r + t) x }

/-- Writes of v registers by key 128 × register + thread. -/
def State.wrVs (s : State) (gk : Nat) (ws : List (Nat × RegVal)) : State :=
  match s.grp gk with
  | none => s
  | some g =>
    let base := ws.filter fun w => w.1 < 128 * 128
    let ext := ws.filter fun w => 128 * 128 ≤ w.1
    let s := s.setGrp gk { g with v := SMap.setAll RegVal.zero g.v base }
    if ext.isEmpty then s else s.updBlk g.blk fun b => { b with xr := ext.foldl (fun m w => SMap.put m w.1 w.2) b.xr }

/-- Writes of lane predicates by key 128 × predicate + thread. -/
def setPreds (p : SMap Mask) (ws : List (Nat × Bool)) : SMap Mask :=
  ws.foldl (fun m w =>
    let k := w.1 / 128; let bit := BitVec.ofNat 96 (2 ^ (w.1 % 128)); let old := SMap.get 0 m k
    SMap.set 0 m k (if w.2 then old ||| bit else old &&& ~~~bit)) p

/-! ### Device numbers -/

/-- CYCLE of a core (R13, R110): the core clocks since reset from a value of its own. -/
def State.cycleOf (s : State) (core : Nat) : Nat := s.clock + Config.cycleBase core

def Ctx.tvec (c : Ctx) : DWord := c.desc.extractLsb' 720 64
def Ctx.check (c : Ctx) : Bool := c.desc.getLsbD 2

/-! ### Records and the trap coalescer (R385) -/

/-- What stands for the address of an event that carries none: no virtual address, so that it lies in no page of one (R385), and VA 0 in a
record (R386). -/
def noVa : Nat := 2 ^ 64

def Rec.empty : Rec := ⟨noVa, 0, 0, 0, 1, 0, 0, 0, 0, 0, 0, 0, false, 0, 0, 0, 0, 0, []⟩

/-- The fields of a record that name a group of a block (R386). -/
def recOf (g : Grp) (b : Blk) : Rec :=
  { Rec.empty with slots := BitVec.ofNat 32 (2 ^ g.slot), bid := b.bid, task := b.task, core := b.core, gix := g.gix, ctx := b.ctx }

/-- Whether an event merges into an open record: same context, kind and cause, and VA in the same 64 KiB page, or neither carries one
(R385). -/
def Rec.merges (o n : Rec) : Bool :=
  o.ctx == n.ctx && o.kind == n.kind && o.cause == n.cause && (n.kind == 1 || n.kind == 4) && o.va / 65536 == n.va / 65536

/-- A record comes to a core's trap coalescer (R385): merged into an open one, or opened. The tag it stands under is returned. -/
def State.coalesce (s : State) (core : Nat) (r : Rec) : Nat × State :=
  let c := s.core core
  let merge (x : Nat × Rec) : Nat × Rec :=
    if x.2.merges r then (x.1, { x.2 with slots := x.2.slots ||| r.slots, count := x.2.count + 1, stores := x.2.stores ++ r.stores }) else x
  match c.coalescer.find? fun o => o.2.merges r with
  | some o =>
    let s1 := s.setCore core { c with coalescer := c.coalescer.map merge }
    (o.2.tag, if r.kind = 1 then { s1 with stopRecs := SMap.put s1.stopRecs o.2.tag (merge o).2 } else s1)
  | none =>
    let s1 := s.setCore core { c with coalescer := c.coalescer ++ [(s.clock, r)] }
    (r.tag, if r.kind = 1 then { s1 with stopRecs := SMap.put s1.stopRecs r.tag r } else s1)

end Sys2Proof.Machine
end

