-- ==== Sys2Proof/Machine/Memory.lean ====
section
/-! DEFINITION. Memory: home addresses (R264, R271, R274, R373), translation (R371, R372, R374), the aperture (R52, R268), the checks of
an access part by part (R51, R53), and reading and writing bytes with poison and full-empty tags (R428, R429, R277). -/
namespace Sys2Proof.Machine
open Sys2Proof

/-! ### Home addresses -/

/-- The home address of a slice byte. HBM bytes stand under their linear physical address, below 2^40; host bytes at 2^56 + address. -/
def slicePA (core off : Nat) : Nat := 2 ^ 48 + core * 2 ^ 20 + off
def hostPA (a : Nat) : Nat := 2 ^ 56 + a
/-- Whether a home address lies in a slice, and of which core. -/
def inSlice (pa : Nat) : Bool := decide (2 ^ 48 ≤ pa ∧ pa < 2 ^ 48 + 1152 * 2 ^ 20)
def coreOfPA (pa : Nat) : Nat := (pa - 2 ^ 48) / 2 ^ 20
def isHost (pa : Nat) : Bool := decide (2 ^ 56 ≤ pa)

/-- The bytes each stack holds (R373). -/
def stackBytes : Nat := 48 * 10 ^ 9

/-- The linear HBM address of a physical address (R373): the interleaved window is an alias. None outside both populated ranges. -/
def hbmLinear (pa : Nat) : Option Nat :=
  if pa < 2 ^ 40 then (if pa % 2 ^ 36 < stackBytes then some pa else none)
  else
    let o := pa - 2 ^ 40
    if o < 16 * stackBytes then some (o / 256 % 16 * 2 ^ 36 + (o / 4096 * 256 + o % 256)) else none

/-- Whether a page of HBM lies within one window's populated range (R373). -/
def pagePopulated (pa size : Nat) : Bool :=
  if pa < 2 ^ 40 then decide (pa % 2 ^ 36 + size ≤ stackBytes) else decide (pa - 2 ^ 40 + size ≤ 16 * stackBytes)

/-! ### Bytes, lines and granules -/

/-- What a byte of memory that nothing has written reads as: 0 (log entry 5). -/
def unlistedByte : Byte := 0

def Memory.byte (m : Memory) (pa : Nat) : Byte := SMap.get unlistedByte m.bytes pa
def Memory.setByte (m : Memory) (pa : Nat) (x : Byte) : Memory := { m with bytes := SMap.set unlistedByte m.bytes pa x }
/-- The canonical form of memory: strictly rising addresses, no entry at the value of an unlisted byte. -/
def Memory.wf (m : Memory) : Bool :=
  SMap.wf unlistedByte m.bytes && SMap.wf false m.poison && SMap.wf false m.empties && SMap.wf 0 m.latent

def Memory.poisoned (m : Memory) (pa : Nat) : Bool := SMap.get false m.poison (pa / 64) || SMap.get 0 m.latent (pa / 64) == 2
def Memory.mark (m : Memory) (line : Nat) (x : Bool) : Memory :=
  { m with poison := SMap.set false m.poison line x, latent := SMap.set 0 m.latent line 0 }
/-- The full-empty tag of a granule: true when full (R158). -/
def Memory.full (m : Memory) (pa : Nat) : Bool := !SMap.get false m.empties (pa / 16)
def Memory.setTag (m : Memory) (pa : Nat) (full : Bool) : Memory := { m with empties := SMap.set false m.empties (pa / 16) (!full) }

/-- n bytes from a home address, as a little-endian number (R17). -/
def Memory.readLE (m : Memory) (pa : Nat) : Nat → Nat
  | 0 => 0
  | n + 1 => (m.byte pa).toNat + 256 * Memory.readLE m (pa + 1) n

/-- Whether any of n bytes lies in a poisoned line. -/
def Memory.anyPoison (m : Memory) (pa n : Nat) : Bool := (List.range n).any fun i => m.poisoned (pa + i)

/-- n bytes written little-endian at a home address. -/
def Memory.writeLE (m : Memory) (pa : Nat) : Nat → Nat → Memory
  | 0, _ => m
  | n + 1, x => Memory.writeLE (m.setByte pa (BitVec.ofNat 8 x)) (pa + 1) n (x / 256)

/-- One write request (R428, R429): its bytes, each with whether its source was poisoned. A line that receives a poisoned byte is
marked; a line whose 64 bytes are all written clean is cleared. -/
def Memory.request (m : Memory) (ws : List (Nat × Byte × Bool)) : Memory :=
  let m1 := ws.foldl (fun m w => m.setByte w.1 w.2.1) m
  let lines := (ws.map fun w => w.1 / 64).eraseDups
  lines.foldl (fun m l =>
    let here := ws.filter fun w => w.1 / 64 == l
    if here.any (·.2.2) then m.mark l true
    else if (here.map (·.1)).eraseDups.length == 64 then m.mark l false else m) m1

/-- The bytes of an n-byte number for a write request. -/
def leBytes (pa : Nat) (poison : Bool) : Nat → Nat → List (Nat × Byte × Bool)
  | 0, _ => []
  | n + 1, x => (pa, BitVec.ofNat 8 x, poison) :: leBytes (pa + 1) poison n (x / 256)

/-! ### Translation -/

def Ctx.ptroot (c : Ctx) : Nat := (c.desc.extractLsb' 656 64).toNat
def Ctx.valid (c : Ctx) : Bool := c.desc.getLsbD 0

/-- A translated page (R372): its physical base and size, and its attributes. -/
structure Leaf where
  pa : Nat
  size : Nat
  ord : Nat
  host : Bool
  x : Bool
  w : Bool
  r : Bool
  deriving DecidableEq, Repr

/-- The attributes of a leaf entry for a page of the given size (R372, R373); ACCESS, with the ORD of the page, where it breaks a rule. -/
def leafOf (e size : Nat) : Except (Cause × Nat) Leaf :=
  let pa := e / 256 % 2 ^ 48 * 256
  let host := e / 32 % 2 == 1
  if pa % size ≠ 0 then .error (.access, e / 64 % 4)
  else if !host && !pagePopulated pa size then .error (.access, e / 64 % 4)
  else .ok ⟨pa, size, e / 64 % 4, host, e / 16 % 2 == 1, e / 8 % 2 == 1, e / 4 % 2 == 1⟩

/-- The levels of the walk (R371): level, lowest VA bit indexed, entries, size of the next table down. -/
def walkLevels : List (Nat × Nat × Nat × Nat) := [(3, 43, 8192, 65536), (2, 30, 8192, 4096), (1, 21, 512, 256), (0, 16, 32, 0)]

/-- Where the entry for an address lies in a table (R371). -/
def entryHome (table va lo n : Nat) : Option Nat := (hbmLinear table).bind fun _ => hbmLinear (table + va / 2 ^ lo % n * 8)

/-- The table an entry that is no leaf names (R372): ADDR. -/
def nextTable (e : Nat) : Nat := e / 256 % 2 ^ 48 * 256

/-- The walk (R371, R372): the leaf entry and the size of its page, or the fault. `held` gives the table entries a walker's cache holds for the
address, by the lowest bit they index (R374). -/
def walkFrom (m : Memory) (held : Nat → Option Nat) (va : Nat) : List (Nat × Nat × Nat × Nat) → Nat → Except Cause (Nat × Nat)
  | [], _ => .error .access
  | (lvl, lo, n, sub) :: rest, table =>
    match entryHome table va lo n with
    | none => .error .access
    | some a =>
      let e := (held lo).getD (m.readLE a 8)
      if e % 2 = 0 then .error .pageFault
      else if e / 2 ^ 56 ≠ 0 then .error .access
      else if e / 2 % 2 = 1 then (if lvl = 3 then .error .access else .ok (e, 2 ^ lo))
      else if lvl = 0 then .error .access
      else if e / 4 % 64 ≠ 0 then .error .access
      else if nextTable e % sub ≠ 0 then .error .access
      else walkFrom m held va rest (nextTable e)

/-- The walk that reads memory at every level. -/
def walk (m : Memory) (va : Nat) (levels : List (Nat × Nat × Nat × Nat)) (table : Nat) : Except Cause (Nat × Nat) :=
  walkFrom m (fun _ => none) va levels table

/-- Whether an entry of a level names a table that an address's walk goes on to. -/
def tableGoes (lvl sub va e : Nat) (rest : List (Nat × Nat × Nat × Nat)) : Bool :=
  e % 4 = 1 && lvl != 0 && e / 2 ^ 56 == 0 && e / 4 % 64 == 0 && nextTable e % sub == 0
    && match rest with | (_, lo, n, _) :: _ => (entryHome (nextTable e) va lo n).isSome | [] => false

/-- The entries a walk looks at, each with whether the walk goes on from it: the lowest bit it indexes, its home and its value. -/
def walkPath (m : Memory) (held : Nat → Option Nat) (va : Nat) : List (Nat × Nat × Nat × Nat) → Nat → List ((Nat × Nat × Nat) × Bool)
  | [], _ => []
  | (lvl, lo, n, sub) :: rest, table =>
    match entryHome table va lo n with
    | none => []
    | some a =>
      let e := (held lo).getD (m.readLE a 8)
      if tableGoes lvl sub va e rest then ((lo, a, e), true) :: walkPath m held va rest (nextTable e) else [((lo, a, e), false)]

/-- The die and the cluster of a core (R3). -/
def dieOf (core : Nat) : Nat := core / 144
def clusterOf (core : Nat) : Nat := core / 24

/-- An entry that serves an address of a context in the unit of a kind (R374). -/
def TlbEnt.serves (e : TlbEnt) (kind unit ctx va : Nat) : Bool :=
  e.kind == kind && e.unit == unit && e.ctx == ctx && va / 2 ^ e.log2 == e.va / 2 ^ e.log2

/-- The leaf entry, with the size of its page, that a unit's TLB holds for an address (R374). -/
def State.tlbAt (s : State) (kind unit ctx va : Nat) : Option (Nat × Nat) :=
  (s.tlb.find? fun e => e.serves kind unit ctx va).map fun e => (e.entry.toNat, 2 ^ e.log2)

/-- The table entries the walkers of a die cache for an address (R374), by the lowest bit they index. -/
def State.walkerHeld (s : State) (die ctx va lo : Nat) : Option Nat :=
  (s.tlb.find? fun e => e.serves 2 die ctx va && e.log2 == lo).map fun e => e.entry.toNat

/-- The walk of a die for an address of a context (R375). -/
def State.walkAt (s : State) (die ctx va : Nat) : Except Cause (Nat × Nat) :=
  walkFrom s.mem (s.walkerHeld die ctx va) va walkLevels (s.ctx ctx).ptroot

/-- The entries it looks at. -/
def State.walkPathAt (s : State) (die ctx va : Nat) : List ((Nat × Nat × Nat) × Bool) :=
  walkPath s.mem (s.walkerHeld die ctx va) va walkLevels (s.ctx ctx).ptroot

/-- How a walk ends. -/
def walkEnd : Except Cause (Nat × Nat) → WalkEnd
  | .ok (e, size) => .leaf e size
  | .error .pageFault => .pageFault
  | .error _ => .access

/-- What the accesses that wait for a walk are given; a fault of the walk has no page kind (1 stands for it). -/
def WalkEnd.gives : WalkEnd → Except (Cause × Nat) Leaf
  | .leaf e size => leafOf e size
  | .pageFault => .error (.pageFault, 1)
  | .access => .error (.access, 1)

/-- A miss (R375): the leaf of the walk of that page that its die already has in hand, if it does for the access, else the answer of the walk it makes:
no access faults by what an earlier walk found (R374; log entry 64). -/
def State.missed (s : State) (ctx core va : Nat) (does : Leaf → Bool) : Except (Cause × Nat) Leaf :=
  let fresh := (walkEnd (s.walkAt (dieOf core) ctx va)).gives
  match s.walks.find? fun w => w.die == dieOf core && w.ctx == ctx && w.page == va / 65536 with
  | some w => match w.answer.gives with | .ok l => if does l then .ok l else fresh | .error _ => fresh
  | none => fresh

/-- Translation of a paged address for a core (R371, R374, R375): by the core's TLB, else the cluster's, else a walk. An entry whose rights do
not do for the access is walked afresh, so that widened rights are seen (R374). -/
def State.translate (s : State) (ctx core va : Nat) (does : Leaf → Bool) : Except (Cause × Nat) Leaf :=
  match (s.tlbAt 0 core ctx va).or (s.tlbAt 1 (clusterOf core) ctx va) with
  | some e =>
    match leafOf e.1 e.2 with
    | .ok l => if does l then .ok l else s.missed ctx core va does
    | .error _ => s.missed ctx core va does
  | none => s.missed ctx core va does

/-- The home address of an address in a translated page. A host page lies at its ADDR in host memory (R372). -/
def Leaf.home (l : Leaf) (va : Nat) : Option Nat :=
  let pa := l.pa + va % l.size
  if l.host then some (hostPA pa) else hbmLinear pa

/-! ### Checks of an access -/

/-- What an access needs of a page. -/
inductive Need where
  | read | write | atomic
  deriving DecidableEq, Repr

/-- Whether a page's rights do for an access (R372). -/
def Leaf.allows (l : Leaf) : Need → Bool
  | .read => l.r | .write => l.w | .atomic => l.r && l.w

/-- Who makes an access: its context, its core, its block (R268). -/
structure Agent where
  ctx : Nat
  core : Nat
  bk : Nat
  deriving DecidableEq, Repr

/-- VA[55:32] = 0xFF_FFFF (R52). -/
def isAperture (va : Nat) : Bool := va / 2 ^ 32 % 2 ^ 24 == 0xFFFFFF

/-- The blocks with a footprint in a slice, retained ones included: a suspended block has given its range up (R268, R381). -/
def State.housed (s : State) : List Blk := (s.blocks.map (·.2)).filter fun b => !b.suspended
/-- The blocks of a context with a footprint on a core (R268). -/
def State.blocksOn (s : State) (ctx core : Nat) : List Blk := s.housed.filter fun b => b.ctx == ctx && b.core == core

/-- A range of a slice that a moved footprint has left is redirected to the new one (R383, R384). -/
def State.forwarded (s : State) (ctx core off n : Nat) : Option Nat :=
  s.housed.findSome? fun b =>
    if b.ctx == ctx then
      (b.olds.find? fun o => o.1 == core && decide (o.2 ≤ off ∧ off + n ≤ o.2 + b.fsize)).map fun o => slicePA b.core (b.fbase + (off - o.2))
    else none

/-- A range of the aperture (R51, R52, R268): its home, or APERTURE. -/
def State.aperture (s : State) (ag : Agent) (va n : Nat) : Option Nat :=
  let f := va / 2 ^ 20 % 4096
  let off := va % 2 ^ 20
  if off + n > 2 ^ 20 then none
  else if f = 0xFFF then
    match s.blk ag.bk with
    | some b => if off + n ≤ b.fsize then some (slicePA b.core (b.fbase + off)) else none
    | none => none
  else if 0xFC0 ≤ f ∧ f ≤ 0xFD7 then
    match s.blk ag.bk with
    | none => none
    | some b =>
      if b.clsz = 0 then none
      else
        match s.housed.find? fun o =>
            o.ctx == b.ctx && o.task == b.task && o.bid / b.clsz == b.bid / b.clsz && o.bid % b.clsz == f - 0xFC0 with
        | some o => if off + n ≤ o.fsize then some (slicePA o.core (o.fbase + off)) else none
        | none => none
  else if f < 1152 then
    let bs := s.blocksOn ag.ctx f
    if (List.range n).all fun i => bs.any fun b => decide (b.fbase ≤ off + i ∧ off + i < b.fbase + b.fsize)
    then some (slicePA f off) else s.forwarded ag.ctx f off n
  else none

/-- The parts of an access, checked in ascending address order (R51, R53): fuel at least the number of parts. -/
def State.parts (s : State) (ag : Agent) (need : Need) : Nat → Nat → Nat → Except (Cause × Nat) (List Part)
  | 0, _, _ => .ok []
  | fuel + 1, va, n =>
    if n = 0 then .ok []
    else if isAperture va then
      match s.aperture ag va n with
      | some h => .ok [⟨va, h, n, 1, false, true⟩]
      | none => .error (.aperture, va)
    else
      match s.translate ag.ctx ag.core va fun l => l.allows need with
      | .error (c, _) => .error (c, va)
      | .ok l =>
        if !l.allows need || l.ord == 3 then .error (.access, va)
        else
          match l.home va with
          | none => .error (.access, va)
          | some h =>
            let m := min n (l.size - va % l.size)
            match s.parts ag need fuel (va + m) (n - m) with
            | .error f => .error f
            | .ok ps => .ok (⟨va, h, m, l.ord, l.host, false⟩ :: ps)

/-- The checks of R51 for n bytes at a 64-bit address: the parts, or the first failing check and its address. -/
def State.resolve (s : State) (ag : Agent) (need : Need) (va n : Nat) : Except (Cause × Nat) (List Part) :=
  if va / 2 ^ 56 ≠ 0 ∨ va + n > 2 ^ 56 then .error (.access, va) else s.parts ag need (n + 1) va n

/-- The bytes of resolved parts as one little-endian number, and whether a poisoned line was read. -/
def State.readParts (s : State) : List Part → Nat × Bool
  | [] => (0, false)
  | p :: ps =>
    let (x, z) := s.readParts ps
    (s.mem.readLE p.home p.len + 2 ^ (8 * p.len) * x, s.mem.anyPoison p.home p.len || z)

/-- A byte a cache of a context may read (R38, R315, R323, R393): of an aligned unit that was written while a task of the context ran, as memory
holds it or as the unit stood before one of the writes. Which one is open at every read; `who` tells the readers apart. -/
def State.seenByte (s : State) (ctx who unit pa : Nat) : Nat :=
  let old := s.codeWas.filterMap fun w => if w.1 == ctx && w.2.1 == pa / 64 then some w.2.2 else none
  match old[Config.codeSeen s.clock who (pa / unit) % (old.length + 1)]? with
  | some x => x / 2 ^ (8 * (pa % 64)) % 256
  | none => (s.mem.byte pa).toNat

/-- n bytes as a cache may read them. -/
def State.seenLE (s : State) (ctx who unit pa : Nat) : Nat → Nat
  | 0 => 0
  | n + 1 => s.seenByte ctx who unit pa + 256 * s.seenLE ctx who unit (pa + 1) n

/-- The bytes of resolved parts as a cache may read them, each line whole, and whether a poisoned line was read. -/
def State.seenParts (s : State) (ctx who : Nat) : List Part → Nat × Bool
  | [] => (0, false)
  | p :: ps =>
    let (x, z) := s.seenParts ctx who ps
    (s.seenLE ctx who 64 p.home p.len + 2 ^ (8 * p.len) * x, s.mem.anyPoison p.home p.len || z)

/-- The write bytes of a number over resolved parts. -/
def partBytes (poison : Bool) : List Part → Nat → List (Nat × Byte × Bool)
  | [], _ => []
  | p :: ps, x => leBytes p.home poison p.len x ++ partBytes poison ps (x / 2 ^ (8 * p.len))

/-! ### Performing a write -/

/-- Every path parked in MWAIT on one of the granules has seen it written (R171). -/
def Grp.wakeMwait (granules : List Nat) (g : Grp) : Grp :=
  let one (p : Path) : Path := match p.wait with
    | .mwait h ord v 1 d z => if granules.contains (h / 16) then { p with wait := .mwait h ord v 2 d z } else p
    | _ => p
  { g with paths := g.paths.map one, spilled := g.spilled.map fun e => (e.1, one e.2) }

/-- What a fetch of a context with a RUNNING task may still read of lines that are written now (R38): no code lies in a slice (R37). -/
def State.linesWere (s : State) (lines : List Nat) : List (Nat × Nat × Nat) :=
  let ctxs := ((s.tasks.filter fun (e : Nat × Task) => e.2.status == 3).map fun (e : Nat × Task) => e.1 / 65536).eraseDups
  ctxs.flatMap fun c => (lines.filter fun l => !inSlice (64 * l)).map fun l => (c, l, s.mem.readLE (64 * l) 64)

/-- A field of a tree's configuration (R402), its leaf count, D = ⌈log₂ NLEAF⌉, STAGECAP. -/
def Tree.f (t : Tree) (lo n : Nat) : Nat := (t.cfg.extractLsb' lo n).toNat
def Tree.leaves (t : Tree) : Nat := t.f 128 32 + 1
def Tree.depth (t : Tree) : Nat := Nat.clog 2 t.leaves
def Tree.cap (t : Tree) : Nat := t.f 112 16

/-- The ranges of a tree's arrays and its staging area (R403, R405): address and length. -/
def Tree.ranges (t : Tree) : List (Nat × Nat) :=
  [(t.f 384 64, 8 * t.leaves), (t.f 320 64 + 8, 8 * (2 ^ t.depth - 1)), (t.f 256 64 + 4, 4 * (2 ^ t.depth - 1)), (t.f 192 64, 16 * t.cap)]

/-- Where they lie now, 64 KiB page by page: home and length. -/
def State.treeHomes (s : State) (ctx : Nat) (t : Tree) : List (Nat × Nat) :=
  t.ranges.flatMap fun a =>
    if a.2 = 0 then [] else (List.range ((a.1 + a.2 - 1) / 65536 - a.1 / 65536 + 1)).filterMap fun k =>
      let lo := max a.1 (65536 * (a.1 / 65536 + k))
      let hi := min (a.1 + a.2) (65536 * (a.1 / 65536 + k + 1))
      match s.translate ctx 1152 lo fun _ => true with
      | .ok l => (l.home lo).map fun h => (h, hi - lo)
      | .error _ => none

/-- The built trees whose arrays or staging area hold one of these home addresses (R405). -/
def State.treesAt (s : State) (homes : List Nat) : List (Nat × Nat) :=
  s.ctxs.flatMap fun (e : Nat × Ctx) => (e.2.trees.filter fun (t : Nat × Tree) =>
    t.2.st != 0 && (s.treeHomes e.1 t.2).any fun h => homes.any fun a => decide (h.1 ≤ a ∧ a < h.1 + h.2)).map fun (t : Nat × Tree) => (e.1, t.1)

/-- A write request performed at its homes (R38, R279, R405, R428, R429): memory takes the bytes, and MWAITs on their granules wake. -/
def State.performWrite (s : State) (ws : List (Nat × Byte × Bool)) : State :=
  let gs := (ws.map fun w => w.1 / 16).eraseDups
  { s with
    mem := s.mem.request ws, codeWas := s.codeWas ++ s.linesWere (ws.map fun w => w.1 / 64).eraseDups
    spoiled := s.spoiled ++ s.treesAt (ws.map (·.1)), groups := s.groups.map fun e => (e.1, e.2.wakeMwait gs) }

/-- The parts of a range of the save area: mapped and allowed, on pages with ORD 00 or 01 and HOST = 0 (R370). -/
def State.frameParts (s : State) (ag : Agent) (need : Need) (va n : Nat) : Option (List Part) :=
  match s.resolve ag need va n with
  | .ok ps => if ps.all fun p => !p.host && !p.aper && decide (p.ord ≤ 1) then some ps else none
  | .error _ => none

/-- n bytes written to the save area; none where they cannot be (R370). -/
def State.frameWrite (s : State) (ag : Agent) (va n x : Nat) : Option State :=
  (s.frameParts ag .write va n).map fun ps => s.performWrite (partBytes false ps x)

/-- An engine's or the control processor's write of n bytes at a virtual address, performed at once; none where a check fails. -/
def State.storeNow (s : State) (ag : Agent) (va n x : Nat) (poison : Bool) : Except (Cause × Nat) State :=
  match s.resolve ag .write va n with
  | .error c => .error c
  | .ok ps => .ok (s.performWrite (partBytes poison ps x))

/-- A read of n bytes at a virtual address, made at once. -/
def State.loadNow (s : State) (ag : Agent) (va n : Nat) : Except (Cause × Nat) (Nat × Bool) :=
  match s.resolve ag .read va n with
  | .error c => .error c
  | .ok ps => .ok (s.readParts ps)

end Sys2Proof.Machine
end

