-- ==== Sys2Proof/Machine/Ops.lean ====
section
/-! DEFINITION. The named operations on paths: the path table and the spill area (R245 to R249), taking a trap (R54, R260, R262) and
returning from its handler (R261), advancing a path past an instruction (R28, R36). -/
namespace Sys2Proof.Machine
open Sys2Proof

/-! ### Spill records (R249) -/

/-- REASON of a wait. -/
def Wait.reason : Wait → Nat
  | .none => 0 | .join => 1 | .barWord _ _ => 2 | .named _ _ => 2 | .hbar _ _ => 3 | .doomed r _ => r | .ldpoll _ _ _ => 4 | .mwait _ _ _ _ _ _ => 5
  | .swaitp _ _ _ => 6 | .stfe _ => 7 | .xsend _ => 8 | .waitr _ => 9 | .ewait _ _ => 10 | .msync _ _ => 10 | .waitblk _ => 11
  | .racq => 12 | .wwait _ _ _ => 13 | .ffence _ _ => 13 | .conv => 14 | .handler _ _ _ => 15 | .escalated _ => 16 | .debug _ => 17

/-- ARG of a wait: the operand captured at issue. -/
def Wait.arg : Wait → Nat
  | .barWord _ ph => ph.toNat | .named _ ph => ph.toNat | .hbar sc _ => sc | .ldpoll _ k _ => k | .mwait _ _ v _ _ _ => v.toNat
  | .swaitp _ b ph => 2 * b + ph.toNat | .ewait c n => c * 2 ^ 32 + n | .msync b _ => b | .waitblk n => n | .wwait _ _ n => n
  | .ffence _ p => p | .escalated t => t | _ => 0

/-- STATE of a spill record (R249). -/
def PState.code : PState → Nat | .free => 0 | .live => 1 | .parked => 2 | .stopped => 3

/-- The 32-byte record of a path (R249). -/
def Path.record (now : Nat) (p : Path) : Nat :=
  p.mask.toNat + 2 ^ 96 * (p.wait.arg % 2 ^ 64) + 2 ^ 160 * (p.pc.toNat % 2 ^ 56) + 2 ^ 224 * ((p.ready - now) % 32)
    + 2 ^ 229 * p.st.code + 2 ^ 231 * p.hnd.toNat + 2 ^ 232 * p.wait.reason

def Ctx.savebase (c : Ctx) : Nat := (c.desc.extractLsb' 800 64).toNat
/-- Where record k of a group's spill area lies (R370). -/
def State.spillVA (s : State) (g : Grp) (b : Blk) (k : Nat) : Nat :=
  (s.ctx b.ctx).savebase + b.frame * 2 ^ 22 + 2 ^ 16 * g.gix + 0xC000 + 32 * (k % 88)

/-- The agent of a block's accesses. -/
def Grp.agent (g : Grp) (b : Blk) : Agent := ⟨b.ctx, b.core, g.blk⟩

/-- The lowest record of a group's spill area that holds no path (R370). -/
def Grp.freeRecord (g : Grp) : Nat := ((List.range 88).find? fun k => g.spillRecs.all fun r => r.1 != k).getD 0

/-- A path goes out to the spill area (R247). Its record is written once no fixed-latency write of its threads is pending (R31), to where it lies now,
so that no fault comes after this check (log entry 90); afterwards none is pending, so the path keeps no static distance. None where the
record cannot be written (R248). -/
def State.spillPath (s : State) (gk : Nat) (p : Path) : Option State :=
  match s.grp gk with
  | none => none
  | some g =>
    match s.blk g.blk with
    | none => none
    | some b =>
      match s.frameParts (g.agent b) .write (s.spillVA g b g.freeRecord) 32 with
      | none => none
      | some ps => some (s.setGrp gk { g with
          spilled := g.spilled ++ [(s.clock, { p with dist := [] })], spillRecs := g.spillRecs ++ [(g.freeRecord, none, ps)] })

/-! ### The save area (R370) -/

/-- An argument of the command in progress (R369), and of the debug command in progress (R443): what was there when it was started. -/
def Dev.carg (d : Dev) (k : Nat) : DWord := d.cargs.getD k 0
def Dev.dcarg (d : Dev) (k : Nat) : DWord := d.dcargs.getD k 0

/-- An offset in a block's frame (R370). -/
def State.frameVA (s : State) (b : Blk) (off : Nat) : Nat := (s.ctx b.ctx).savebase + b.frame * 2 ^ 22 + off
/-- Who saves and restores a block. -/
def Blk.saver (b : Blk) (bk : Nat) : Agent := ⟨b.ctx, b.core, bk⟩
/-- The offset in the frame of a group's base rows, and of its other state (R370). -/
def Grp.rowsAt (g : Grp) : Nat := 2 ^ 16 * g.gix
def Grp.restAt (g : Grp) : Nat := 2 ^ 16 * g.gix + 0xD000

/-- n free bytes as a number. -/
def State.drawBytes (s : State) (n : Nat) : Nat × State :=
  ((List.range ((n + 63) / 64)).foldr (fun i x => (Config.freeValue (s.free + i)).toNat + 2 ^ 512 * x) 0 % 2 ^ (8 * n), { s with free := s.free + (n + 63) / 64 })

/-- An area of n bytes of a block's frame is saved: what its layout gives, m bytes, stands first; the layout of the rest is open, so that its bytes are
free values; and the block remembers them (log entry 20). -/
def State.saveArea (s : State) (bk off n m x : Nat) : Option State :=
  match s.blk bk with
  | none => none
  | some b =>
    let (y, s1) := s.drawBytes (n - m)
    let w := x % 2 ^ (8 * m) + 2 ^ (8 * m) * y
    (s1.frameWrite (b.saver bk) (s.frameVA b off) n w).map fun s2 => s2.updBlk bk fun b => { b with images := SMap.put b.images off w }
/-- The same of an area whose layout is wholly open. -/
def State.saveOpen (s : State) (bk off n : Nat) : Option State := s.saveArea bk off n 0 0

/-- The R249 records of a group's table entries, 32 bytes each in the entries' order, zero for a FREE one (R370, R379, R448). -/
def Grp.records (g : Grp) (now : Nat) : Nat :=
  (List.range 8).foldr (fun i x => (if (g.path i).st == .free then 0 else (g.path i).record now % 2 ^ 256) + 2 ^ 256 * x) 0
/-- The area of a group's other state is saved: the records of its table entries stand first in it (DESIGN CHOICE: R370 gives their place in the area no
offset; log entry 20). -/
def State.saveRest (s : State) (gk : Nat) : Option State :=
  (s.grp gk).bind fun g => s.saveArea g.blk g.restAt 4096 256 (g.records (if g.resident then s.clock else 0))

/-! ### Pending fixed-latency results of a path (R31) -/

/-- The latest clock at which a pending fixed-latency result of the path's threads becomes readable. -/
def Grp.fixedUntil (g : Grp) (m : Mask) : Nat :=
  (g.fixed.filter fun f => f.mask &&& m != 0).foldl (fun n f => max n f.ready) 0

/-! ### The path table (R246, R247) -/

/-- The lowest FREE entry. -/
def Grp.freeEntry (g : Grp) : Option Nat := (List.range 8).find? fun i => (g.path i).st == .free

/-- The victim of R247: the least recently issued of the candidates, of equal stamps the higher index. -/
def Grp.victim (g : Grp) (cand : Nat → Path → Bool) : Option Nat :=
  (List.range 8).foldl (fun best i =>
    if cand i (g.path i) then
      match best with
      | none => some i
      | some j => if (g.path i).stamp ≤ (g.path j).stamp then some i else some j
    else best) none

/-- A split, a merge or a handler entry of a path with these threads (R287): every access its group's paths made before comes before
later accesses of any of the threads to the same bytes; `join` makes the earlier accesses those of the merged path. -/
def State.orderPaths (s : State) (gk : Nat) (m : Mask) (join : Bool) : State :=
  { s with reqs := s.reqs.map fun r =>
      if r.gk == gk && r.mask &&& m != 0 then { r with sync := r.sync ||| m, mask := if join then r.mask ||| m else r.mask } else r }

/-- A path enters the path table for the need of entry `cause` (R247): into a FREE entry, else in place of a PARKED or STOPPED
victim, whose record must first be written (R31), else into the spill area. None where a spill write faults. -/
def State.addPath (s : State) (gk cause : Nat) (p : Path) : Option State :=
  match s.grp gk with
  | none => none
  | some g =>
    let s := s.orderPaths gk (p.mask ||| (g.path cause).mask) false
    match g.freeEntry with
    | some i => some (s.setGrp gk (Path.set g i p))
    | none =>
      match g.victim fun i q => i != cause && (q.st == .parked || q.st == .stopped) with
      | some i =>
        match s.spillPath gk (g.path i) with
        | none => none
        | some s1 => some (s1.updPath gk i fun _ => { p with ready := max p.ready (g.fixedUntil (g.path i).mask) })
      | none => s.spillPath gk p

/-- Several paths enter in order (R105). -/
def State.addPaths (s : State) (gk cause : Nat) : List Path → Option State
  | [] => some s
  | p :: ps => match s.addPath gk cause p with | some s1 => s1.addPaths gk cause ps | none => none

/-! ### Taking a trap (R54, R260, R262) -/

/-- Whether some path of the group runs the handler (R260). -/
def Grp.inHandler (g : Grp) : Bool := g.paths.any (fun p => p.st != .free && p.hnd) || g.spilled.any fun e => e.2.hnd

/-- The trap registers after a trap (R54, R111): INFO is what the trap's own rule puts there (R112, R195, R204, R209, R241), though R111 has it 0 for
causes other than SWTRAP and BKPT (DESIGN CHOICE, log entry 115). -/
def Grp.writeTrap (g : Grp) (t : Trap) (pc : DWord) (m : Mask) : Grp :=
  { g with trapCause := BitVec.ofNat 32 (t.cause % 256 + 256 * (t.info % 2 ^ 16)), trapPc := pc, trapMask := m }

/-- The path runs the handler: HND, PC := TVEC, LIVE with its countdown spent once its pending results are readable (R31, R260). -/
def Path.enter (p : Path) (tvec : DWord) (ready : Nat) : Path :=
  { p with st := .live, hnd := true, pc := tvec, ready := ready, wait := .none, dist := [], exempt := false, step := if p.step = 1 then 2 else p.step }

/-- The record of an escalated trap (R262, R386). -/
def escalationRec (g : Grp) (b : Blk) (pi : Nat) (p : Path) (t : Trap) (m : Mask) (va tag : Nat) : Rec :=
  { recOf g b with kind := 1, cause := t.cause, info := t.info, pc := p.pc, mask := m, path := pi, tag := tag, va := va }

/-- Escalation (R262): the path stops with reason 16 and its record goes through the coalescer. -/
def State.escalate (s : State) (gk pi : Nat) (t : Trap) (m : Mask) (va : Nat) : State :=
  match s.grp gk with
  | none => s
  | some g =>
    match s.blk g.blk with
    | none => s
    | some b =>
      let (tag, s1) := s.coalesce b.core (escalationRec g b pi (g.path pi) t m va s.seq)
      { s1 with seq := s1.seq + 1 }.updPath gk pi fun p => { p with st := .stopped, wait := .escalated tag }

/-- The exception entry, shared by every trap (R260): the path, which holds exactly the failing threads, enters the handler, or
queues for it, or is escalated. `va` is the faulting address a record would carry. -/
def State.trapEntry (s : State) (gk pi : Nat) (t : Trap) (m : Mask) (va : Nat) : State :=
  match s.grp gk with
  | none => s
  | some g =>
    match s.blk g.blk with
    | none => s
    | some b =>
      let tvec := (s.ctx b.ctx).tvec
      if (g.path pi).hnd then s.escalate gk pi t m va
      else if tvec == 0 then (s.setGrp gk (g.writeTrap t (g.path pi).pc m)).escalate gk pi t m va
      else if g.inHandler then
        s.updPath gk pi fun p => { p with st := .parked, wait := .handler t.cause t.info m, dist := [] }
      else
        let p := g.path pi
        (s.orderPaths gk p.mask false).setGrp gk
          ((Path.set g pi (p.enter tvec (max s.clock (g.fixedUntil p.mask)))).writeTrap t p.pc m)

/-- A wait of a path of the group has completed, which is progress (R251). -/
def State.waitOver (s : State) (gk : Nat) : State := s.updGrp gk fun g => { g with progress := 0, issued := false }

/-- When no path of the group runs the handler, the next of the queue enters it (R260). -/
def State.handlerNext (s : State) (gk : Nat) : State :=
  match s.grp gk with
  | none => s
  | some g =>
    if g.inHandler then s
    else
      let queued := (List.range 8).filter fun i => match (g.path i).wait with | .handler _ _ _ => (g.path i).st == .parked | _ => false
      let best := queued.foldl (fun b i => match b with
        | none => some i
        | some j => if (g.path i).pc.toNat < (g.path j).pc.toNat then some i else some j) (none : Option Nat)
      match best with
      | none => s
      | some i =>
        match (g.path i).wait with
        | .handler c info m => ((s.updPath gk i fun p => { p with wait := .none }).waitOver gk).trapEntry gk i ⟨c, info⟩ m noVa
        | _ => s

/-- The return from the handler (R261): HND clears after the transfer, and the queued path with the lowest PC, ties to the lower
index, enters when no path runs the handler any more (R260). -/
def State.handlerReturn (s : State) (gk pi : Nat) : State :=
  (s.updPath gk pi fun p => { p with hnd := false }).handlerNext gk

/-! ### Finishing an instruction -/

/-- The path after an instruction that goes on at `pc`: its countdown runs (R28), its static distances grow (R30). -/
def Path.step' (p : Path) (now : Nat) (stall : Nat) (pc : DWord) (produced : List Dist) : Path :=
  let older := (p.dist.filter fun d => produced.all fun n => n.reg != d.reg).map fun d => { d with dist := d.dist + stall }
  { p with
    pc := pc, ready := now + stall, stamp := now, exempt := false, step := if p.step = 1 then 2 else p.step
    dist := (older ++ produced).filter fun d => d.dist < d.lat }

end Sys2Proof.Machine
end

