-- ==== Sys2Proof/Machine/Issue.lean ====
section
/-! DEFINITION. Issuing an instruction: the checks of R34, committing a fixed-latency result (R29, R54, R89, R466) or the pending marks
of a variable-latency one (R32), and the path's way on or into the trap. -/
namespace Sys2Proof.Machine
open Sys2Proof Host

/-! ### The registers an instruction names -/

/-- The registers an operand names (R33). -/
def Opnd.regs (g : Grp) : Opnd → List DReg
  | .lane f unit len _ _ => (List.range len).map fun i => .v (unit * g.num f + i)
  | .quad f _ _ => (List.range 4).map fun i => .v (2 * g.num f + i)
  | .uni f len _ _ => (List.range len).map fun i => .s (f.toNat + i)
  | .pred k _ p _ => if k = 1 then [] else [.p p.toNat]
  | .upred k _ p _ => if k = 1 then [] else [.q p.toNat]
  | .idx f _ => [.x f.toNat]

/-- The index register an indirect operand reads. -/
def Opnd.indexReg : Opnd → List DReg
  | .lane f _ _ _ _ | .quad f _ _ => if f.toNat < 64 then [] else [.x (f.toNat / 16 % 4)]
  | _ => []

def Opnd.isRead : Opnd → Bool
  | .lane _ _ _ r _ | .quad _ r _ | .uni _ _ r _ => r
  | .pred _ _ _ w | .upred _ _ _ w => !w
  | .idx _ w => !w
def Opnd.isWritten : Opnd → Bool
  | .lane _ _ _ _ w | .quad _ _ w | .uni _ _ _ w => w
  | .pred _ _ _ w | .upred _ _ _ w => w
  | .idx _ w => w

def readRegs (g : Grp) (i : Instr) : List DReg :=
  (operands i).flatMap fun o => (if o.isRead then o.regs g else []) ++ o.indexReg
/-- A slot as a command accepted now sees it (R180, R192): LOADING from the acceptance of a BLD, with its format block, K and N. -/
def Matrix.seen (m : Matrix) (bk slot : Nat) : Option MSlot :=
  match m.cmds.reverse.find? fun c => c.kind == .bld && c.bk == bk && c.slot == slot with
  | some c =>
    let a := halfA c.fmt; let b := halfB c.fmt
    let k := (c.ctl.extractLsb' 0 12).toNat + 1
    some ⟨1, c.fmt, k, if b.sparse = 0 then k else k * b.sparse / 128, (c.ctl.extractLsb' 12 10).toNat + 1, modeOf a b, [], [], false, 0⟩
  | none => SMap.find? m.slots (16 * bk + slot)

/-- Registers of the A span of an MMAQ (R199): ⌈K × bits / 32⌉ by the slot's recorded A format. -/
def Env.qspan (e : Env) (slot k : Nat) : Nat :=
  match (e.s.core e.b.core).mx.seen e.g.blk slot with
  | some x => (k * (halfA x.fmt).elem.bits + 31) / 32
  | none => 0

/-- The registers an instruction reads, with the A span of an MMAQ. -/
def Env.reads (e : Env) (i : Instr) : List DReg :=
  readRegs e.g i ++ (match i with
    | .mmaq _ _ a _ slot km _ _ =>
      (if a.toNat < 64 then [] else [.x (a.toNat / 16 % 4)]) ++
        (List.range (e.qspan slot.toNat (km.toNat + 1))).map fun k => .v (e.g.num a + k)
    | _ => [])

def writtenRegs (g : Grp) (i : Instr) : List DReg := (operands i).flatMap fun o => if o.isWritten then o.regs g else []

/-! ### The checks of R34 -/

/-- A v register inside the group's allotment (R33): the base set, or the extended set while the group holds it (R118). -/
def allotted (g : Grp) (b : Blk) (r : Nat) : Bool :=
  decide (r < b.regs) || (decide (128 ≤ r ∧ r < 128 + b.xregs) && b.holder == some g.gix)

def Opnd.inBounds (g : Grp) (b : Blk) (o : Opnd) : Bool :=
  match o with
  | .lane f _ _ _ _ | .quad f _ _ =>
    g.idxOk f && (o.regs g).all fun r => match r with | .v n => allotted g b n | _ => true
  | _ => true

/-- A quad whose number, direct or indirect, is odd (R148). -/
def Opnd.oddQuad (g : Grp) : Opnd → Bool
  | .quad f _ _ => g.num f % 2 == 1
  | _ => false

/-- Whether checking is on for a block (R30): by its context at placement, or under DET. -/
def Blk.checking (b : Blk) : Bool := b.check || b.det

/-- The checks of R34, 1 to 4, in order, and the reads of damaged predicates and index registers (R436). -/
def Env.issueTrap (e : Env) (i : Instr) : Option Trap :=
  if !fieldsLegal i || (operands i).any (Opnd.oddQuad e.g) then some (trap .illop)
  else if (match opcode i with | some o => !roleAllows (e.b.roles.getD e.g.gix 0) o | none => false) then some (trap .role)
  else if !(operands i).all (Opnd.inBounds e.g e.b)
    || (match i with | .mmaq _ _ a _ _ _ _ _ => !e.g.idxOk a || (e.reads i).any (fun r => match r with | .v n => !allotted e.g e.b n | _ => false) | _ => false)
    then some (trap .regBounds)
  else if e.b.checking && e.p.dist.any (fun d => (e.reads i ++ writtenRegs e.g i).contains d.reg) then some (trap .stallShort)
  else if (e.reads i).any e.g.damaged.contains then some (trap .poison)
  else none

/-! ### Interlocks, for readiness (R23, R31, R32, R113) -/

/-- The special registers an instruction reads that SWRITE writes (R113, R120, R173, R328): by number. The enables of FLAGS, which decide
whether a floating-point instruction traps FPEXC (R89), count as no read of FLAGS: the instruction issues, under the enables in force
(DESIGN CHOICE: R113 says only 'reads the register written'; log entry 91). -/
def readsSpecial (i : Instr) : List Nat :=
  match i with
  | .sread _ _ n | .sreadU _ _ n => [n.toNat]
  | .vote _ _ _ _ _ _ | .shfl _ _ _ _ _ | .pushl _ _ _ _ => [0x1A]
  | .tred _ _ _ _ => [0x1A, 0x1B]
  | _ =>
    match opcode i with
    | some (false, op) => if (0x20 ≤ op ∧ op < 0x30) ∨ (0x3C ≤ op ∧ op < 0x50) ∨ op = 0x69 ∨ op = 0x6F ∨ op = 0x77 then [0x1B] else []
    | some (true, op) => if (0x20 ≤ op ∧ op < 0x30) ∨ op = 0x4A ∨ op = 0x4B ∨ op = 0x4D ∨ op = 0x52 then [0x1B] else []
    | none => []

/-- The thread RDLANE waits for (R32, R103). -/
def rdlaneMask (i : Instr) (m : Mask) : Mask :=
  match i with | .rdlane _ _ _ t => BitVec.ofNat 96 (2 ^ t.toNat) | _ => m

/-- The marks of variable-latency destinations the path's next instruction waits for (R32). -/
def Env.awaits (e : Env) (i : Instr) : List Pend :=
  let rs := e.reads i ++ writtenRegs e.g i
  let m := rdlaneMask i e.p.mask
  e.g.pend.filter fun p =>
    match p.reg with
    | .s _ | .q _ => rs.contains p.reg
    | .handler => p.mask &&& e.p.mask != 0
    | _ => rs.contains p.reg && p.mask &&& m != 0

/-- Whether the path's next instruction waits for a fixed-latency write: one that would land after its own (R31), or an SWRITE of a special
register it reads (R113). A write of variable latency has no time of its own before it comes: it is taken to land at once, so that the
instruction waits for any older fixed write of its destination (DESIGN CHOICE, log entry 113). -/
def Env.fixedHeld (e : Env) (i : Instr) : Bool :=
  let ws := writtenRegs e.g i
  let m := rdlaneMask i e.p.mask
  let lat := fixedLatency i
  let later := e.g.fixed.any fun f => f.ready > e.s.clock + lat && f.mask &&& e.p.mask != 0 && ws.any fun r =>
    match r with
    | .v n => f.vw.any fun w => w.1 / 128 == n && m.getLsbD (w.1 % 128)
    | .s n => f.sw.any fun w => w.1 == n
    | .p n => f.pw.any fun w => w.1 / 128 == n && m.getLsbD (w.1 % 128)
    | .q n => f.qw.any fun w => w.1 == n
    | .x n => f.xw.any fun w => w.1 == n
    | .handler => false
  let special := e.g.fixed.any fun f => match f.spec with | some (n, _) => (readsSpecial i).contains n | none => false
  later || special

/-! ### Going on -/

/-- The mode of an arithmetic instruction (R120): RMODE.MODE, RNE where it holds RNA. -/
def arithMode (g : Grp) : RMode :=
  match (g.rmode.extractLsb' 0 3).toNat with | 1 => .rtz | 2 => .rup | 3 => .rdn | _ => .rne

/-- The static distances an instruction starts (R30): one entry for each register it will write with a fixed latency. -/
def Env.produced (e : Env) (i : Instr) : List Dist :=
  match latencyOf i with
  | .fixed n => (writtenRegs e.g i).map fun r => ⟨r, stallClocks i, n⟩
  | _ => []

/-- The path goes on at `pc` after instruction i. -/
def Env.advance (e : Env) (i : Instr) (pc : DWord) (p : Path) : Path := p.step' e.s.clock (stallClocks i) pc (e.produced i)

/-- PC of the next sequential instruction (R36). -/
def Env.nextPc (e : Env) (i : Instr) : DWord := e.p.pc + BitVec.ofNat 64 i.length

/-- Threads that fail, with their trap and the faulting address a record would carry. -/
abbrev Fails := List (Nat × Trap × Nat)

/-- All active threads of the issuing path stop with a trap and nothing else happens (R34, R54). -/
def Env.trapAll (e : Env) (t : Trap) (va : Nat := noVa) : State := e.s.trapEntry e.gk e.pi t e.p.mask va

/-- The lowest faulting address over the threads a trap's mask names (R386). -/
def lowestVa (fails : Fails) : Nat :=
  match fails with | [] => 0 | f :: r => r.foldl (fun m x => min m x.2.2) f.2.2

/-- The end of an instruction whose effects for the threads that do not fail stand in `s1` (R54): those threads go on as `mk` makes
of the issuing path; the failing threads stay as the path, which traps with the cause of the lowest-numbered of them. A spill that
faults undoes all (R248). -/
def Env.finishAs (e : Env) (mk : Path → Path) (fails : Fails) (s1 : State) : State :=
  match fails with
  | [] => s1.updPath e.gk e.pi mk
  | (_, t, _) :: _ =>
    let fm := maskOf (fails.map (·.1))
    let named := fails.filter fun f => f.2.1.cause == t.cause
    let tm := maskOf (named.map (·.1))
    let ok := e.p.mask &&& ~~~fm
    if ok = 0 then s1.trapEntry e.gk e.pi t tm (lowestVa named)
    else
      match (s1.updPath e.gk e.pi fun p => { p with mask := fm }).addPath e.gk e.pi (mk { e.p with mask := ok }) with
      | some s2 => s2.trapEntry e.gk e.pi t tm (lowestVa named)
      | none => e.trapAll (trap .spillFault)

/-- The end of an instruction whose effects for the threads that do not fail stand in `s1` (R54): those threads go on at `pc`; the
failing threads stay as the path, which traps with the cause of the lowest-numbered of them. A spill that faults undoes all (R248). -/
def Env.finish (e : Env) (i : Instr) (pc : DWord) (fails : Fails) (s1 : State) : State :=
  e.finishAs (e.advance i pc) fails s1

/-! ### Chorus destinations (R203, R204) -/

/-- The threads whose lane registers an instruction reads: the active ones, for RDLANE the one it names if active. -/
def Env.readers (e : Env) (i : Instr) : List Nat := threadsOf (rdlaneMask i e.p.mask &&& e.p.mask)

/-- The trap of reading a faulted destination for a thread: NEVAL_DEFERRED with a Chorus cause as INFO, or what cause − 256 names (an XRECV
whose peer exited, R178; an LDFE that met poison, R430). -/
def Env.deferred (e : Env) (i : Instr) (t : Nat) : Option Trap :=
  (e.reads i).findSome? fun r =>
    match r with
    | .v n => (SMap.find? e.g.faulted (128 * n + t)).map fun c =>
        if 256 ≤ c.1 then ⟨c.1 - 256, 0⟩ else trapI .nevalDeferred c.1
    | _ => none

/-- Whether an active thread of an instruction leaves its destination as it is: CMOV with a false predicate (R102), HITC of a thread whose
traversal waits at no candidate (R214). -/
def Env.keepsDest (e : Env) (i : Instr) (t : Nat) : Bool :=
  match i with
  | .cmov _ _ k n p _ => !e.pred k n p t
  | .hitc _ _ _ _ => match SMap.find? e.g.travs t with | some x => x.due || x.cand.isNone | none => true
  | _ => false

/-- The group after the flags of Chorus rows whose destinations are read are ORed in, faulted destinations of the NEVALs for which the threads
`tm` of TRAPMASK trap now are no longer faulted, and those that threads outside `bad`, the threads that trap, write are cleared (R203, R204).
A thread that traps for another cause than TRAPMASK's traps again (R54). A register written over since its row came still delivers the row's
flags when it is read (DEDUCED: R203 names the first read of a destination; log entry 117). -/
def Env.seeChorusBut (e : Env) (i : Instr) (tm bad : Mask) (g : Grp) : Grp :=
  if g.rowFlags.isEmpty && g.faulted.isEmpty then g
  else
    let rs := e.reads i; let ws := writtenRegs e.g i
    let ts := e.readers i
    let seen := g.rowFlags.filter fun r => ts.contains r.2.1 && r.2.2.1.any fun n => rs.contains (.v n)
    let fl := seen.foldl (fun f r => f ||| r.2.2.2) (0 : BitVec 6)
    let nevals := (ts.filter tm.getLsbD).flatMap fun t => (rs.filterMap fun r => match r with
      | .v n => (SMap.find? g.faulted (128 * n + t)).map fun c => (t, c.2) | _ => none)
    let gone (k : Nat) (c : Nat × Nat) : Bool :=
      nevals.contains (k % 128, c.2) || (ts.contains (k % 128) && !bad.getLsbD (k % 128) && ws.contains (.v (k / 128)) && !e.keepsDest i (k % 128))
    { g with
      flags := g.flags ||| fl.setWidth 14
      rowFlags := g.rowFlags.filter fun r => !seen.contains r
      faulted := g.faulted.filter fun k => !gone k.1 k.2 }

/-- The same where no thread traps. -/
def Env.seeChorus (e : Env) (i : Instr) (g : Grp) : Grp := e.seeChorusBut i 0 0 g

/-- The threads that trap, and those of them that TRAPMASK names: the ones with the cause of the lowest-numbered (R54). -/
def Fails.mask (fails : Fails) : Mask := maskOf (fails.map (·.1))
def Fails.named (fails : Fails) : Mask :=
  match fails with | [] => 0 | (_, t, _) :: _ => maskOf ((fails.filter fun f => f.2.1.cause == t.cause).map (·.1))
/-- What an instruction with these failing threads does to Chorus destinations. -/
def Env.seeFails (e : Env) (i : Instr) (fails : Fails) (g : Grp) : Grp := e.seeChorusBut i fails.named fails.mask g

/-! ### Lane instructions with a fixed latency -/

/-- What a lane instruction does for one thread: its trap, or its writes (register number and value), predicate writes and flags. -/
structure TRes where
  err : Option Trap := none
  vw : List (Nat × RegVal) := []
  pw : List (Nat × Bool) := []
  fl : Flags := 0
  /-- an SR rounding was made for the thread (R83) -/
  srn : Bool := false

/-- The enables of FLAGS (R86). -/
def Grp.enables (g : Grp) : BitVec 6 := g.flags.extractLsb' 8 6

/-- The per-thread results, with FPEXC for a thread that raises an enabled flag (R89) and the deferred Chorus trap before all. -/
def Env.laneResults (e : Env) (i : Instr) (f : Env → Nat → TRes) : List (Nat × TRes) :=
  (threadsOf e.p.mask).map fun t =>
    match e.deferred i t with
    | some tr => (t, { err := some tr })
    | none =>
      let r := f e t
      if r.err.isNone && r.fl &&& e.g.enables != 0 then (t, { err := some (trap .fpexc), fl := r.fl }) else (t, r)

def failsOf (rs : List (Nat × TRes)) : Fails := rs.filterMap fun r => r.2.err.map fun t => (r.1, t, noVa)

/-- The flags raised: of the threads that commit and of those that trap FPEXC (R87, R89). -/
def flagsOf (rs : List (Nat × TRes)) : Flags :=
  rs.foldl (fun f r => match r.2.err with
    | none => f ||| r.2.fl | some t => if t.cause == Cause.fpexc.code then f ||| r.2.fl else f) 0

/-- Whether a thread leaves nothing pending: it traps, and not FPEXC (R31, R89). -/
def TRes.stops (r : TRes) : Bool := match r.err with | some t => t.cause != Cause.fpexc.code | none => false
def stoppedOf (rs : List (Nat × TRes)) : Mask := maskOf ((rs.filter fun r => r.2.stops).map (·.1))

/-- The pending fixed-latency result of a lane instruction. -/
def laneFix (ready : Nat) (m : Mask) (rs : List (Nat × TRes)) : FixRes :=
  let ok := rs.filter fun r => r.2.err.isNone
  { ready := ready, mask := m &&& ~~~stoppedOf rs
    vw := ok.flatMap fun r => r.2.vw.map fun w => (128 * w.1 + r.1, w.2)
    sw := [], qw := [], xw := []
    pw := ok.flatMap fun r => r.2.pw.map fun w => (128 * w.1 + r.1, w.2)
    flags := flagsOf rs, spec := none }

/-- The SR sequences after an instruction that rounded SR for the threads (R83). -/
def bumpSeq (m : SMap Word) (ts : List Nat) : SMap Word := ts.foldl (fun m t => SMap.upd 0 m t (· + 1)) m

/-- A lane instruction with a fixed-latency result (R29, R466): its results become readable after its latency. -/
def issueLane (i : Instr) (f : Env → Nat → TRes) (s : State) : Outcome State Fault Refusal :=
  match s.env with
  | none => .next s
  | some e =>
    match e.issueTrap i with
    | some t => .next (e.trapAll t)
    | none =>
      let rs := e.laneResults i f
      let fix := laneFix (s.clock + fixedLatency i) e.p.mask rs
      .next (e.finish i (e.nextPc i) (failsOf rs) (s.updGrp e.gk fun g =>
        let g := e.seeFails i (failsOf rs) g
        { g with fixed := g.fixed ++ (if fix.mask = 0 then [] else [fix]), srn := bumpSeq g.srn ((rs.filter fun r => r.2.srn).map (·.1)) }))

/-! ### Lane instructions with a variable latency -/

/-- The pending marks of an instruction's destinations (R32). -/
def marksOf (id : Nat) (cls : OpClass) (rs : List (Nat × TRes)) : List Pend :=
  let ok := rs.filter fun r => r.2.err.isNone
  let regs := (ok.flatMap fun r => r.2.vw.map (·.1)).eraseDups
  regs.map fun n => ⟨.v n, maskOf ((ok.filter fun r => r.2.vw.any fun w => w.1 == n).map (·.1)), id, cls⟩

/-- What keeps the handler of the threads that trap FPEXC waiting until their flags are ORed in (R89, R466; log entry 92). -/
def fpexcMarks (id : Nat) (cls : OpClass) (rs : List (Nat × TRes)) : List Pend :=
  let ts := (rs.filter fun r => r.2.err.isSome && !r.2.stops).map (·.1)
  if ts.isEmpty then [] else [⟨.handler, maskOf ts, id, cls⟩]

/-- A lane instruction whose results arrive after a time that is not fixed (R32): destinations pending, the result on its way, and with it
the flags of every thread that commits or traps FPEXC (R466), and of a texture lookup what is still to be read. -/
def issueLookup (i : Instr) (cls : OpClass) (looks : Env → Nat → Option Look) (f : Env → Nat → TRes) (s : State) : Outcome State Fault Refusal :=
  match s.env with
  | none => .next s
  | some e =>
    match e.issueTrap i with
    | some t => .next (e.trapAll t)
    | none =>
      let rs := e.laneResults i f
      let ok := rs.filter fun r => r.2.err.isNone
      let live := rs.filter fun r => !r.2.stops
      let res : Result :=
        { id := s.seq, gk := e.gk, cls := cls, mask := maskOf (live.map (·.1))
          vw := ok.flatMap fun r => r.2.vw.map fun w => (128 * w.1 + r.1, w.2)
          sw := [], flags := flagsOf rs, looks := ok.filterMap fun r => looks e r.1 }
      let s1 := s.updGrp e.gk fun g =>
        let g := e.seeFails i (failsOf rs) g
        { g with pend := g.pend ++ (marksOf s.seq cls rs ++ fpexcMarks s.seq cls rs) }
      .next (e.finish i (e.nextPc i) (failsOf rs)
        { s1 with seq := s1.seq + 1, results := if live.isEmpty then s1.results else s1.results ++ [res] })

/-- The same with every value at hand at issue. -/
def issueVariable (i : Instr) (cls : OpClass) (f : Env → Nat → TRes) (s : State) : Outcome State Fault Refusal :=
  issueLookup i cls (fun _ _ => none) f s

/-! ### Uniform instructions with a fixed latency -/

/-- A pending fixed-latency result added to a group. -/
def State.addFix (s : State) (gk : Nat) (f : FixRes) : State := s.updGrp gk fun g => { g with fixed := g.fixed ++ [f] }

/-- What a uniform instruction does, once for the path. -/
structure URes where
  err : Option Trap := none
  sw : List (Nat × RegVal) := []
  qw : List (Nat × Bool) := []
  xw : List (Nat × Word) := []
  fl : Flags := 0
  srn : Bool := false
  spec : Option (Nat × Word) := none

def URes.fix (r : URes) (ready : Nat) (m : Mask) : FixRes :=
  { ready := ready, mask := m, vw := [], sw := r.sw, pw := [], qw := r.qw, xw := r.xw, flags := r.fl, spec := r.spec }

/-- A uniform instruction with a fixed-latency result, going on at `pc`. A raised enabled flag traps every thread (R89, R132): the
flags are still ORed in. -/
def issueUniformTo (i : Instr) (pc : Env → DWord) (f : Env → URes) (s : State) : Outcome State Fault Refusal :=
  match s.env with
  | none => .next s
  | some e =>
    match e.issueTrap i with
    | some t => .next (e.trapAll t)
    | none =>
      let r := f e
      let lat := if r.spec.isSome then 2 else fixedLatency i
      let bad := (e.readers i).findSome? (e.deferred i)
      let s := s.updGrp e.gk (if bad.isSome then e.seeChorusBut i e.p.mask 0 else e.seeChorus i)
      match bad.or r.err with
      | some t => .next (s.trapEntry e.gk e.pi t e.p.mask noVa)
      | none =>
        if r.fl &&& e.g.enables != 0 then
          let s1 := s.updGrp e.gk fun g => { g with fixed := g.fixed ++ [({ fl := r.fl } : URes).fix (s.clock + lat) e.p.mask] }
          .next (s1.trapEntry e.gk e.pi (trap .fpexc) e.p.mask noVa)
        else
          .next (e.finish i (pc e) [] (s.updGrp e.gk fun g =>
            { g with fixed := g.fixed ++ [r.fix (s.clock + lat) e.p.mask], srn := bumpSeq g.srn (if r.srn then [127] else []) }))

/-- A uniform instruction with a fixed-latency result. -/
def issueUniform (i : Instr) (f : Env → URes) (s : State) : Outcome State Fault Refusal :=
  issueUniformTo i (fun e => e.nextPc i) f s

/-! ### Instructions with an effect of their own -/

/-- An instruction whose effect is given as a change of state after the checks of R34: the body says the rest. -/
def issueWith (i : Instr) (body : Env → Outcome State Fault Refusal) (s : State) : Outcome State Fault Refusal :=
  match s.env with
  | none => .next s
  | some e =>
    match e.issueTrap i with
    | some t => .next (e.trapAll t)
    | none => body e

/-- A uniform instruction's body: a trap for every thread, or the state with its effect, from which the path goes on. -/
def issueEffect (i : Instr) (body : Env → Except Trap State) (s : State) : Outcome State Fault Refusal :=
  issueWith i (fun e => match body e with
    | .error t => .next (e.trapAll t)
    | .ok s1 => .next (e.finish i (e.nextPc i) [] s1)) s

/-- The issuing path parks on a wait after its effect; its PC stays, and it goes on at the next instruction when the wait holds. -/
def Env.parked (e : Env) (i : Instr) (w : Wait) (p : Path) : Path :=
  { e.advance i p.pc p with st := .parked, wait := w, resume := e.nextPc i }
def Env.park (e : Env) (i : Instr) (w : Wait) (s1 : State) : State := s1.updPath e.gk e.pi (e.parked i w)

end Sys2Proof.Machine
end

