-- ==== Sys2Proof/Machine/Flags.lean ====
section
/-! DEFINITION. Conditions and carries: the integer compares (R41), the carry of IADDC and ISUBB (R98), the FLAGS register (R86). -/
namespace Sys2Proof.Machine
open Sys2Proof

/-- The integer conditions of ICMP (R41). -/
def intCond (c : BitVec 4) (a b : Word) : Bool :=
  match c.toNat with
  | 0 => a == b | 1 => a != b | 2 => a.slt b | 3 => a.sle b | 4 => b.slt a | 5 => b.sle a
  | 6 => a.ult b | 7 => a.ule b | 8 => b.ult a | 9 => b.ule a | _ => false

/-- IADDC (R98): the sum and the carry. -/
def addCarry (a b : Word) (c : Bool) : Word × Bool :=
  let n := a.toNat + b.toNat + c.toNat
  (BitVec.ofNat 32 n, decide (2 ^ 32 ≤ n))

/-- ISUBB (R98): the difference and the borrow. -/
def subBorrow (a b : Word) (c : Bool) : Word × Bool :=
  (a - b - BitVec.ofNat 32 c.toNat, decide (a.toNat < b.toNat + c.toNat))

/-- FLAGS as SWRITE leaves it (R86): reserved bits 31:14 and 7:6 read as zero. -/
def flagsWritten (x : Word) : BitVec 14 := x.setWidth 14 &&& 0x3F3F

/-- RMODE as SWRITE leaves it (R84): the stream, and MODE unless the new one is 101 to 111. -/
def rmodeWritten (old x : Word) : Word :=
  let mode := if (x.extractLsb' 0 3).toNat ≤ 4 then x.extractLsb' 0 3 else old.extractLsb' 0 3
  (x.extractLsb' 16 16) ++ (0 : BitVec 13) ++ mode

end Sys2Proof.Machine
end

