-- ==== Sys2Proof/Machine/Keyed.lean ====
section
/-! DEFINITION. Logical keys (R55), the keyed generator (R56, R114), stochastic rounding's random value (R83), and the rounding mode of a
conversion (R47). -/
namespace Sys2Proof.Machine
open Sys2Proof

/-- The constants SH, MA, MB of round i (R114). -/
def mixRounds : List (Nat × DWord × DWord) :=
  [(29, 0xA5C396E14D27B839, 0x9C6EF3B10A58D2E5), (31, 0x8F1D6B04C3E57A2B, 0xE41B7C3996F205A3),
   (27, 0xD34E0B9761ACF5C7, 0xC87D2A06B5E94F11), (33, 0xB7A059D2E84F136D, 0xF2A9C15E7B3068DF)]

/-- keyed_mix(key, ctr) (R56): 128 bits. -/
def keyedMix (key ctr : DWord) : BitVec 128 :=
  let r := mixRounds.foldl (fun (ab : DWord × DWord) c =>
    let a := (ab.1 ^^^ ab.2 ^^^ (ab.1 >>> c.1)) * c.2.1
    let b := (ab.2 ^^^ a ^^^ (ab.2 >>> c.1)) * c.2.2
    (a, b)) (ctr, key)
  r.2 ++ r.1

/-- The packed key K of R55. -/
def packKey (bid gix tix seq : Nat) : Nat := bid * 2 ^ 43 + gix * 2 ^ 39 + tix * 2 ^ 32 + seq

/-- keyed_mix of a 64-bit key with a packed key as its counter (R55). -/
def mixPacked (key : DWord) (k : Nat) : BitVec 128 :=
  keyedMix (key ^^^ BitVec.ofNat 64 (k / 2 ^ 64 * 2 ^ 32)) (BitVec.ofNat 64 k)

/-- ρ of stochastic rounding for element j of thread t with sequence number seq (R83). -/
def srRho (g : Grp) (b : Blk) (t seq j : Nat) : Nat :=
  let key := BitVec.ofNat 64 (b.task * 2 ^ 16 + (g.rmode.extractLsb' 16 16).toNat)
  ((mixPacked key (packKey b.bid g.gix t seq)).extractLsb' (16 * j) 16).toNat

/-- The SR sequence of a thread, 127 for the uniform one (R83). -/
def Grp.srSeq (g : Grp) (t : Nat) : Nat := (SMap.get 0 g.srn t).toNat

/-- The mode of a conversion's RM field for thread t and element j (R47, R82): DYN reads RMODE. -/
def convMode (e : Env) (m : BitVec 3) (t j : Nat) : RMode :=
  let c := if m = 6 then (e.g.rmode.extractLsb' 0 3).toNat else m.toNat
  (RMode.ofCode c (srRho e.g e.b t (e.g.srSeq t) j)).getD .rne

end Sys2Proof.Machine
end

