-- ==== Sys2Proof/Machine/Control.lean ====
section
/-! DEFINITION. Branches and paths (R105, R106, R108, R109), RNG (R114) and software traps (R115). EXIT and EXITG are in
Machine/Sync.lean, BKPT in Machine/Debug.lean. -/
namespace Sys2Proof.Machine
open Sys2Proof Host

/-! ### Lane branches (R105) -/

/-- The checks on a register target, in order (R42). -/
def targetTrap (x : DWord × Bool) : Option Trap :=
  if x.2 then some (trap .poison)
  else if x.1.extractLsb' 0 2 != 0 then some (trap .misalign)
  else if x.1.extractLsb' 56 8 != 0 then some (trap .access) else none

/-- Threads grouped by equal target, ordered by their lowest thread (R105): the threads come in ascending index. -/
def targetSets : List (Nat × DWord) → List (DWord × List Nat)
  | [] => []
  | (t, pc) :: rest =>
    let sets := targetSets rest
    match sets.find? fun x => x.1 == pc with
    | some x => (pc, t :: x.2) :: sets.filter fun y => y.1 != pc
    | none => (pc, [t]) :: sets

/-- branch_lane (R105): the path keeps the first set and each further set becomes a new path. Failing threads stay as the path,
which traps (R54). A spill that faults undoes all (R248). -/
def Env.branch (e : Env) (i : Instr) (fails : Fails) (targets : List (Nat × DWord)) (s1 : State) : State :=
  let mk (x : DWord × List Nat) : Path := e.advance i x.1 { e.p with mask := maskOf x.2 }
  let paths := (targetSets targets).map mk
  match fails with
  | [] =>
    match paths with
    | [] => s1
    | p :: rest =>
      match (s1.updPath e.gk e.pi fun _ => p).addPaths e.gk e.pi rest with
      | some s2 => s2
      | none => e.trapAll (trap .spillFault)
  | (_, t, va) :: _ =>
    let fm := maskOf (fails.map (·.1))
    let tm := maskOf ((fails.filter fun f => f.2.1.cause == t.cause).map (·.1))
    match (s1.updPath e.gk e.pi fun p => { p with mask := fm }).addPaths e.gk e.pi paths with
    | some s2 => s2.trapEntry e.gk e.pi t tm va
    | none => e.trapAll (trap .spillFault)

/-- The address of a PC-relative target: the branch's first word plus 4 × offset (R42). -/
def Env.relative (e : Env) {n : Nat} (off : BitVec n) : DWord := e.p.pc + 4 * off.signExtend 64

/-- BRC (R105). -/
def execBrc (stl : BitVec 3) (off : BitVec 14) (k n : BitVec 1) (p : BitVec 3) (s : State) : Outcome State Fault Refusal :=
  issueWith (.brc stl off k n p) (fun e =>
    .next (e.branch (.brc stl off k n p) [] ((threadsOf e.p.mask).map fun t =>
      (t, if e.pred k n p t then e.relative off else e.p.pc + 4)) s)) s

/-- The threads that fail the target checks, and the targets of the others. -/
def Env.regTargets (e : Env) (i : Instr) (a : BitVec 7) : Fails × List (Nat × DWord) :=
  let ts := (threadsOf e.p.mask).map fun t => (t, (e.deferred i t).or (targetTrap (e.pair a t)), (e.pair a t).1)
  (ts.filterMap fun x => x.2.1.map fun tr => (x.1, tr, noVa), ts.filterMap fun x => if x.2.1.isNone then some (x.1, x.2.2) else none)

/-- BRX, CALLX and RET (R105): each thread to its own target; CALLX writes the link first. -/
def execRegBranch (i : Instr) (a : BitVec 7) (link : Option (BitVec 7)) (s : State) : Outcome State Fault Refusal :=
  issueWith i (fun e =>
    let (fails, targets) := e.regTargets i a
    let pc := e.p.pc + 4
    let fix : List FixRes := match link with
      | none => []
      | some d =>
        let r (t : Nat) : List (Nat × RegVal) :=
          [(128 * (2 * e.g.num d) + t, ⟨pc.extractLsb' 0 32, false⟩), (128 * (2 * e.g.num d + 1) + t, ⟨pc.extractLsb' 32 32, false⟩)]
        [{ ready := s.clock + 3, mask := e.p.mask, vw := targets.flatMap fun x => r x.1
           sw := [], pw := [], qw := [], xw := [], flags := 0, spec := none }]
    .next (e.branch i fails targets (s.updGrp e.gk fun g => let g := e.seeFails i fails g; { g with fixed := g.fixed ++ fix }))) s

/-- BRX (R105). -/
def execBrx (stl : BitVec 3) (a : BitVec 7) (s : State) : Outcome State Fault Refusal := execRegBranch (.brx stl a) a none s
/-- CALLX (R105). -/
def execCallx (stl : BitVec 3) (d a : BitVec 7) (s : State) : Outcome State Fault Refusal := execRegBranch (.callx stl d a) a (some d) s
/-- RET (R105): as BRX. -/
def execRet (stl : BitVec 3) (a : BitVec 7) (s : State) : Outcome State Fault Refusal := execRegBranch (.ret stl a) a none s

/-! ### Uniform branches (R106) -/

/-- BR (R106). -/
def execBr (stl : BitVec 3) (off : BitVec 21) (s : State) : Outcome State Fault Refusal :=
  issueWith (.br stl off) (fun e => .next (e.finish (.br stl off) (e.relative off) [] s)) s
/-- BRQ (R106). -/
def execBrq (stl : BitVec 3) (off : BitVec 14) (k n : BitVec 1) (p : BitVec 3) (s : State) : Outcome State Fault Refusal :=
  issueWith (.brq stl off k n p) (fun e =>
    .next (e.finish (.brq stl off k n p) (if e.upred k n p then e.relative off else e.p.pc + 4) [] s)) s
/-- CALL (R106): the link goes to s62:s63. -/
def execCall (stl : BitVec 3) (off : BitVec 21) (s : State) : Outcome State Fault Refusal :=
  issueUniformTo (.call stl off) (fun e => e.relative off) (fun e =>
    { sw := [(62, ⟨(e.p.pc + 4).extractLsb' 0 32, false⟩), (63, ⟨(e.p.pc + 4).extractLsb' 32 32, false⟩)] }) s
/-- JMPS (R106): from a path that runs the handler it is the return (R261). -/
def execJmps (stl : BitVec 3) (a : BitVec 7) (s : State) : Outcome State Fault Refusal :=
  issueWith (.jmps stl a) (fun e =>
    match targetTrap (e.upair a) with
    | some t => .next (e.trapAll t)
    | none =>
      let s1 := e.finish (.jmps stl a) (e.upair a).1 [] s
      .next (if e.p.hnd then s1.handlerReturn e.gk e.pi else s1)) s

/-! ### JOIN, YIELD, NOP (R108, R109) -/

/-- The other paths of the group, spilled or parked ones included (R108). -/
def Grp.others (g : Grp) (pi : Nat) : List Path :=
  (((List.range 8).filter fun i => i != pi).map g.path).filter (fun p => p.st != .free) ++ g.spilled.map (·.2)

/-- JOIN (R108): parks until every other live path stands here; a group's only path goes on. -/
def execJoin (stl : BitVec 3) (s : State) : Outcome State Fault Refusal :=
  issueWith (.join stl) (fun e =>
    .next (if (e.g.others e.pi).isEmpty then e.finish (.join stl) (e.nextPc (.join stl)) [] s else e.park (.join stl) .join s)) s
/-- YIELD (R109): the youngest age stamp, starvation count 0. -/
def execYield (stl : BitVec 3) (s : State) : Outcome State Fault Refusal :=
  issueEffect (.yield stl) (fun e =>
    .ok { s.updGrp e.gk fun g => { g with age := s.seq, starve := 0, promoted := false } with seq := s.seq + 1 }) s
/-- NOP (R109). -/
def execNop (stl : BitVec 3) (s : State) : Outcome State Fault Refusal := issueEffect (.nop stl) (fun _ => .ok s) s

/-! ### RNG (R114) and software traps (R115) -/

/-- RNG (R114). -/
def execRng (stl : BitVec 3) (d a b : BitVec 7) (s : State) : Outcome State Fault Refusal :=
  issueLane (.rng stl d a b) (fun e t =>
    let (key, z) := e.upair a
    let x := e.vec b t
    let h := mixPacked key (packKey e.b.bid e.g.gix t (x.val.toNat / 4))
    { vw := [(e.g.num d, ⟨h.extractLsb' (32 * (x.val.toNat % 4)) 32, z || x.poison⟩)] }) s
/-- TRAP (R115). -/
def execTrap (stl : BitVec 3) (code : BitVec 14) (s : State) : Outcome State Fault Refusal :=
  issueWith (.trap stl code) (fun e => .next (e.trapAll (trapI .swtrap code.toNat))) s
/-- TRAPP (R115): the threads with the predicate trap; no effect where there are none. -/
def execTrapp (stl : BitVec 3) (code : BitVec 14) (k n : BitVec 1) (p : BitVec 3) (s : State) : Outcome State Fault Refusal :=
  issueWith (.trapp stl code k n p) (fun e =>
    let ts := (threadsOf e.p.mask).filter fun t => e.pred k n p t
    .next (e.finish (.trapp stl code k n p) (e.nextPc (.trapp stl code k n p)) (ts.map fun t => (t, trapI .swtrap code.toNat, noVa)) s)) s

/-! ### Words that are no instruction (R50) -/

/-- An unassigned opcode, or a word the decoder refuses: ILLOP for every active lane (R50). -/
def execUnassignedOpcode (_w : Word) (s : State) : Outcome State Fault Refusal :=
  match s.env with | none => .next s | some e => .next (e.trapAll (trap .illop))

end Sys2Proof.Machine
end

