-- ==== Sys2Proof/Machine/Special.lean ====
section
/-! DEFINITION. The special functions (R133, R134), WEXP, the rotation factors of WROTS (R142) and the Fresnel parameters of
WFRES (R144), by enclosing the exact value between two rationals at rising precision until the enclosure decides the rounding. -/
namespace Sys2Proof.Machine
open Sys2Proof

/-- ⌊√n⌋ of a natural number by digits in base 4: fuel at least half its bits. -/
def isqrtAux : Nat → Nat → Nat
  | 0, _ => 0
  | fuel + 1, n =>
    if n = 0 then 0
    else
      let r := 2 * isqrtAux fuel (n / 4)
      if (r + 1) * (r + 1) ≤ n then r + 1 else r

def isqrt (n : Nat) : Nat := isqrtAux (Nat.log2 n / 2 + 1) n

/-- An enclosure of a real between two rationals. -/
structure Iv where
  lo : Rat
  hi : Rat
  deriving DecidableEq, Repr

/-- A rational as multiples of 2^−p, rounded outward. -/
def Iv.trim (p : Nat) (a : Iv) : Iv :=
  let k : Rat := ((2 ^ p : Nat) : Rat)
  ⟨((a.lo * k).floor : Rat) / k, (-((-(a.hi * k)).floor) : Rat) / k⟩

def Iv.point (q : Rat) : Iv := ⟨q, q⟩
def Iv.add (a b : Iv) : Iv := ⟨a.lo + b.lo, a.hi + b.hi⟩
def Iv.neg (a : Iv) : Iv := ⟨-a.hi, -a.lo⟩
def Iv.sub (a b : Iv) : Iv := a.add b.neg
def Iv.mul (a b : Iv) : Iv :=
  let x := a.lo * b.lo; let y := a.lo * b.hi; let z := a.hi * b.lo; let w := a.hi * b.hi
  ⟨min (min x y) (min z w), max (max x y) (max z w)⟩
/-- The inverse of an enclosure that does not hold 0. -/
def Iv.inv (a : Iv) : Iv := ⟨1 / a.hi, 1 / a.lo⟩

/-- √q to p bits below the point, for q ≥ 0. -/
def sqrtIv (p : Nat) (q : Rat) : Iv :=
  let n := (q * ((4 ^ p : Nat) : Rat)).floor.toNat
  let r := isqrt n
  let k : Rat := ((2 ^ p : Nat) : Rat)
  ⟨r / k, if (r : Rat) * r = q * ((4 ^ p : Nat) : Rat) then r / k else (r + 1) / k⟩

/-- Σ z^k/k! in units of 2^−p for a fixed-point z: terms cut down, so the sum is low by at most one unit a term. -/
def expSum (p z : Nat) : Nat → Nat → Nat → Nat → Nat
  | 0, _, _, acc => acc
  | fuel + 1, k, t, acc => if t = 0 then acc else expSum p z fuel (k + 1) (t * z / (2 ^ p * (k + 1))) (acc + t)

/-- e^z for a fixed-point z in [0, 1), in units of 2^−p: low and high. -/
def expFix (p z : Nat) : Nat × Nat := let s := expSum p z p 0 (2 ^ p) 0; (s, s + 4 * p + 4)

/-- Σ x^(2k+1)/(2k+1) (−1)^(k·alt) for 0 ≤ x < 1 as a rational numerator over 2^p: terms t = x^(2k+1). -/
def atanSum (alt : Bool) (p x2 : Nat) : Nat → Nat → Nat → Int → Int
  | 0, _, _, acc => acc
  | fuel + 1, k, t, acc =>
    if t = 0 then acc
    else atanSum alt p x2 fuel (k + 1) (t * x2 / 2 ^ p) (acc + (if alt && k % 2 == 1 then -1 else 1) * ((t / (2 * k + 1) : Nat) : Int))

/-- atanh x or atan x of a rational 0 ≤ x ≤ 1/2, enclosed to about p bits. -/
def atanIv (alt : Bool) (p : Nat) (x : Rat) : Iv :=
  let k : Rat := ((2 ^ p : Nat) : Rat)
  let t := (x * k).floor.toNat
  let s := atanSum alt p (t * t / 2 ^ p) (p + 2) 0 t 0
  ⟨((s : Rat) - 8 * p - 8) / k, ((s : Rat) + 8 * p + 8) / k⟩

/-- ln 2 = 2 atanh(1/3). -/
def ln2Iv (p : Nat) : Iv := (Iv.point 2).mul (atanIv false p (1 / 3))
/-- π = 16 atan(1/5) − 4 atan(1/239). -/
def piIv (p : Nat) : Iv := ((Iv.point 16).mul (atanIv true p (1 / 5))).sub ((Iv.point 4).mul (atanIv true p (1 / 239)))

/-- 2^t for a rational t, enclosed: an integer power times e^(fraction × ln 2). -/
def exp2Iv (p : Nat) (t : Rat) : Iv :=
  let n := t.floor
  let l := ln2Iv p
  let r := t - n
  let k : Rat := ((2 ^ p : Nat) : Rat)
  let zlo := (r * l.lo * k).floor.toNat
  let zhi := (r * l.hi * k).floor.toNat + 1
  ⟨((expFix p zlo).1 : Rat) / k * pow2 n, ((expFix p zhi).2 : Rat) / k * pow2 n⟩

/-- e^x, enclosed; far arguments are cut where FP32 no longer tells them apart. -/
def expIv (p : Nat) (x : Rat) : Iv :=
  let x := if x > 400 then 400 else if x < -400 then -400 else x
  let l := (ln2Iv p).inv
  let t := (Iv.point x).mul l
  ⟨(exp2Iv p t.lo).lo, (exp2Iv p t.hi).hi⟩

/-- log₂ m for a positive rational, enclosed. -/
def log2Iv (p : Nat) (q : Rat) : Iv :=
  let n := floorLog2 q
  let m := q / pow2 n
  let a := (Iv.point 2).mul (atanIv false p ((m - 1) / (m + 1)))
  (Iv.point n).add (a.mul (ln2Iv p).inv)

/-- Σ (−1)^k x^(2k+s)/(2k+s)! in units of 2^−p: cosine for s = 0, sine for s = 1, from the term x^s. -/
def trigSum (p x2 s : Nat) : Nat → Nat → Nat → Int → Int
  | 0, _, _, acc => acc
  | fuel + 1, k, t, acc =>
    if t = 0 then acc
    else trigSum p x2 s fuel (k + 1) (t * x2 / (2 ^ p * ((2 * k + s + 1) * (2 * k + s + 2)))) (acc + (if k % 2 = 1 then -(t : Int) else t))

/-- sin or cos of πr for a rational 0 ≤ r ≤ 1/2, enclosed. -/
def trigIv (p : Nat) (cosine : Bool) (r : Rat) : Iv :=
  let th := (Iv.point r).mul (piIv p)
  let k : Rat := ((2 ^ p : Nat) : Rat)
  let t := (th.lo * k).floor.toNat
  let s := trigSum p (t * t / 2 ^ p) (if cosine then 0 else 1) p 0 (if cosine then 2 ^ p else t) 0
  ⟨((s : Rat) - 64 * p - 64) / k, ((s : Rat) + 64 * p + 64) / k⟩

/-- sin(πx) for any rational x, enclosed. -/
def sinPiIv (p : Nat) (x : Rat) : Iv :=
  let y := x - 2 * ((x / 2).floor : Rat)
  let (neg, z) := if y ≥ 1 then (true, y - 1) else (false, y)
  let w := if z > 1 / 2 then 1 - z else z
  let v := if w > 1 / 4 then trigIv p true (1 / 2 - w) else trigIv p false w
  if neg then v.neg else v

/-- Σ (−1)^k w^k/(k! (2k+1)) in units of 2^−p for w ≥ 0: the series of erf after its first power. -/
def erfSum (p w : Nat) : Nat → Nat → Nat → Int → Int
  | 0, _, _, acc => acc
  | fuel + 1, k, t, acc =>
    if t = 0 then acc
    else erfSum p w fuel (k + 1) (t * w / (2 ^ p * (k + 1))) (acc + (if k % 2 = 1 then -1 else 1) * ((t / (2 * k + 1) : Nat) : Int))

/-- erf of √(w), w = z², times the sign of x and divided by √w: (2/√π) Σ …, enclosed, for 0 ≤ w ≤ 200. -/
def erfSeriesIv (p : Nat) (w : Rat) : Iv :=
  let k : Rat := ((2 ^ p : Nat) : Rat)
  let t := (w * k).floor.toNat
  let s := erfSum p t (3 * p) 0 (2 ^ p) 0
  let slack : Rat := ((2 ^ 300 : Nat) : Rat) * p
  ⟨((s : Rat) - slack) / k, ((s : Rat) + slack) / k⟩

/-- √q of an enclosure's ends. -/
def Iv.sqrt (p : Nat) (a : Iv) : Iv := ⟨(sqrtIv p a.lo).lo, (sqrtIv p a.hi).hi⟩

/-- erf(x), enclosed. -/
def erfIv (p : Nat) (x : Rat) : Iv :=
  if x > 8 then ⟨1 - pow2 (-60), 1 - pow2 (-400)⟩
  else if x < -8 then ⟨-1 + pow2 (-400), -1 + pow2 (-60)⟩
  else ((Iv.point (2 * x)).mul (((piIv p).sqrt p).inv)).mul (erfSeriesIv p (x * x))

/-- GELU (R133), enclosed. -/
def geluIv (p : Nat) (x : Rat) : Iv :=
  if x > 16 then ⟨x * (1 - pow2 (-120)), x * (1 - pow2 (-400))⟩
  else if x < -16 then ⟨-pow2 (-160), -pow2 (-400)⟩
  else
    let c := (((Iv.point 2).mul (piIv p).inv).sqrt p)
    let e := ((Iv.point x).mul c).mul (erfSeriesIv p (x * x / 2))
    ((Iv.point (x / 2)).mul ((Iv.point 1).add e))

/-- 1/(1 + e^−x), enclosed. -/
def sigmIv (p : Nat) (x : Rat) : Iv := ((Iv.point 1).add (expIv p (-x))).inv

/-- SILU, enclosed. -/
def siluIv (p : Nat) (x : Rat) : Iv :=
  if x < -300 then ⟨-pow2 (-160), -pow2 (-400)⟩ else (Iv.point x).mul (sigmIv p x)

/-- tanh x = (e^2x − 1)/(e^2x + 1), enclosed. -/
def tanhIv (p : Nat) (x : Rat) : Iv :=
  let e := expIv p (2 * x)
  (e.sub (Iv.point 1)).mul (e.add (Iv.point 1)).inv

/-- The precisions tried in turn. -/
def precisions : List Nat := [400, 800, 1600, 3200]

/-- The correctly rounded FP32 value (RNE) of an enclosed real that is no FP32 value and no tie: the first precision at which both
ends round alike. -/
def roundEnclosed (iv : Nat → Iv) : List Nat → Nat × Flags
  | [] => (Fmt.fp32.qnan, 0)
  | p :: ps =>
    let a := iv p
    let x := roundTo .fp32 .rne (.ofRat a.lo)
    let y := roundTo .fp32 .rne (.ofRat a.hi)
    if x = y || ps.isEmpty then x else roundEnclosed iv ps

/-- The flags of returning the FP32 value y for a real that is no FP32 value (R85 applied to the returned value, R133). -/
def inexactFlags (y : Nat) : Flags :=
  match Fmt.fp32.value y with
  | .inf _ => fOF ||| fNX
  | .zero _ => fUF ||| fNX
  | .num _ => if Fmt.fp32.subnormal y then fUF ||| fNX else fNX
  | .nan _ => fNX

/-- A faithful FP32 value (R133) of an enclosed real that is no FP32 value: one of its two neighbours, which one being open. -/
def faithful (fn : Nat) (x : Word) (iv : Nat → Iv) : List Nat → Nat × Flags
  | [] => (Fmt.fp32.qnan, 0)
  | p :: ps =>
    let a := iv p
    let l := roundTo .fp32 .rdn (.ofRat a.lo); let l' := roundTo .fp32 .rdn (.ofRat a.hi)
    let h := roundTo .fp32 .rup (.ofRat a.lo); let h' := roundTo .fp32 .rup (.ofRat a.hi)
    if (l.1 = l'.1 && h.1 = h'.1) || ps.isEmpty then
      let y := if Config.faithfulUpper fn x then h.1 else l.1
      (y, inexactFlags y)
    else faithful fn x iv ps

/-- The special functions of R133, numbered by opcode − 0x30; 12 is e^x (WEXP, R138). -/
inductive SpecFn where
  | rcp | rsq | sqrt | exp2 | log2 | sinpi | cospi | tanh | sigm | erf | gelu | silu | exp
  deriving DecidableEq, Repr

/-- FP32 constants: ±0, ±1, ±∞, ½. -/
def f32Zero (neg : Bool) : Nat := if neg then 0x80000000 else 0
def f32One (neg : Bool) : Nat := if neg then 0xBF800000 else 0x3F800000
def f32Inf (neg : Bool) : Nat := if neg then 0xFF800000 else 0x7F800000

/-- Whether a rational is an integer, and whether that integer is even. -/
def isInt (q : Rat) : Bool := q.den == 1
def isEven (q : Rat) : Bool := q.num % 2 == 0

/-- sinpi of an exact nonzero real (R134): exact at integers and halves, else faithful. The operand serves the free choice. -/
def sinPi (fn : Nat) (x : Word) (q : Rat) : Nat × Flags :=
  if isInt q then (f32Zero (decide (q < 0)), 0)
  else if isInt (2 * q) then (f32One (!isEven ((2 * q - 1) / 2)), 0)
  else faithful fn x (fun p => sinPiIv p q) precisions

/-- cospi of an exact real (R134). -/
def cosPi (fn : Nat) (x : Word) (q : Rat) : Nat × Flags :=
  if isInt q then (f32One (!isEven q), 0)
  else if isInt (2 * q) then (0, 0)
  else faithful fn x (fun p => sinPiIv p (q + 1 / 2)) precisions

/-- The exact or enclosed result for a nonzero finite operand (R133, R134). -/
def SpecFn.finite (fn : SpecFn) (x : Word) (q : Rat) : Nat × Flags :=
  let nan := (Fmt.fp32.qnan, fIV)
  match fn with
  | .rcp => roundTo .fp32 .rne (.num (1 / q))
  | .sqrt => if q < 0 then nan else
      let s := sqrtIv 200 q
      if s.lo = s.hi then roundTo .fp32 .rne (.num s.lo) else roundTo .fp32 .rne (.num ((s.lo + s.hi) / 2))
  | .rsq => if q < 0 then nan else
      let s := sqrtIv 200 (1 / q)
      if s.lo = s.hi then roundTo .fp32 .rne (.num s.lo) else roundTo .fp32 .rne (.num ((s.lo + s.hi) / 2))
  | .exp2 =>
      if q ≥ 128 then (f32Inf false, fOF ||| fNX)
      else if q < -160 then (0, fUF ||| fNX)
      else if isInt q then roundTo .fp32 .rne (.num (pow2 q.num))
      else roundEnclosed (fun p => exp2Iv p q) precisions
  | .log2 => if q < 0 then nan else
      let k := floorLog2 q
      if q = pow2 k then roundTo .fp32 .rne (.ofRat k) else roundEnclosed (fun p => log2Iv p q) precisions
  | .sinpi => sinPi 5 x q
  | .cospi => cosPi 6 x q
  | .tanh => faithful 7 x (fun p => if q > 100 then ⟨1 - pow2 (-100), 1 - pow2 (-400)⟩
      else if q < -100 then ⟨-1 + pow2 (-400), -1 + pow2 (-100)⟩ else tanhIv p q) precisions
  | .sigm => faithful 8 x (fun p => if q < -300 then ⟨pow2 (-400), pow2 (-160)⟩
      else if q > 300 then ⟨1 - pow2 (-100), 1 - pow2 (-400)⟩ else sigmIv p q) precisions
  | .erf => faithful 9 x (fun p => erfIv p q) precisions
  | .gelu => faithful 10 x (fun p => geluIv p q) precisions
  | .silu => faithful 11 x (fun p => if q > 300 then ⟨q * (1 - pow2 (-120)), q * (1 - pow2 (-400))⟩ else siluIv p q) precisions
  | .exp =>
      if q ≥ 89 then (f32Inf false, fOF ||| fNX)
      else if q < -300 then faithful 12 x (fun _ => ⟨pow2 (-400), pow2 (-160)⟩) precisions
      else
        let a := expIv 400 q
        if a.lo ≥ pow2 128 then (f32Inf false, fOF ||| fNX) else faithful 12 x (fun p => expIv p q) precisions

/-- The special cases of ±∞ and ±0 (R134). -/
def SpecFn.infinite (fn : SpecFn) (neg : Bool) : Nat × Flags :=
  match fn with
  | .rcp => (f32Zero neg, 0)
  | .rsq => if neg then (Fmt.fp32.qnan, fIV) else (0, 0)
  | .sqrt | .log2 => if neg then (Fmt.fp32.qnan, fIV) else (f32Inf false, 0)
  | .exp2 | .exp => (if neg then 0 else f32Inf false, 0)
  | .sinpi | .cospi => (Fmt.fp32.qnan, fIV)
  | .tanh | .erf => (f32One neg, 0)
  | .sigm => (if neg then 0 else f32One false, 0)
  | .gelu | .silu => (if neg then f32Zero true else f32Inf false, 0)

def SpecFn.atZero (fn : SpecFn) (neg : Bool) : Nat × Flags :=
  match fn with
  | .rcp => (f32Inf neg, fDZ)
  | .rsq => (f32Inf neg, fDZ)
  | .sqrt | .sinpi | .tanh | .erf | .gelu | .silu => (f32Zero neg, 0)
  | .exp2 | .cospi | .exp => (f32One false, 0)
  | .log2 => (f32Inf true, fDZ)
  | .sigm => (0x3F000000, 0)

/-- A special function of an FP32 element: its value and every flag (R133, R134). -/
def SpecFn.eval (fn : SpecFn) (x : Word) : Word × Flags :=
  let n := x.toNat
  let (y, f) := match Fmt.fp32.value n with
    | .nan s => (Fmt.fp32.qnan, if s then fIV else 0)
    | .inf neg => fn.infinite neg
    | .zero neg => fn.atZero neg
    | .num q => fn.finite x q
  (BitVec.ofNat 32 y, f ||| siOf .fp32 [n])

/-- The exact Mueller parameters of reflection (R144) at an interface η + iκ and cosine μ, as close rationals: |r_s|², |r_p|² and
r_s·conj(r_p), at p bits below the point. -/
def fresnelExact (p : Nat) (eta kappa mu : Rat) : Rat × Rat × Rat × Rat :=
  let sq (q : Rat) : Rat := if q ≤ 0 then 0 else let s := sqrtIv p q; if s.lo = s.hi then s.lo else (s.lo + s.hi) / 2
  let nx := eta * eta - kappa * kappa
  let ny := 2 * eta * kappa
  let x := nx - (1 - mu * mu)
  let y := ny
  let m := sq (x * x + y * y)
  let tr := sq ((m + x) / 2)
  let ti := sq ((m - x) / 2)
  -- a complex quotient (a + bi)/(c + di); a zero denominator gives −1
  let quot (a b c d : Rat) : Rat × Rat :=
    let n := c * c + d * d
    if n = 0 then (-1, 0) else ((a * c + b * d) / n, (b * c - a * d) / n)
  let (sr, si) := quot (mu - tr) (-ti) (mu + tr) ti
  let (pr, pi) := quot (nx * mu - tr) (ny * mu - ti) (nx * mu + tr) (ny * mu + ti)
  let s2 := sr * sr + si * si
  let p2 := pr * pr + pi * pi
  ((s2 + p2) / 2, (s2 - p2) / 2, sr * pr + si * pi, si * pr - sr * pi)

/-- One slot of WFRES (R144): four FP32 outputs and the flags. An invalid slot raises IV alone, whatever else is subnormal (DEDUCED, log entry 108). The delivered values are open within the bound: the free ones are
taken if they meet it, else the exact values rounded toward zero (a to nearest), also where a is so small that no FP32 value may lie within the bound
(DESIGN CHOICE, log entry 127). -/
def fresnelSlot (eta kappa mu : Word) : List Word × Flags :=
  let e := Fmt.fp32.value eta.toNat; let k := Fmt.fp32.value kappa.toNat
  let u := Fmt.fp32.value (mu.toNat % 2 ^ 31)
  let bad : List Word × Flags := ([0x7FC00000, 0x7FC00000, 0x7FC00000, 0x7FC00000], fIV)
  match e, k, u with
  | .nan _, _, _ | _, .nan _, _ | _, _, .nan _ => bad
  | _, _, .inf _ => bad
  | .inf true, _, _ | .zero _, _, _ | _, .inf true, _ => bad
  | e, k, u =>
    if e.rat < 0 || k.rat < 0 || u.rat > 1 then bad
    else
      let lim : Bool := (match e with | .inf _ => true | _ => false) || (match k with | .inf _ => true | _ => false)
      -- an infinite index reflects wholly: r_s = −1, and r_p = 1 where μ ≠ 0, −1 where μ = 0 (a limit: log entry 10)
      let ex : Rat × Rat × Rat × Rat :=
        if lim then (1, 0, (if u.rat = 0 then 1 else -1), 0) else fresnelExact 600 e.rat k.rat u.rat
      let free (i : Nat) : Word := Config.fresnel i eta kappa mu
      let val (w : Word) : Option Rat := match Fmt.fp32.value w.toNat with | .num q => some q | .zero _ => some 0 | _ => none
      let close (w : Word) (q : Rat) : Bool := match val w with
        | some v => decide (|v - q| ≤ pow2 (-23) * ex.1 * (1 - pow2 (-100))) | none => false
      let within (w : Word) (a : Word) : Bool := match val w, val a with | some v, some x => decide (|v| ≤ x) | _, _ => false
      let ok := close (free 0) ex.1 && close (free 1) ex.2.1 && close (free 2) ex.2.2.1 && close (free 3) ex.2.2.2 &&
        within (free 0) 0x3F800000 && within (free 1) (free 0) && within (free 2) (free 0) && within (free 3) (free 0)
      let z (q : Rat) : Word := BitVec.ofNat 32 (roundTo .fp32 .rtz (.ofRat q)).1
      let out := if ok then [free 0, free 1, free 2, free 3]
        else [BitVec.ofNat 32 (roundTo .fp32 .rne (.ofRat ex.1)).1, z ex.2.1, z ex.2.2.1, z ex.2.2.2]
      let exact := (out.zip [ex.1, ex.2.1, ex.2.2.1, ex.2.2.2]).all fun (w, q) => val w == some q
      (out, (if exact then 0 else fNX) ||| siOf .fp32 [eta.toNat, kappa.toNat, mu.toNat])

end Sys2Proof.Machine
end

