-- ==== Sys2Proof/Machine/FloatOps.lean ====
section
/-! DEFINITION. Floating-point instructions of both sets, conversions, special functions and complex arithmetic (R120 to R136, R145). -/
namespace Sys2Proof.Machine
open Sys2Proof Host

/-! ### Elements -/

def w32 (n : Nat) : Word := BitVec.ofNat 32 n
/-- A 64-bit element of a lane pair and the OR of its poison. -/
def Env.f64 (e : Env) (f : BitVec 7) (t : Nat) : Nat × Bool := ((e.pair f t).1.toNat, (e.pair f t).2)
def Env.uf64 (e : Env) (f : BitVec 7) : Nat × Bool := ((e.upair f).1.toNat, (e.upair f).2)
/-- The writes of a 64-bit result to the pair field d. -/
def Env.wrPair (e : Env) (d : BitVec 7) (x : Nat) (z : Bool) : List (Nat × RegVal) :=
  [(2 * e.g.num d, ⟨w32 x, z⟩), (2 * e.g.num d + 1, ⟨w32 (x / 2 ^ 32), z⟩)]
def wrUPair (d : BitVec 7) (x : Nat) (z : Bool) : List (Nat × RegVal) :=
  [(d.toNat, ⟨w32 x, z⟩), (d.toNat + 1, ⟨w32 (x / 2 ^ 32), z⟩)]

/-! ### Shapes (R121, R122, R132) -/

/-- FP32 on A and B. -/
def f32Bin (d a b : BitVec 7) (f : RMode → Nat → Nat → Nat × Flags) (e : Env) (t : Nat) : TRes :=
  let x := e.vec a t; let y := e.vec b t
  let r := f (arithMode e.g) x.val.toNat y.val.toNat
  { vw := [(e.g.num d, ⟨w32 r.1, x.poison || y.poison⟩)], fl := r.2 }
def u32Bin (d a b : BitVec 7) (f : RMode → Nat → Nat → Nat × Flags) (e : Env) : URes :=
  let x := e.uni a; let y := e.uni b
  let r := f (arithMode e.g) x.val.toNat y.val.toNat
  { sw := [(d.toNat, ⟨w32 r.1, x.poison || y.poison⟩)], fl := r.2 }
/-- FP64 on A and B. -/
def f64Bin (d a b : BitVec 7) (f : RMode → Nat → Nat → Nat × Flags) (e : Env) (t : Nat) : TRes :=
  let x := e.f64 a t; let y := e.f64 b t
  let r := f (arithMode e.g) x.1 y.1
  { vw := e.wrPair d r.1 (x.2 || y.2), fl := r.2 }
def u64Bin (d a b : BitVec 7) (f : RMode → Nat → Nat → Nat × Flags) (e : Env) : URes :=
  let x := e.uf64 a; let y := e.uf64 b
  let r := f (arithMode e.g) x.1 y.1
  { sw := wrUPair d r.1 (x.2 || y.2), fl := r.2 }

/-! ### Arithmetic (R123, R124, R125) -/

/-- FADD (R123): lane. -/
def execFadd (stl : BitVec 3) (d a b : BitVec 7) (s : State) : Outcome State Fault Refusal :=
  issueLane (.fadd stl d a b) (f32Bin d a b (fAdd .fp32)) s
/-- FADD (R123, R132): uniform. -/
def execFaddU (stl : BitVec 3) (d a b : BitVec 7) (s : State) : Outcome State Fault Refusal :=
  issueUniform (.faddU stl d a b) (u32Bin d a b (fAdd .fp32)) s
/-- FSUB (R123): lane. -/
def execFsub (stl : BitVec 3) (d a b : BitVec 7) (s : State) : Outcome State Fault Refusal :=
  issueLane (.fsub stl d a b) (f32Bin d a b (fSub .fp32)) s
/-- FSUB (R123, R132): uniform. -/
def execFsubU (stl : BitVec 3) (d a b : BitVec 7) (s : State) : Outcome State Fault Refusal :=
  issueUniform (.fsubU stl d a b) (u32Bin d a b (fSub .fp32)) s
/-- FMUL (R123): lane. -/
def execFmul (stl : BitVec 3) (d a b : BitVec 7) (s : State) : Outcome State Fault Refusal :=
  issueLane (.fmul stl d a b) (f32Bin d a b (fMul .fp32)) s
/-- FMUL (R123, R132): uniform. -/
def execFmulU (stl : BitVec 3) (d a b : BitVec 7) (s : State) : Outcome State Fault Refusal :=
  issueUniform (.fmulU stl d a b) (u32Bin d a b (fMul .fp32)) s
/-- FMIN (R124): lane. -/
def execFmin (stl : BitVec 3) (d a b : BitVec 7) (s : State) : Outcome State Fault Refusal :=
  issueLane (.fmin stl d a b) (f32Bin d a b (fun _ => fMinMax .fp32 false)) s
/-- FMIN (R124, R132): uniform. -/
def execFminU (stl : BitVec 3) (d a b : BitVec 7) (s : State) : Outcome State Fault Refusal :=
  issueUniform (.fminU stl d a b) (u32Bin d a b (fun _ => fMinMax .fp32 false)) s
/-- FMAX (R124): lane. -/
def execFmax (stl : BitVec 3) (d a b : BitVec 7) (s : State) : Outcome State Fault Refusal :=
  issueLane (.fmax stl d a b) (f32Bin d a b (fun _ => fMinMax .fp32 true)) s
/-- FMAX (R124, R132): uniform. -/
def execFmaxU (stl : BitVec 3) (d a b : BitVec 7) (s : State) : Outcome State Fault Refusal :=
  issueUniform (.fmaxU stl d a b) (u32Bin d a b (fun _ => fMinMax .fp32 true)) s
/-- DADD (R123): lane. -/
def execDadd (stl : BitVec 3) (d a b : BitVec 7) (s : State) : Outcome State Fault Refusal :=
  issueLane (.dadd stl d a b) (f64Bin d a b (fAdd .fp64)) s
/-- DADD (R123, R132): uniform. -/
def execDaddU (stl : BitVec 3) (d a b : BitVec 7) (s : State) : Outcome State Fault Refusal :=
  issueUniform (.daddU stl d a b) (u64Bin d a b (fAdd .fp64)) s
/-- DMUL (R123): lane. -/
def execDmul (stl : BitVec 3) (d a b : BitVec 7) (s : State) : Outcome State Fault Refusal :=
  issueLane (.dmul stl d a b) (f64Bin d a b (fMul .fp64)) s
/-- DMUL (R123, R132): uniform. -/
def execDmulU (stl : BitVec 3) (d a b : BitVec 7) (s : State) : Outcome State Fault Refusal :=
  issueUniform (.dmulU stl d a b) (u64Bin d a b (fMul .fp64)) s
/-- DMIN (R124): lane. -/
def execDmin (stl : BitVec 3) (d a b : BitVec 7) (s : State) : Outcome State Fault Refusal :=
  issueLane (.dmin stl d a b) (f64Bin d a b (fun _ => fMinMax .fp64 false)) s
/-- DMIN (R124, R132): uniform. -/
def execDminU (stl : BitVec 3) (d a b : BitVec 7) (s : State) : Outcome State Fault Refusal :=
  issueUniform (.dminU stl d a b) (u64Bin d a b (fun _ => fMinMax .fp64 false)) s
/-- DMAX (R124): lane. -/
def execDmax (stl : BitVec 3) (d a b : BitVec 7) (s : State) : Outcome State Fault Refusal :=
  issueLane (.dmax stl d a b) (f64Bin d a b (fun _ => fMinMax .fp64 true)) s
/-- DMAX (R124, R132): uniform. -/
def execDmaxU (stl : BitVec 3) (d a b : BitVec 7) (s : State) : Outcome State Fault Refusal :=
  issueUniform (.dmaxU stl d a b) (u64Bin d a b (fun _ => fMinMax .fp64 true)) s
/-- FCPYS (R125): the bits of A with the sign of B; no flag. -/
def execFcpys (stl : BitVec 3) (d a b : BitVec 7) (s : State) : Outcome State Fault Refusal :=
  issueLane (.fcpys stl d a b) (f32Bin d a b fun _ x y => (x % 2 ^ 31 + y / 2 ^ 31 * 2 ^ 31, 0)) s
/-- FCPYS (R125, R132): uniform. -/
def execFcpysU (stl : BitVec 3) (d a b : BitVec 7) (s : State) : Outcome State Fault Refusal :=
  issueUniform (.fcpysU stl d a b) (u32Bin d a b fun _ x y => (x % 2 ^ 31 + y / 2 ^ 31 * 2 ^ 31, 0)) s
/-- FFMA (R123): D is the third source. -/
def execFfma (stl : BitVec 3) (d a b : BitVec 7) (s : State) : Outcome State Fault Refusal :=
  issueLane (.ffma stl d a b) (fun e t =>
    let x := e.vec a t; let y := e.vec b t; let z := e.vec d t
    let r := fFma .fp32 (arithMode e.g) x.val.toNat y.val.toNat z.val.toNat
    { vw := [(e.g.num d, ⟨w32 r.1, x.poison || y.poison || z.poison⟩)], fl := r.2 }) s
/-- FFMA (R123, R132): uniform. -/
def execFfmaU (stl : BitVec 3) (d a b : BitVec 7) (s : State) : Outcome State Fault Refusal :=
  issueUniform (.ffmaU stl d a b) (fun e =>
    let x := e.uni a; let y := e.uni b; let z := e.uni d
    let r := fFma .fp32 (arithMode e.g) x.val.toNat y.val.toNat z.val.toNat
    { sw := [(d.toNat, ⟨w32 r.1, x.poison || y.poison || z.poison⟩)], fl := r.2 }) s
/-- DFMA (R123): lane. -/
def execDfma (stl : BitVec 3) (d a b : BitVec 7) (s : State) : Outcome State Fault Refusal :=
  issueLane (.dfma stl d a b) (fun e t =>
    let x := e.f64 a t; let y := e.f64 b t; let z := e.f64 d t
    let r := fFma .fp64 (arithMode e.g) x.1 y.1 z.1
    { vw := e.wrPair d r.1 (x.2 || y.2 || z.2), fl := r.2 }) s
/-- DFMA (R123, R132): uniform. -/
def execDfmaU (stl : BitVec 3) (d a b : BitVec 7) (s : State) : Outcome State Fault Refusal :=
  issueUniform (.dfmaU stl d a b) (fun e =>
    let x := e.uf64 a; let y := e.uf64 b; let z := e.uf64 d
    let r := fFma .fp64 (arithMode e.g) x.1 y.1 z.1
    { sw := wrUPair d r.1 (x.2 || y.2 || z.2), fl := r.2 }) s

/-! ### Compares (R126) -/

/-- The predicate and flags of a lane compare; a poisoned source traps POISON. -/
def cmpRes (fmt : Fmt) (c : BitVec 4) (p : BitVec 3) (x y : Nat × Bool) : TRes :=
  if x.2 || y.2 then { err := some (trap .poison) }
  else { pw := [(p.toNat, (fCmp fmt c.toNat x.1 y.1).1)], fl := (fCmp fmt c.toNat x.1 y.1).2 }
def cmpURes (fmt : Fmt) (c : BitVec 4) (p : BitVec 3) (x y : Nat × Bool) : URes :=
  if x.2 || y.2 then { err := some (trap .poison) }
  else { qw := [(p.toNat, (fCmp fmt c.toNat x.1 y.1).1)], fl := (fCmp fmt c.toNat x.1 y.1).2 }
def RegVal.nat (r : RegVal) : Nat × Bool := (r.val.toNat, r.poison)
/-- FCMP (R126): lane. -/
def execFcmp (stl : BitVec 3) (c : BitVec 4) (p : BitVec 3) (a b : BitVec 7) (s : State) : Outcome State Fault Refusal :=
  issueLane (.fcmp stl c p a b) (fun e t => cmpRes .fp32 c p (e.vec a t).nat (e.vec b t).nat) s
/-- FCMP (R126, R132): uniform. -/
def execFcmpU (stl : BitVec 3) (c : BitVec 4) (p : BitVec 3) (a b : BitVec 7) (s : State) : Outcome State Fault Refusal :=
  issueUniform (.fcmpU stl c p a b) (fun e => cmpURes .fp32 c p (e.uni a).nat (e.uni b).nat) s
/-- DCMP (R126): lane. -/
def execDcmp (stl : BitVec 3) (c : BitVec 4) (p : BitVec 3) (a b : BitVec 7) (s : State) : Outcome State Fault Refusal :=
  issueLane (.dcmp stl c p a b) (fun e t => cmpRes .fp64 c p (e.f64 a t) (e.f64 b t)) s
/-- DCMP (R126, R132): uniform. -/
def execDcmpU (stl : BitVec 3) (c : BitVec 4) (p : BitVec 3) (a b : BitVec 7) (s : State) : Outcome State Fault Refusal :=
  issueUniform (.dcmpU stl c p a b) (fun e => cmpURes .fp64 c p (e.uf64 a) (e.uf64 b)) s
/-- FMULI (R127): the immediate is an FP32 pattern. -/
def execFmuli (stl : BitVec 3) (d a : BitVec 7) (imm : BitVec 32) (s : State) : Outcome State Fault Refusal :=
  issueLane (.fmuli stl d a imm) (fun e t =>
    let x := e.vec a t
    let r := fMul .fp32 (arithMode e.g) x.val.toNat imm.toNat
    { vw := [(e.g.num d, ⟨w32 r.1, x.poison⟩)], fl := r.2 }) s

/-! ### Conversions and classes (R128 to R131) -/

/-- Source and destination of an FCVT code (R128). -/
def fcvtFmts (c : BitVec 4) : Fmt × Fmt :=
  match c.toNat with
  | 0 => (.fp32, .fp16) | 1 => (.fp32, .bf16) | 2 => (.fp16, .fp32) | 3 => (.bf16, .fp32) | 4 => (.fp32, .e5m2)
  | 5 => (.fp32, .e4m3) | 6 => (.e5m2, .fp32) | 7 => (.e4m3, .fp32) | 8 => (.fp32, .e2m1) | 9 => (.e2m1, .fp32)
  | 10 => (.fp32, .int 32 true) | 11 => (.fp32, .int 32 false) | 12 => (.int 32 true, .fp32) | 13 => (.int 32 false, .fp32)
  | 14 => (.fp32, .p32) | _ => (.p32, .fp32)
/-- Source and destination of a DCVT code below 10 (R131). -/
def dcvtFmts (c : BitVec 4) : Fmt × Fmt :=
  match c.toNat with
  | 0 => (.fp64, .fp32) | 1 => (.fp32, .fp64) | 2 => (.fp64, .int 32 true) | 3 => (.fp64, .int 32 false) | 4 => (.int 32 true, .fp64)
  | 5 => (.int 32 false, .fp64) | 6 => (.fp64, .int 64 true) | 7 => (.fp64, .int 64 false) | 8 => (.int 64 true, .fp64)
  | _ => (.int 64 false, .fp64)
/-- FCVT of an element under a mode; source bits above the source's width take no part (R128). -/
def fcvtOp (c : BitVec 4) (m : RMode) (x : Nat) : Nat × Flags :=
  let (src, dst) := fcvtFmts c
  fConvert src dst (if fcvtExact c then .rne else m) (x % 2 ^ src.bits)
/-- DCVT of an element under a mode (R131). -/
def dcvtOp (c : BitVec 4) (m : RMode) (x : Nat) : Nat × Flags :=
  if c = 10 then fRint .fp64 m x
  else
    let (src, dst) := dcvtFmts c
    fConvert src dst (if dcvtNoSR c then .rne else m) (x % 2 ^ src.bits)
/-- FCVT (R128): lane. -/
def execFcvt (stl : BitVec 3) (d a : BitVec 7) (c : BitVec 4) (m : BitVec 3) (s : State) : Outcome State Fault Refusal :=
  issueLane (.fcvt stl d a c m) (fun e t =>
    let x := e.vec a t; let r := fcvtOp c (convMode e m t 0) x.val.toNat
    { vw := [(e.g.num d, ⟨w32 r.1, x.poison⟩)], fl := r.2, srn := m == 5 }) s
/-- FCVT (R128, R132): uniform. -/
def execFcvtU (stl : BitVec 3) (d a : BitVec 7) (c : BitVec 4) (m : BitVec 3) (s : State) : Outcome State Fault Refusal :=
  issueUniform (.fcvtU stl d a c m) (fun e =>
    let x := e.uni a; let r := fcvtOp c (convMode e m 127 0) x.val.toNat
    { sw := [(d.toNat, ⟨w32 r.1, x.poison⟩)], fl := r.2, srn := m == 5 }) s
/-- FRND (R129): lane. -/
def execFrnd (stl : BitVec 3) (d a : BitVec 7) (m : BitVec 3) (s : State) : Outcome State Fault Refusal :=
  issueLane (.frnd stl d a m) (fun e t =>
    let x := e.vec a t; let r := fRint .fp32 (convMode e m t 0) x.val.toNat
    { vw := [(e.g.num d, ⟨w32 r.1, x.poison⟩)], fl := r.2 }) s
/-- FRND (R129, R132): uniform. -/
def execFrndU (stl : BitVec 3) (d a : BitVec 7) (m : BitVec 3) (s : State) : Outcome State Fault Refusal :=
  issueUniform (.frndU stl d a m) (fun e =>
    let x := e.uni a; let r := fRint .fp32 (convMode e m 127 0) x.val.toNat
    { sw := [(d.toNat, ⟨w32 r.1, x.poison⟩)], fl := r.2 }) s
/-- FCLASS (R130): lane; no flag. -/
def execFclass (stl : BitVec 3) (d a : BitVec 7) (s : State) : Outcome State Fault Refusal :=
  issueLane (.fclass stl d a) (fun e t => { vw := [(e.g.num d, ⟨w32 (fClass (e.vec a t).val.toNat), (e.vec a t).poison⟩)] }) s
/-- FCLASS (R130, R132): uniform. -/
def execFclassU (stl : BitVec 3) (d a : BitVec 7) (s : State) : Outcome State Fault Refusal :=
  issueUniform (.fclassU stl d a) (fun e => { sw := [(d.toNat, ⟨w32 (fClass (e.uni a).val.toNat), (e.uni a).poison⟩)] }) s
/-- DCVT (R131): lane. -/
def execDcvt (stl : BitVec 3) (d a : BitVec 7) (c : BitVec 4) (m : BitVec 3) (s : State) : Outcome State Fault Refusal :=
  issueLane (.dcvt stl d a c m) (fun e t =>
    let x := if dcvtA c = 1 then (e.vec a t).nat else e.f64 a t
    let r := dcvtOp c (convMode e m t 0) x.1
    { vw := if dcvtD c = 1 then [(e.g.num d, ⟨w32 r.1, x.2⟩)] else e.wrPair d r.1 x.2, fl := r.2, srn := m == 5 }) s
/-- DCVT (R131, R132): uniform. -/
def execDcvtU (stl : BitVec 3) (d a : BitVec 7) (c : BitVec 4) (m : BitVec 3) (s : State) : Outcome State Fault Refusal :=
  issueUniform (.dcvtU stl d a c m) (fun e =>
    let x := if dcvtA c = 1 then (e.uni a).nat else e.uf64 a
    let r := dcvtOp c (convMode e m 127 0) x.1
    { sw := if dcvtD c = 1 then [(d.toNat, ⟨w32 r.1, x.2⟩)] else wrUPair d r.1 x.2, fl := r.2, srn := m == 5 }) s

/-! ### Fixed point (R145) -/

/-- The registers of the fixed-point operand of CVTFX: a pair, or a quad. -/
def fxRegs (fxw : BitVec 2) : Nat := if fxw = 1 then 4 else 2
/-- A little-endian number of consecutive v registers, with the OR of their poison. -/
def Env.wide (e : Env) (r t : Nat) : Nat → Nat × Bool
  | 0 => (0, false)
  | n + 1 => let x := e.v r t; let y := e.wide (r + 1) t n; (x.val.toNat + 2 ^ 32 * y.1, x.poison || y.2)
/-- The writes of a number to consecutive v registers. -/
def wrWide (r : Nat) (z : Bool) : Nat → Nat → List (Nat × RegVal)
  | 0, _ => []
  | n + 1, x => (r, ⟨w32 x, z⟩) :: wrWide (r + 1) z n (x / 2 ^ 32)
/-- CVTFX (R145). -/
def execCvtfx (stl : BitVec 3) (d a : BitVec 7) (dir : BitVec 1) (rm : BitVec 3) (fxw : BitVec 2) (frac : BitVec 7) (s : State) :
    Outcome State Fault Refusal :=
  issueLane (.cvtfx stl d a dir rm fxw frac) (fun e t =>
    let mode := convMode e rm t 0
    let n := fxRegs fxw
    if dir = 0 then
      let x := e.vec a t
      let v := Fmt.fp32.value x.val.toNat
      let r := roundInt (32 * n) true mode (match v with | .num q => .num (q * pow2 frac.toNat) | y => y)
      { vw := wrWide (2 * e.g.num d) x.poison n r.1, fl := r.2 ||| siOf .fp32 [x.val.toNat], srn := rm == 5 }
    else
      let x := e.wide (2 * e.g.num a) t n
      let r := roundTo .fp32 mode (.ofRat ((signedOf (32 * n) x.1 : Rat) * pow2 (-(frac.toNat : Int))))
      { vw := [(e.g.num d, ⟨w32 r.1, x.2⟩)], fl := r.2, srn := rm == 5 }) s

/-! ### Special functions (R133, R134) -/

/-- A special function of A for one thread. -/
def specRes (fn : SpecFn) (d a : BitVec 7) (e : Env) (t : Nat) : TRes :=
  let x := e.vec a t
  let r := fn.eval x.val
  { vw := [(e.g.num d, ⟨r.1, x.poison⟩)], fl := r.2 }
/-- RCP (R133, R134). -/
def execRcp (stl : BitVec 3) (d a : BitVec 7) (s : State) : Outcome State Fault Refusal :=
  issueVariable (.rcp stl d a) .other (specRes .rcp d a) s
/-- RSQ (R133, R134). -/
def execRsq (stl : BitVec 3) (d a : BitVec 7) (s : State) : Outcome State Fault Refusal :=
  issueVariable (.rsq stl d a) .other (specRes .rsq d a) s
/-- SQRT (R133, R134). -/
def execSqrt (stl : BitVec 3) (d a : BitVec 7) (s : State) : Outcome State Fault Refusal :=
  issueVariable (.sqrt stl d a) .other (specRes .sqrt d a) s
/-- EXP2 (R133, R134). -/
def execExp2 (stl : BitVec 3) (d a : BitVec 7) (s : State) : Outcome State Fault Refusal :=
  issueVariable (.exp2 stl d a) .other (specRes .exp2 d a) s
/-- LOG2 (R133, R134). -/
def execLog2 (stl : BitVec 3) (d a : BitVec 7) (s : State) : Outcome State Fault Refusal :=
  issueVariable (.log2 stl d a) .other (specRes .log2 d a) s
/-- SINPI (R133, R134). -/
def execSinpi (stl : BitVec 3) (d a : BitVec 7) (s : State) : Outcome State Fault Refusal :=
  issueVariable (.sinpi stl d a) .other (specRes .sinpi d a) s
/-- COSPI (R133, R134). -/
def execCospi (stl : BitVec 3) (d a : BitVec 7) (s : State) : Outcome State Fault Refusal :=
  issueVariable (.cospi stl d a) .other (specRes .cospi d a) s
/-- TANH (R133, R134). -/
def execTanh (stl : BitVec 3) (d a : BitVec 7) (s : State) : Outcome State Fault Refusal :=
  issueVariable (.tanh stl d a) .other (specRes .tanh d a) s
/-- SIGM (R133, R134). -/
def execSigm (stl : BitVec 3) (d a : BitVec 7) (s : State) : Outcome State Fault Refusal :=
  issueVariable (.sigm stl d a) .other (specRes .sigm d a) s
/-- ERF (R133, R134). -/
def execErf (stl : BitVec 3) (d a : BitVec 7) (s : State) : Outcome State Fault Refusal :=
  issueVariable (.erf stl d a) .other (specRes .erf d a) s
/-- GELU (R133, R134). -/
def execGelu (stl : BitVec 3) (d a : BitVec 7) (s : State) : Outcome State Fault Refusal :=
  issueVariable (.gelu stl d a) .other (specRes .gelu d a) s
/-- SILU (R133, R134). -/
def execSilu (stl : BitVec 3) (d a : BitVec 7) (s : State) : Outcome State Fault Refusal :=
  issueVariable (.silu stl d a) .other (specRes .silu d a) s

/-! ### Complex arithmetic (R135, R136) -/

/-- The parts of a complex register for a thread: real, imaginary. -/
def Env.cx (e : Env) (f : BitVec 7) (t : Nat) : RegVal × RegVal := (e.span f 2 0 t, e.span f 2 1 t)
/-- One component: a sum of products of registers rounded once, its poison the OR of what it reads. -/
def part32 (m : RMode) (ts : List (Bool × List RegVal)) : RegVal × Flags :=
  let r := sumProducts .fp32 m (ts.map fun t => (t.1, t.2.map fun x => x.val.toNat))
  (⟨w32 r.1, ts.any fun t => t.2.any (·.poison)⟩, r.2)
/-- A complex result from its parts. -/
def cxRes (e : Env) (d : BitVec 7) (re im : RegVal × Flags) : TRes :=
  { vw := [(2 * e.g.num d, re.1), (2 * e.g.num d + 1, im.1)], fl := re.2 ||| im.2 }
/-- ZADD (R135). -/
def execZadd (stl : BitVec 3) (d a b : BitVec 7) (s : State) : Outcome State Fault Refusal :=
  issueLane (.zadd stl d a b) (fun e t =>
    let x := e.cx a t; let y := e.cx b t; let m := arithMode e.g
    cxRes e d (part32 m [(false, [x.1]), (false, [y.1])]) (part32 m [(false, [x.2]), (false, [y.2])])) s
/-- ZMUL (R135). -/
def execZmul (stl : BitVec 3) (d a b : BitVec 7) (s : State) : Outcome State Fault Refusal :=
  issueLane (.zmul stl d a b) (fun e t =>
    let x := e.cx a t; let y := e.cx b t; let m := arithMode e.g
    cxRes e d (part32 m [(false, [x.1, y.1]), (true, [x.2, y.2])]) (part32 m [(false, [x.1, y.2]), (false, [x.2, y.1])])) s
/-- ZFMA (R135): D is the third source. -/
def execZfma (stl : BitVec 3) (d a b : BitVec 7) (s : State) : Outcome State Fault Refusal :=
  issueLane (.zfma stl d a b) (fun e t =>
    let x := e.cx a t; let y := e.cx b t; let z := e.cx d t; let m := arithMode e.g
    cxRes e d (part32 m [(false, [z.1]), (false, [x.1, y.1]), (true, [x.2, y.2])])
      (part32 m [(false, [z.2]), (false, [x.1, y.2]), (false, [x.2, y.1])])) s
/-- The magnitude of a complex value (R136): correctly rounded RNE, +∞ when either part is infinite. -/
def cxAbs (x y : RegVal) : RegVal × Flags :=
  let u := Fmt.fp32.value x.val.toNat; let v := Fmt.fp32.value y.val.toNat
  let z := x.poison || y.poison
  let iv := (if u.isSNan || v.isSNan then fIV else 0) ||| siOf .fp32 [x.val.toNat, y.val.toNat]
  match u, v with
  | .inf _, _ | _, .inf _ => (⟨w32 (f32Inf false), z⟩, iv)
  | .nan _, _ | _, .nan _ => (⟨w32 Fmt.fp32.qnan, z⟩, iv)
  | _, _ =>
    let q := u.rat * u.rat + v.rat * v.rat
    if q = 0 then (⟨0, z⟩, iv)
    else
      let r := sqrtIv 400 q
      let y := roundTo .fp32 .rne (.num (if r.lo = r.hi then r.lo else (r.lo + r.hi) / 2))
      (⟨w32 y.1, z⟩, y.2 ||| iv)
/-- An element negated, a NaN becoming canonical (R136); the sign of a NaN is not kept. -/
def negElem (neg : Bool) (x : RegVal) : RegVal × Flags :=
  match Fmt.fp32.value x.val.toNat with
  | .nan s => (⟨w32 Fmt.fp32.qnan, x.poison⟩, if s then fIV else 0)
  | _ => (⟨if neg then x.val ^^^ 0x80000000 else x.val, x.poison⟩, siOf .fp32 [x.val.toNat])
/-- ZOP (R136). -/
def execZop (stl : BitVec 3) (d a o : BitVec 7) (s : State) : Outcome State Fault Refusal :=
  issueLane (.zop stl d a o) (fun e t =>
    let x := e.cx a t; let m := arithMode e.g
    let zero : RegVal × Flags := (⟨0, false⟩, 0)
    match o.toNat with
    | 0 => cxRes e d (negElem false x.1) (negElem true x.2)
    | 1 => cxRes e d (part32 m [(false, [x.1, x.1]), (false, [x.2, x.2])]) zero
    | 2 =>
      let c := SpecFn.cospi.eval x.1.val; let sn := SpecFn.sinpi.eval x.1.val
      cxRes e d (⟨c.1, x.1.poison⟩, c.2) (⟨sn.1, x.1.poison⟩, sn.2)
    | 3 => cxRes e d (negElem true x.2) (negElem false x.1)
    | _ => cxRes e d (cxAbs x.1 x.2) zero) s

end Sys2Proof.Machine
end

