-- ==== Sys2Proof/Machine/CrossLane.lean ====
section
/-! DEFINITION. Cross-lane exchange inside partition tiles (R173 to R177). -/
namespace Sys2Proof.Machine
open Sys2Proof Host

/-- The active members of a thread's partition tile, ascending (R173): same row, same ⌊LANE / PARTN⌋. -/
def Env.tile (e : Env) (t : Nat) : List Nat :=
  (threadsOf e.p.mask).filter fun u => u / 32 == t / 32 && u % 32 / e.g.partn == t % 32 / e.g.partn
/-- Tile-relative lane. -/
def Env.rel (e : Env) (t : Nat) : Nat := t % 32 % e.g.partn
/-- The active member of the tile with relative lane r. -/
def Env.member (e : Env) (t r : Nat) : Option Nat := (e.tile t).find? fun u => e.rel u == r

/-- VOTE (R174). -/
def execVote (stl : BitVec 3) (d : BitVec 7) (k n : BitVec 1) (p : BitVec 3) (m : BitVec 7) (s : State) : Outcome State Fault Refusal :=
  issueLane (.vote stl d k n p m) (fun e t =>
    let ms := e.tile t
    let yes := ms.filter fun u => e.pred k n p u
    let pr (x : Bool) : TRes := { pw := if d.getLsbD 4 then [] else [((d.extractLsb' 0 3).toNat, x)] }
    match m.toNat with
    | 0 => pr !yes.isEmpty
    | 1 => pr (yes.length == ms.length)
    | 2 => { vw := [(e.g.num d, ⟨w32 (yes.foldl (fun x u => x + 2 ^ e.rel u) 0), false⟩)] }
    | _ => { vw := [(e.g.num d, ⟨w32 yes.length, false⟩)] }) s

/-- The relative lane SHFL takes from (R175), none when outside the tile. -/
def shflSource (mode c r partn : Nat) : Option Nat :=
  let x : Option Nat := match mode with
    | 0 => some c | 1 => if c ≤ r then some (r - c) else none | 2 => some (r + c) | _ => some (r ^^^ c)
  x.filter (· < partn)
/-- SHFL (R175). -/
def execShfl (stl : BitVec 3) (d a : BitVec 7) (m : BitVec 2) (c : BitVec 5) (s : State) : Outcome State Fault Refusal :=
  issueLane (.shfl stl d a m c) (fun e t =>
    let src := ((shflSource m.toNat c.toNat (e.rel t) e.g.partn).bind (e.member t)).getD t
    { vw := [(e.g.num d, e.vec a src)] }) s
/-- PUSHL (R176): the highest-numbered sender to a member wins; a member nobody sends to keeps D. -/
def execPushl (stl : BitVec 3) (d a b : BitVec 7) (s : State) : Outcome State Fault Refusal :=
  issueLane (.pushl stl d a b) (fun e t =>
    let senders := (e.tile t).filter fun u => (e.vec b u).val.toNat == e.rel t
    { vw := [(e.g.num d, match senders.getLast? with | some u => e.vec a u | none => e.vec d t)] }) s

/-- The reduction of TRED over the members' values (R177). -/
def tredOp (o : Nat) (m : RMode) (xs : List Word) : Word × Flags :=
  let fold (f : Word → Word → Word) : Word × Flags := match xs with | [] => (0, 0) | x :: r => (r.foldl f x, 0)
  let ns := xs.map (·.toNat)
  let mm (mx : Bool) : Word × Flags :=
    match ns with
    | [] => (0, 0)
    | x :: r =>
      let y := r.foldl (fun a b => (fMinMax .fp32 mx a b).1) x
      (w32 (if ns.all fun n => (Fmt.fp32.value n).isNan then Fmt.fp32.qnan else y),
       (if ns.any fun n => (Fmt.fp32.value n).isSNan then fIV else 0) ||| siOf .fp32 ns)
  match o with
  | 0 => fold (· + ·) | 1 => fold fun x y => if x.slt y then x else y | 2 => fold fun x y => if x.slt y then y else x
  | 3 => fold fun x y => if x.ult y then x else y | 4 => fold fun x y => if x.ult y then y else x
  | 5 => fold (· &&& ·) | 6 => fold (· ||| ·) | 7 => fold (· ^^^ ·)
  | 8 => let r := sumProducts .fp32 m (ns.map fun n => (false, [n])); (w32 r.1, r.2)
  | 9 => mm false
  | _ => mm true
/-- TRED (R177). -/
def execTred (stl : BitVec 3) (d a o : BitVec 7) (s : State) : Outcome State Fault Refusal :=
  issueLane (.tred stl d a o) (fun e t =>
    let xs := (e.tile t).map fun u => e.vec a u
    let r := tredOp o.toNat (arithMode e.g) (xs.map (·.val))
    { vw := [(e.g.num d, ⟨r.1, xs.any (·.poison)⟩)], fl := r.2 }) s

end Sys2Proof.Machine
end

