-- ==== Sys2Proof/Machine/Home.lean ====
section
/-! DEFINITION. Requests on their way to their homes: errors found on reading (R426, R427, R433), the order of a path's accesses (R162,
R272, R273, R282, R287), arrival order at a home (R270), and how a home serves loads, stores, atomics and full-empty requests (R150 to
R159, R279). -/
namespace Sys2Proof.Machine
open Sys2Proof

/-! ### Errors found (R426, R427, R432 to R434) -/

/-- A record of the error log but for its SEQ (R433). -/
def errRecord (unit cls loc addr : Nat) (ctx : Option Nat) (synd n : Nat) : BitVec 512 :=
  BitVec.ofNat 512 (addr % 2 ^ 56 * 2 ^ 456 + loc % 2 ^ 16 * 2 ^ 432 + unit % 16 * 2 ^ 428 + cls % 16 * 2 ^ 424 + n % 2 ^ 32 * 2 ^ 384
    + (match ctx with | some c => c % 64 * 2 ^ 346 + 2 ^ 345 | none => 0) + synd % 2 ^ 16 * 2 ^ 328)

/-- A vector is raised (R412): its message goes now, or waits for the end of its 4,096 clocks. -/
def State.msix (s : State) (v : Nat) : State :=
  let d := s.dev
  let (last, _) := SMap.get (0, false) d.msix v
  if last = 0 ∨ last + 4095 ≤ s.clock then
    { s with dev := { d with msix := SMap.put d.msix v (s.clock + 1, false), sent := SMap.upd 0 d.sent v (· + 1) } }
  else { s with dev := { d with msix := SMap.put d.msix v (last, true) } }

/-- The compute dies powered down (R462): what runs on them and what they and the memory hold is lost, and a command in progress, but ATTEST, ends
with BADSTATE. -/
def State.powerDown (s : State) : State :=
  { s with
    mem := ⟨[], [], [], []⟩, reqs := [], loads := [], bars := [], tlb := [], walks := [], results := [], codeWas := [], spoiled := []
    groups := [], blocks := [], cores := [], tasks := [], turn := (0, 0, 0), records := [], stopRecs := [], acts := [], arms := [], ecmds := [], films := []
    treeReqs := [], fab := [], ctxs := s.ctxs.map fun (e : Nat × Ctx) => (e.1, { e.2 with trees := [], netCopies := [], frames := [] })
    dev := { s.dev with
      busy := s.dev.busy.filter fun b => b.1 == 16, result := if (s.dev.busy.filter fun b => b.1 != 16).isSome then 2 else s.dev.result
      dbusy := none, dresult := if s.dev.dbusy.isSome then 2 else s.dev.dresult, stops := [], stopWait := [], tracing := [], leap := [] } }

/-- The fatal state (R462): FATAL and RSN, the first reason standing, every context's results lost; one met during boot fails it with reason 9
instead (R457). -/
def State.goFatal (s : State) (reason : Nat) : State :=
  if s.fatal then s
  else { s.powerDown with fatal := true, dev := { s.powerDown.dev with rsn := if s.dev.ready || s.dev.axolotl then reason else 9 } }.msix 64

/-- The persistent area of the flash is written (R458). -/
def State.persist (s : State) (f : Persist → Persist) : State := { s with dev := { s.dev with kept := s.dev.kept.write f, flashing := true } }

/-- The class of a record, and its location: unit, LOC and ADDR as one number. -/
def errClass (r : BitVec 512) : Nat := (r.extractLsb' 424 4).toNat
def errPlace (r : BitVec 512) : Nat := (r.extractLsb' 456 56).toNat + 2 ^ 56 * ((r.extractLsb' 432 16).toNat + 2 ^ 16 * (r.extractLsb' 428 4).toNat)

/-- The earliest held record enters the log, and vector 64 signals (R434). -/
def State.logWrite (s : State) : State :=
  let l := s.errlog
  match l.held with
  | [] => s
  | r :: rest =>
    let r := r ||| BitVec.ofNat 512 (l.prod.toNat * 2 ^ 352)
    { s with errlog := { l with held := rest, recs := SMap.put l.recs (l.prod.toNat % 64) r, prod := l.prod + 1 } }.msix 64

/-- Records are written as far as the last of an uncorrectable error while the log is not full; fuel the number held. -/
def State.logDrain : Nat → State → State
  | 0, s => s
  | n + 1, s => if s.errlog.held.any (fun r => errClass r != 1) && s.errlog.prod - s.errlog.cons != 64 then State.logDrain n s.logWrite else s

/-- A record on its way to the log; with more than 4,096 held the package enters its fatal state, and class 1 records are dropped
while the log is full (R434), which the location's next record counts (R433). The record of an uncorrectable error is performed at once unless the
log is full, so that it is there before any trap its poison causes (R434). The syndrome is a free value. -/
def State.logError (s : State) (unit cls loc addr : Nat) (ctx : Option Nat) : State :=
  let (x, s) := s.draw
  let l := s.errlog
  let key := errPlace (errRecord unit cls loc addr none 0 0)
  let n := if cls = 1 then SMap.get 0 l.missed key + 1 else 1
  let r := errRecord unit cls loc addr ctx (x.toNat % 2 ^ 16) n
  if cls = 1 && l.prod - l.cons == 64 then { s with errlog := { l with cedrop := min (l.cedrop + 1) 65535, missed := SMap.set 0 l.missed key n } }
  else
    let s := { s with errlog := { l with held := l.held ++ [r], missed := if cls = 1 then SMap.set 0 l.missed key 0 else l.missed } }
    let s := if cls = 1 then s else State.logDrain (l.held.length + 1) s
    if 4096 < s.errlog.held.length then s.goFatal 12 else s

/-- Where a line's error record places it (R433): unit, location, address. -/
def linePlace (line : Nat) : Nat × Nat × Nat :=
  if inSlice (64 * line) then (1, coreOfPA (64 * line), 0) else (0, 64 * line / 2 ^ 36, 64 * line)

/-- Corrected errors met in a line's row of HBM: at 16, and at once for an uncorrectable one, the row joins the repair list (R437). -/
def State.rowError (s : State) (line n : Nat) : State :=
  if inSlice (64 * line) then s
  else
    let row := line / 16
    let k := s.dev.kept
    let met := SMap.get 0 k.rows row + n
    let s1 := { s with dev := { s.dev with kept := { k with rows := SMap.set 0 k.rows row met } } }
    if 16 ≤ met && !k.repair.contains row then s1.persist fun p => { p with repair := p.repair ++ [row] } else s1

/-- An access or a scrub meets a line (R426, R427, R435): a correctable error is mended and counted, an uncorrectable one marks the
line, sets its tags full in a slice, and is recorded in the given class. -/
def State.meetLine (s : State) (line cls : Nat) (ctx : Option Nat) : State :=
  let place := linePlace line
  match SMap.get 0 s.mem.latent line with
  | 1 =>
    let s1 := { s with mem := { s.mem with latent := SMap.set 0 s.mem.latent line 0 }
                       errlog := { s.errlog with cecnt := min (s.errlog.cecnt + 1) (2 ^ 32 - 1) } }
    (s1.rowError line 1).logError place.1 1 place.2.1 place.2.2 ctx
  | 2 =>
    let m := s.mem.mark line true
    let m := if inSlice (64 * line) then (List.range 4).foldl (fun m k => m.setTag (64 * line + 16 * k) true) m else m
    ({ s with mem := m }.rowError line 16).logError place.1 cls place.2.1 place.2.2 ctx
  | _ => s

/-- The lines of a range. -/
def linesOf (pa n : Nat) : List Nat := if n = 0 then [] else (List.range ((pa + n - 1) / 64 - pa / 64 + 1)).map (· + pa / 64)

/-- An access meets the lines of n bytes (R426, R427, R431): what errors it finds is mended or recorded; and whether a line is poisoned. -/
def State.meetWord (s : State) (ctx : Option Nat) (pa n : Nat) : State × Bool :=
  let s := (linesOf pa n).foldl (fun s l => s.meetLine l 2 ctx) s
  (s, s.mem.anyPoison pa n)

/-- Whether a home address lies in some block's film outbox (R267). -/
def State.inOutbox (s : State) (pa : Nat) : Bool :=
  s.housed.any fun b =>
    let lo := slicePA b.core (b.fbase + b.fsize - 4096)
    decide (4096 ≤ b.fsize ∧ lo ≤ pa ∧ pa < lo + 4096)

/-- Bytes of spawn stacks in a block's footprint (R266). -/
def Blk.spawnSize (b : Blk) : Nat := (b.gpb * 96 * b.spawn * 64 + 4095) / 4096 * 4096
/-- The first home of a block's spawn area. -/
def Blk.spawnBase (b : Blk) : Nat := slicePA b.core (b.fbase + (b.fsize - 4096 - b.spawnSize))
/-- Whether a home address lies in some block's spawn area (R267). -/
def State.inSpawn (s : State) (pa : Nat) : Bool := s.housed.any fun b => decide (b.spawnBase ≤ pa ∧ pa < b.spawnBase + b.spawnSize)

/-- n bytes read at a home line by line (R90, R430); fuel the number of lines: their value, which of them a poisoned line delivered, and the
state after errors were found. What a poisoned line, the film outbox (R267) or a spawn area (R216) delivers is a free value. -/
def State.readLines (s : State) (ctx : Option Nat) : Nat → Nat → Nat → Nat × List Bool × State
  | 0, _, _ => (0, [], s)
  | fuel + 1, pa, n =>
    let m := min n (64 - pa % 64)
    if n = 0 then (0, [], s)
    else
      let (s1, z) := s.meetWord ctx pa m
      let (x, s2) := if z || s1.inOutbox pa || s1.inSpawn pa then (let (x, s2) := s1.draw; (x.toNat % 2 ^ (8 * m), s2)) else (s1.mem.readLE pa m, s1)
      let (y, zs, s3) := s2.readLines ctx fuel (pa + m) (n - m)
      (x + 2 ^ (8 * m) * y, List.replicate m z ++ zs, s3)

/-- n bytes read at a home, with the poison of each. -/
def State.readBytes (s : State) (ctx : Option Nat) (pa n : Nat) : Nat × List Bool × State := s.readLines ctx (n / 64 + 2) pa n

/-- A walk meets the lines of the entries it reads from memory (R427). -/
def State.walkMeet (s : State) (die ctx va : Nat) : State :=
  ((s.walkPathAt die ctx va).filter fun x => (s.walkerHeld die ctx va x.1.1).isNone).foldl (fun (s : State) x => s.meetLine (x.1.2.1 / 64) 2 (some ctx)) s

/-- The walks an access of n bytes needs, one for each 64 KiB page that neither a TLB nor a walk in hand answers, meet the lines they read (R374, R375,
R427). -/
def State.meetWalks (s : State) (ag : Agent) (need : Need) (va n : Nat) : State :=
  let known (s : State) (va : Nat) : Bool :=
    let ok (e : Nat × Nat) : Bool := match leafOf e.1 e.2 with | .ok l => l.allows need | .error _ => false
    isAperture va || decide (2 ^ 56 ≤ va) || ((s.tlbAt 0 ag.core ag.ctx va).or (s.tlbAt 1 (clusterOf ag.core) ag.ctx va)).any ok
      || s.walks.any fun w => w.die == dieOf ag.core && w.ctx == ag.ctx && w.page == va / 65536 && (match w.answer.gives with | .ok l => l.allows need | .error _ => false)
  if s.mem.latent.isEmpty || n == 0 then s
  else (List.range ((va + n - 1) / 65536 - va / 65536 + 1)).foldl (fun (s : State) k =>
    let a := max va (65536 * (va / 65536 + k))
    if known s a then s else s.walkMeet (dieOf ag.core) ag.ctx a) s

/-- An access at a virtual address, made at once, meets the lines it reads (R427, R431). -/
def State.meetVa (s : State) (ag : Agent) (va n : Nat) : State :=
  if s.mem.latent.isEmpty then s
  else match s.resolve ag .read va n with
    | .error _ => s.meetWalks ag .read va n
    | .ok ps => ps.foldl (fun s p => (s.meetWord (some ag.ctx) p.home p.len).1) (s.meetWalks ag .read va n)

/-- What a list of reads that ends in a fault has met before it: byte address and length of each, up to the first that faults (R427, R431). -/
def State.meetList (s : State) (ag : Agent) : List (Int × Nat) → State
  | [] => s
  | (va, n) :: rs =>
    if s.mem.latent.isEmpty then s
    else match s.resolve ag .read (va % 2 ^ 64).toNat n with
      | .error _ => s.meetWalks ag .read (va % 2 ^ 64).toNat n
      | .ok _ => (s.meetVa ag (va % 2 ^ 64).toNat n).meetList ag rs

/-- n bytes read at a home: their value, whether a line was poisoned, and the state after. -/
def State.readHome (s : State) (ctx : Option Nat) (pa n : Nat) : Nat × Bool × State :=
  let (x, zs, s1) := s.readBytes ctx pa n
  (x, zs.any id, s1)

/-- The parts of an access read in order, with the poison of each byte. -/
def State.readMarked (s : State) (ctx : Option Nat) : List Part → Nat × List Bool × State
  | [] => (0, [], s)
  | p :: ps =>
    let (x, zs, s1) := s.readBytes ctx p.home p.len
    let (y, ws, s2) := s1.readMarked ctx ps
    (x + 2 ^ (8 * p.len) * y, zs ++ ws, s2)

/-- The parts of an access read in order. -/
def State.readHomes (s : State) (ctx : Option Nat) (ps : List Part) : Nat × Bool × State :=
  let (x, zs, s1) := s.readMarked ctx ps
  (x, zs.any id, s1)

/-! ### Order among requests -/

def Touch.overlaps (a b : Touch) : Bool := decide (a.home < b.home + b.len ∧ b.home < a.home + a.len)

def ReqKind.isFence : ReqKind → Bool | .fence _ => true | _ => false
/-- A request to memory, on its way to its home. -/
def ReqKind.travels : ReqKind → Bool | .fence _ | .acquire | .refused => false | _ => true
def ReqKind.writes : ReqKind → Bool | .store | .atomic | .stfe _ => true | _ => false
def ReqKind.fullEmpty : ReqKind → Bool | .ldfe _ | .stfe _ => true | _ => false
/-- The mesh plane of a request (R270): request, data, atomic. -/
def ReqKind.plane : ReqKind → Nat | .load | .ldfe _ => 0 | .store | .stfe _ => 1 | .atomic => 2 | _ => 3

def MemReq.samePath (x y : MemReq) : Bool := x.gk == y.gk && x.mask &&& y.mask != 0
/-- A load or a returning atomic (R162). -/
def MemReq.loads (x : MemReq) : Bool :=
  match x.kind with | .load | .ldfe _ => true | .atomic => x.atoms.any (·.ret) | _ => false
/-- Some part is strongly ordered (R272). -/
def MemReq.strong (x : MemReq) : Bool := x.parts.any fun p => p.ord == 0

/-- x, issued before y, is ordered before it by their bytes (R273, R150, R287). -/
def MemReq.sameByte (x y : MemReq) : Bool :=
  x.gk == y.gk && x.parts.any fun p => y.parts.any fun q =>
    p.overlaps q && (x.op == y.op || p.ts &&& q.ts != 0 || x.sync &&& y.mask != 0)

/-- x, issued before y, is ordered before it (R282): by bytes, as ORD 00 accesses, by an acquire or a release. -/
def MemReq.before (x y : MemReq) : Bool :=
  x.kind != .refused && (x.sameByte y ||
    (x.samePath y && ((x.strong && y.strong) || (x.op != y.op && (x.acq || y.rel)))))

/-- A fence of y's path holds y back while requests before it are still out (R162). -/
def MemReq.fenced (pre : List MemReq) (f y : MemReq) : Bool :=
  let mine := pre.filter fun x => (x.kind.travels || x.kind == .refused) && x.samePath f
  match f.kind with
  | .fence 1 => mine.any (·.loads)
  | .fence 2 => y.kind.writes && !mine.isEmpty
  | .fence 3 => mine.any (·.loads) || (y.kind.writes && !mine.isEmpty)
  | .fence _ => !mine.isEmpty
  | _ => false

/-- Whether a request issued after those of the list is held back by one of them: `pre` are those already looked at. -/
def MemReq.heldBy (y : MemReq) (pre : List MemReq) : List MemReq → Bool
  | [] => false
  | x :: rest => (if x.kind.isFence then x.samePath y && MemReq.fenced pre x y else x.before y) || y.heldBy (pre ++ [x]) rest

/-- The requests issued before one. -/
def earlier (rid : Nat) (rs : List MemReq) : List MemReq := rs.takeWhile fun x => x.rid != rid
def State.held (s : State) (y : MemReq) : Bool := y.heldBy [] (earlier y.rid s.reqs)

/-- The home a request goes to, for arrival order (R270): the slice, the link to the host (R274, R279), or at a memory controller the line,
since a controller serves its lines side by side (R275; DEDUCED, log entry 94). -/
def MemReq.homeKey (x : MemReq) : Nat :=
  match x.parts with
  | [] => 0
  | p :: _ => if inSlice p.home then coreOfPA p.home else if isHost p.home then 2 ^ 11 else 2 ^ 12 + p.home / 64

/-- The requests that reach a request's home before it: those of its core to the same home on the same plane that left before it and have not yet
arrived, an atomic that has joined another among them (R270, R275). -/
def State.ahead (s : State) (y : MemReq) : List MemReq :=
  s.reqs.filter fun x =>
    x.kind.travels && decide (x.rid < y.rid) && x.core == y.core && x.kind.plane == y.kind.plane && x.homeKey == y.homeKey
      && !(x.queued.isSome && x.kind.fullEmpty) && x.cause == 0 && !x.out && !s.held x

/-- A request may be performed next: nothing orders another before it, and none reaches its home before it (R270). -/
def State.enabled (s : State) (rid : Nat) : Option MemReq :=
  match s.reqs.find? fun x => x.rid == rid with
  | none => none
  | some y => if !y.kind.travels || s.held y || !(s.ahead y).isEmpty then none else some y

/-- Whether an access of a kind to n bytes at a home, made now by a path of the group, is held back (R162, R282). -/
def State.accessHeld (s : State) (kind : ReqKind) (gk : Nat) (m : Mask) (home n ord : Nat) : Bool :=
  MemReq.heldBy
    { rid := s.seq, op := s.seq, gk := gk, ctx := 0, core := 0, bk := 0, pi := 0, pc := 0, mask := m, sync := 0, kind := kind
      parts := [⟨m, 127, 0, home, n, 0, ord, 0, false⟩], acq := false, rel := false, aop := 0, atoms := [], cause := 0, queued := none }
    [] s.reqs

/-- Whether a read is held back. -/
def State.readHeld (s : State) (gk : Nat) (m : Mask) (home n ord : Nat) : Bool := s.accessHeld .load gk m home n ord

/-- What a path made before operation `id` and picked is still out. -/
def State.outBefore (s : State) (gk : Nat) (m : Mask) (id : Nat) (f : MemReq → Bool) : Bool :=
  s.reqs.any fun x => x.gk == gk && x.mask &&& m != 0 && decide (x.op < id) && f x
/-- An acquire that is still to complete goes on its way (R178, R239). -/
def State.mark (s : State) (e : MemReq) : State := { s with reqs := s.reqs ++ [e] }
/-- It completes. -/
def State.unmark (s : State) (op : Nat) : State := { s with reqs := s.reqs.filter fun x => !(x.kind == .acquire && x.op == op) }

/-- A request with no access of its own: a fence, or an acquire, of a path of a group. -/
def State.bare (s : State) (gk : Nat) (m : Mask) (k : ReqKind) : MemReq :=
  let b := (s.grp gk).bind fun g => (s.blk g.blk).map fun b => (g.blk, b.ctx, b.core)
  let (bk, ctx, core) := b.getD (0, 0, 0)
  { rid := s.seq, op := s.seq, gk := gk, ctx := ctx, core := core, bk := bk, pi := 0, pc := 0, mask := m, sync := 0, kind := k, parts := [], acq := k == .acquire
    rel := false, aop := 0, atoms := [], cause := 0, queued := none }

/-- What a release of a path's threads has before it (R282, R287): the path's operations still out, and what its own acquires wait for. -/
def State.depsOf (s : State) (gk : Nat) (m : Mask) : List Nat :=
  ((s.reqs.filter fun x => x.gk == gk && x.mask &&& m != 0).flatMap fun x => if x.kind.travels then [x.op] else x.deps).eraseDups
/-- The acquire of a path that synchronises with a release: later accesses of its threads come after what the release has before it and is still
out (R284, R287). -/
def State.syncTo (s : State) (gk : Nat) (m : Mask) (deps : List Nat) : State :=
  let now := deps.filter fun d => s.reqs.any fun x => x.kind.travels && x.op == d
  if now.isEmpty then s else { s.mark { s.bare gk m .acquire with deps := now } with seq := s.seq + 1 }
/-- Such an acquire is complete once what it waits for has been performed. -/
def State.syncNow (s : State) : Option State :=
  (s.reqs.find? fun r => !r.deps.isEmpty && r.deps.all fun d => s.reqs.all fun x => !(x.kind.travels && x.op == d)).map fun r =>
    { s with reqs := s.reqs.filter fun x => x.rid != r.rid }
/-- A fence of a path: a mark among the requests; nothing where no access of the path is out (R162). -/
def State.fence (s : State) (gk : Nat) (m : Mask) (k : Nat) : State :=
  if s.outBefore gk m s.seq fun x => !x.kind.isFence then { s.mark (s.bare gk m (.fence k)) with seq := s.seq + 1 } else s

/-- Whether some access or acquire the path made before operation `id` is still out: what a release waits for (R282). -/
def State.unsettled (s : State) (gk : Nat) (m : Mask) (id : Nat) : Bool := s.outBefore gk m id fun x => x.kind.travels || x.kind == .acquire
/-- Whether a store or an acquire the path made before operation `id` is still out: what the reads and writes of an engine command or a lane
request wait for (R239, R282, R288). -/
def State.uncleared (s : State) (gk : Nat) (m : Mask) (id : Nat) : Bool := s.outBefore gk m id fun x => x.kind.writes || x.acq
/-- Whether some access or acquire the path has made is still out. -/
def State.outstanding (s : State) (gk : Nat) (m : Mask) : Bool := s.unsettled gk m s.seq

/-- A request leaves the list, and with it the fences nothing stands before any more. -/
def State.dropReq (s : State) (rid : Nat) : State :=
  let rs := s.reqs.filter fun x => x.rid != rid
  let keep (x : MemReq) : Bool := !x.kind.isFence || (earlier x.rid rs).any fun z => !z.kind.isFence && z.samePath x
  { s with reqs := rs.filter keep }

/-! ### Results on their way back -/

/-- The value a load of n bytes delivers (R150). -/
def extendLoad (n : Nat) (sign : Bool) (x : Nat) : Nat :=
  if sign && n < 4 && 2 ^ (8 * n - 1) ≤ x then x + 2 ^ 32 - 2 ^ (8 * n) else x

/-- The writes of a thread's data to consecutive registers from `dest`. -/
def regWrites (dest bytes x : Nat) (poison : Bool) : List (Nat × RegVal) :=
  (List.range (max 1 (bytes / 4))).map fun i => (dest + i, ⟨BitVec.ofNat 32 (x / 2 ^ (32 * i)), poison⟩)

/-- A result on its way for one thread of a load, or for a uniform one. -/
def State.deliver (s : State) (l : LoadOp) (t x : Nat) (poison : Bool) (fl : BitVec 6) : State :=
  let ws := regWrites l.dest l.bytes (extendLoad l.bytes l.sign x) poison
  let r : Result :=
    { id := l.id, gk := l.gk, cls := .load, mask := if l.uni then ~~~0 else BitVec.ofNat 96 (2 ^ t)
      vw := if l.uni then [] else ws.map fun w => (128 * w.1 + t, w.2), sw := if l.uni then ws else [], flags := fl }
  { s with results := s.results ++ [r] }

/-- Data of a thread have come for a load (R32): the result goes on its way when the last byte is there. -/
def State.arrive (s : State) (op : Nat) (t off len x : Nat) (poison : Bool) : State :=
  match s.loads.find? fun l => l.id == op with
  | none => s
  | some l =>
    match l.left.find? fun y => y.1 == t with
    | none => s
    | some (_, n, v, z) =>
      let v := v + x * 2 ^ (8 * off)
      let z := z || poison
      let rest := l.left.filter fun y => y.1 != t
      let put (l : LoadOp) : List LoadOp := s.loads.map fun y => if y.id == op then l else y
      if len < n then { s with loads := put { l with left := (t, n - len, v, z) :: rest } }
      else if l.poll then { s with loads := put { l with left := rest, got := l.got ++ [(t, v, z)] } }
      else
        let s1 := { s with loads := if rest.isEmpty then s.loads.filter fun y => y.id != op else put { l with left := rest } }
        s1.deliver l t v z 0

/-- What changes of a group that is away changes in its saved image too (R205, R379, R447): v registers (keys 128 × register + thread) in their rows;
the area of the other state is saved anew, unless a program has written it. -/
def State.savedWrites (s : State) (gk : Nat) (ws : List (Nat × RegVal)) : State :=
  match s.grp gk with
  | none => s
  | some g =>
    match if g.resident then none else s.blk g.blk with
    | none => s
    | some b =>
      let va (k : Nat) : Option Nat :=
        if k < 128 * 128 then some (s.frameVA b (g.rowsAt + 384 * (k / 128) + 4 * (k % 128)))
        else if b.evicted then some (s.frameVA b (0x100000 + 384 * (k / 128 - 128) + 4 * (k % 128))) else none
      let put (s : State) (w : Nat × RegVal) : State :=
        match va w.1 with | some a => (s.frameWrite (g.agent b) a 4 w.2.val.toNat).getD s | none => s
      let s1 := (ws.filter fun w => g.alive.getLsbD (w.1 % 128)).foldl put s
      let intact := ((s1.frameParts (g.agent b) .read (s.frameVA b g.restAt) 4096).map fun ps => (s1.readParts ps).1) == SMap.find? b.images g.restAt
      if intact then (s1.saveRest gk).getD s1 else s1

/-- A result is written (R32, R107): registers of threads that have not exited take their values, the pending marks clear, the flags are
ORed in. -/
def State.applyResult (s : State) (r : Result) : State :=
  match s.grp r.gk with
  | none => s
  | some g =>
    let s1 := (s.savedWrites r.gk r.vw).wrVs r.gk (r.vw.filter fun w => g.alive.getLsbD (w.1 % 128))
    s1.updGrp r.gk fun g =>
      { g with
        s := SMap.setAll RegVal.zero g.s r.sw
        flags := if g.alive == 0 then g.flags else g.flags ||| r.flags.setWidth 14
        pend := (g.pend.map fun p => if p.id == r.id then { p with mask := p.mask &&& ~~~r.mask } else p).filter fun p => p.mask != 0 }

/-! ### Serving -/

/-- A load is served at its home (R279). -/
def State.serveLoad (s : State) (r : MemReq) : State :=
  r.parts.foldl (fun s p =>
    let (x, z, s1) := s.readHome (some r.ctx) p.home p.len
    s1.arrive r.op p.thread p.off p.len x z) (s.dropReq r.rid)

/-- A part of a request that may go by itself: none before it touches its bytes (R150, R280). -/
def MemReq.part (r : MemReq) (k : Nat) : Option Touch :=
  (r.parts[k]?).filter fun p => (r.parts.take k).all fun q => !q.overlaps p

/-- One part of a load is served at its home, and the rest of it stays on its way (R281, R296). -/
def State.servePart (s : State) (r : MemReq) (k : Nat) : State :=
  match r.part k, r.parts.eraseIdx k with
  | none, _ => s
  | some _, [] => s.serveLoad r
  | some p, rest =>
    let (x, z, s1) := { s with reqs := s.reqs.map fun (y : MemReq) => if y.rid == r.rid then { y with parts := rest } else y : State }.readHome (some r.ctx) p.home p.len
    s1.arrive r.op p.thread p.off p.len x z

/-- The write bytes of a request's touches. -/
def writeBytes (ps : List Touch) : List (Nat × Byte × Bool) := ps.flatMap fun p => leBytes p.home p.poison p.len p.data

/-- A program's write: bytes into a film outbox are discarded (R267), bytes into a spawn area leave free values there (R216). -/
def State.programWrite (s : State) (ws : List (Nat × Byte × Bool)) : State :=
  let ws := ws.filter fun w => !s.inOutbox w.1
  if ws.any fun w => s.inSpawn w.1 then
    let put (w : (Nat × Byte × Bool) × Nat) : Nat × Byte × Bool :=
      if s.inSpawn w.1.1 then (w.1.1, (Config.freeValue (s.free + w.2)).extractLsb' 0 8, w.1.2.2) else w.1
    { s with free := s.free + ws.length }.performWrite (ws.zipIdx.map put)
  else s.performWrite ws

/-- A store is performed (R279). -/
def State.serveStore (s : State) (r : MemReq) : State := (s.dropReq r.rid).programWrite (writeBytes r.parts)

/-- The new value of an atomic of n bytes, with its flags (R151, R155, R156). -/
def atomicNew (aop n old b exp : Nat) : Nat × Flags :=
  let w := 8 * n
  let sg (x : Nat) : Int := signedOf w x
  let fmt : Fmt := if n = 4 then .fp32 else .fp64
  match aop with
  | 0 => ((old + b) % 2 ^ w, 0) | 1 => (old &&& b, 0) | 2 => (old ||| b, 0) | 3 => (old ^^^ b, 0)
  | 4 => (if sg b < sg old then b else old, 0) | 5 => (if sg old < sg b then b else old, 0)
  | 6 => (min old b, 0) | 7 => (max old b, 0) | 8 => (b, 0) | 9 => (if old = exp then b else old, 0)
  | 16 => fAdd fmt .rne old b | 17 => fMinMax fmt false old b | 18 => fMinMax fmt true old b
  | _ => ((old + b) % 2 ^ w, 0)

/-- Threads of a group whose request met poison at its home are to trap POISON (R430, R431; log entry 95). -/
def State.owe (s : State) (gk : Nat) (m : Mask) (va : Nat) : State := s.updGrp gk fun g => { g with owed := g.owed ++ [(m, va)] }

/-- One use of an atomic at its home: the old value goes back, the new one is written; a poisoned operand marks the line, a poisoned
line gives an unspecified old value (R151, R157, R430). An SSIG that meets poison leaves the word, and its path's threads trap (R430). -/
def State.atomicUse (s : State) (aop : Nat) (ctx : Nat) (p : Touch) (u : AtomUse) : State :=
  let (old, z, s) := s.readHome (some ctx) p.home p.len
  let (new, fl) := atomicNew aop p.len old u.b u.exp
  if z && u.thread == 128 then s.owe u.gk p.ts p.va
  else
  let s := s.programWrite (leBytes p.home (z || u.poison) p.len new)
  if u.ret then
    match s.loads.find? fun l => l.id == u.op with
    | none => s
    | some l =>
      let left := l.left.filter fun y => y.1 != u.thread
      let loads := if left.isEmpty then s.loads.filter fun y => y.id != u.op else s.loads.map fun y => if y.id == u.op then { y with left := left } else y
      { s with loads := loads }.deliver l u.thread old (z || u.poison) fl
  else s

/-- The requests that have joined an atomic on its way, in the order in which they left (R153, R270). -/
def State.joined (s : State) (rid : Nat) : List MemReq := s.reqs.filter fun r => r.kind == .atomic && r.queued == some rid

/-- An atomic request is applied at its home, its uses and those of the requests that joined it one after another (R151, R153). -/
def State.serveAtomic (s : State) (r : MemReq) : State :=
  match r.parts with
  | p :: _ => (r :: s.joined r.rid).foldl (fun s x => x.atoms.foldl (fun s u => s.atomicUse x.aop x.ctx (x.parts.headD p) u) (s.dropReq x.rid)) s
  | [] => s.dropReq r.rid

/-- The lowest-placed queued request of a granule that `f` picks. -/
def State.firstQueued (s : State) (granule : Nat) (f : MemReq → Bool) : Option MemReq :=
  s.reqs.foldl (fun b r =>
    match r.queued, r.parts with
    | some q, p :: _ =>
      if p.home / 16 == granule && f r then
        match b with
        | some c => if (c.queued.getD 0) ≤ q then some c else some r
        | none => some r
      else b
    | _, _ => b) none

/-- Whether a path of the path table can take a trap owed to its threads: one that waits for the handler, is escalated or stopped takes it later. -/
def Path.open (p : Path) : Bool :=
  match p.st, p.wait with
  | .live, _ => true
  | .parked, .handler .. | .parked, .escalated _ | .parked, .debug _ => false
  | .parked, _ => true
  | _, _ => false

/-- Threads of a path trap POISON where they stand; the path's others go on as they were. -/
def State.trapPart (s : State) (gk i : Nat) (m : Mask) (va : Nat) : State :=
  match s.grp gk with
  | none => s
  | some g =>
    let p := g.path i
    let rest := p.mask &&& ~~~m
    if rest = 0 then s.trapEntry gk i (trap .poison) p.mask va
    else match (s.updPath gk i fun p => { p with mask := m }).addPath gk i { p with mask := rest } with
      | some s1 => s1.trapEntry gk i (trap .poison) m va
      | none => s.trapEntry gk i (trap .spillFault) p.mask noVa

/-- An owed trap is taken by a path of the table that holds some of its threads; what is owed to threads that have exited is dropped. -/
def State.owedNow (s : State) : Option State :=
  s.groups.findSome? fun e =>
    match if e.2.resident then e.2.owed else [] with
    | [] => none
    | (m, va) :: rest =>
      if m &&& e.2.alive = 0 then some (s.updGrp e.1 fun g => { g with owed := rest })
      else ((List.range 8).find? fun i => (e.2.path i).open && (e.2.path i).mask &&& m != 0).map fun i =>
        let own := (e.2.path i).mask
        (s.updGrp e.1 fun g => { g with owed := (m &&& ~~~own, va) :: rest }).trapPart e.1 i (m &&& own) va

/-- A full-empty request that meets a poisoned line only when it is served (R430): the word and its tag stay. The thread of an STFE traps; a
later read of what an LDFE was to load traps (log entry 95). -/
def State.fePoison (s : State) (r : MemReq) (p : Touch) : State :=
  let s := s.dropReq r.rid
  match r.kind with
  | .stfe _ => s.owe r.gk p.ts p.va
  | .ldfe _ =>
    match s.loads.find? fun l => l.id == r.op with
    | none => s
    | some l =>
      let left := l.left.filter fun y => y.1 != p.thread
      let loads := if left.isEmpty then s.loads.filter fun y => y.id != r.op else s.loads.map fun y => if y.id == r.op then { y with left := left } else y
      { s with loads := loads }.updGrp r.gk fun g =>
        { g with
          pend := (g.pend.map fun (q : Pend) => if q.id == r.op then { q with mask := q.mask &&& ~~~p.ts } else q).filter fun q => q.mask != 0
          faulted := (List.range (max 1 (l.bytes / 4))).foldl
            (fun m k => SMap.put m (128 * (l.dest + k) + p.thread) (256 + Cause.poison.code, r.op)) g.faulted }
  | _ => s

/-- An LDFE reads its granule and leaves the tag full or empty; an STFE writes it and sets the tag full (R159); both unless the line is
poisoned (R430). -/
def State.feAct (s : State) (r : MemReq) : State :=
  match r.parts with
  | [] => s.dropReq r.rid
  | p :: _ =>
    let (s, bad) := s.meetWord (some r.ctx) p.home p.len
    if bad then s.fePoison r p
    else match r.kind with
    | .ldfe clr =>
      let s1 := s.serveLoad r
      if clr then { s1 with mem := s1.mem.setTag p.home false } else s1
    | _ => let s1 := s.serveStore r; { s1 with mem := s1.mem.setTag p.home true }

/-- The queue of a granule is served after its tag changed (R159): while the tag is full the first LDFE, while it is empty the first
STFE.WE; fuel is the number of requests. -/
def State.feQueue (granule : Nat) : Nat → State → State
  | 0, s => s
  | fuel + 1, s =>
    let full := s.mem.full (16 * granule)
    let want (r : MemReq) : Bool := match r.kind with | .ldfe _ => full | .stfe _ => !full | _ => false
    match s.firstQueued granule want with
    | none => s
    | some r => State.feQueue granule fuel (s.feAct r)

/-- A full-empty request reaches its granule: served, and then the queue; or it joins the queue (R159), where that of a group that is away is
withdrawn (R160). A poisoned line lets none wait (R430). -/
def State.serveFe (s : State) (r : MemReq) : State :=
  match r.parts with
  | [] => s.dropReq r.rid
  | p :: _ =>
    let (s, bad) := s.meetWord (some r.ctx) p.home p.len
    let full := s.mem.full p.home
    let go := bad || match r.kind with | .ldfe _ => full | .stfe we => !we || !full | _ => true
    if go then State.feQueue (p.home / 16) (s.reqs.length + 1) (s.feAct r)
    else
      let away := (s.grp r.gk).any fun g => !g.resident && g.alive != 0
      let join (x : MemReq) : MemReq := if away then { x with out := true } else { x with queued := some s.seq }
      { s with seq := s.seq + 1, reqs := s.reqs.map fun x => if x.rid == r.rid then join x else x }

/-- A plain STFE by another unit: a tag-setting copy arrival (R159, R230). -/
def State.fillTags (s : State) (granules : List Nat) : State :=
  granules.foldl (fun s g => State.feQueue g (s.reqs.length + 1) { s with mem := s.mem.setTag (16 * g) true }) s

/-- The queue of a granule whose tag an error has set full (R426) is served. -/
def State.feNow (s : State) : Option State :=
  (s.reqs.find? fun r =>
    r.queued.isSome && (match r.kind, r.parts with
      | .ldfe _, p :: _ => s.mem.full p.home | .stfe _, p :: _ => !s.mem.full p.home | _, _ => false)).map fun r =>
    match r.parts with | p :: _ => State.feQueue (p.home / 16) (s.reqs.length + 1) s | [] => s

/-! ### Waking paths -/

/-- A path whose wait is over: LIVE where it resumes, no longer spared there by a comparator unless its PC has not changed (R444). -/
def Path.goes (p : Path) : Path := { p with st := .live, wait := .none, pc := p.resume, exempt := p.exempt && p.resume == p.pc }

/-- Parked paths of the path table whose wait is picked go on (R249); a spilled path's wait is looked at when it returns (R248). -/
def Grp.resumeWait (f : Wait → Bool) (g : Grp) : Grp :=
  let one (p : Path) : Path := if p.st == .parked && f p.wait then p.goes else p
  if g.paths.any fun p => p.st == .parked && f p.wait then { g with paths := g.paths.map one, progress := 0, issued := false } else g

end Sys2Proof.Machine
end

