-- ==== Sys2Proof/Machine/Access.lean ====
section
/-! DEFINITION. The memory family (R147 to R161): checks per thread (R149), loads and stores (R150), atomics (R151 to R157), full-empty
accesses (R158, R159) and polls (R161). -/
namespace Sys2Proof.Machine
open Sys2Proof Host

/-! ### Threads, addresses and data -/

/-- The threads an instruction makes accesses for: 127 stands for the one access of a uniform instruction. -/
def Env.memThreads (e : Env) (uni : Bool) : List Nat := if uni then [127] else threadsOf e.p.mask
/-- The threads an access belongs to (R282). -/
def Env.owners (e : Env) (uni : Bool) (t : Nat) : Mask := if uni then e.p.mask else BitVec.ofNat 96 (2 ^ t)
/-- The effective address and the poison of the pair (R149). -/
def Env.ea (e : Env) (uni : Bool) (a : BitVec 7) (off : BitVec 20) (t : Nat) : DWord × Bool :=
  let p := if uni then e.upair a else e.pair a t
  (p.1 + off.signExtend 64, p.2)

/-- Bytes of a SIZE code (R44). -/
def sizeBytes (size : BitVec 3) : Nat := 2 ^ size.toNat
/-- First register of a data operand by SIZE (R148). -/
def dataBase (g : Grp) (uni : Bool) (f : BitVec 7) (size : BitVec 3) : Nat :=
  if uni then f.toNat
  else match size.toNat with | 3 => 2 * g.num f | 4 => 2 * g.num f | 5 => 8 * g.num f | _ => g.num f
/-- The registers of a data operand, lowest first. -/
def Env.dataRegs (e : Env) (uni : Bool) (f : BitVec 7) (size : BitVec 3) (t : Nat) : List RegVal :=
  (List.range (max 1 (sizeBytes size / 4))).map fun i =>
    let r := dataBase e.g uni f size + i
    if uni then e.sreg r else e.v r t
/-- The low n bytes of a data operand. -/
def dataNat (rs : List RegVal) : Nat := rs.foldr (fun r x => r.val.toNat + 2 ^ 32 * x) 0
/-- Whether bytes off to off + len − 1 of a data operand come from a poisoned register. -/
def dataPoison (rs : List RegVal) (off len : Nat) : Bool :=
  (List.range rs.length).any fun i => decide (4 * i < off + len ∧ off < 4 * i + 4) && (rs.getD i RegVal.zero).poison

/-! ### Checks (R149) -/

/-- Checks 1 to 5 of R149 for n bytes; the parts, or the trap and the address it concerns. -/
def Env.memCheck (e : Env) (i : Instr) (uni : Bool) (ad : DWord × Bool) (n : Nat) (need : Need) (align fe : Bool) (t : Nat) :
    Except (Trap × Nat) (List Part) :=
  match if uni then none else e.deferred i t with
  | some tr => .error (tr, noVa)
  | none =>
    let va := ad.1.toNat
    if ad.2 then .error (trap .poison, noVa)
    else if align && va % n != 0 then .error (trap .misalign, va)
    else if decide (va / 2 ^ 56 ≠ 0 ∨ va + n > 2 ^ 56) then .error (trap .access, va)
    else if fe && !isAperture va then .error (trap .access, va)
    else match e.s.resolve (e.g.agent e.b) need va n with
      | .error (c, at') => .error (trap c, at')
      | .ok ps => .ok ps

/-- Whether every part lies in the block's own footprint (R179). -/
def Env.ownFootprint (e : Env) (ps : List Part) : Bool :=
  let lo := slicePA e.b.core e.b.fbase
  ps.all fun p => decide (lo ≤ p.home ∧ p.home + p.len ≤ lo + e.b.fsize)

/-- Checks 6 and 7 of R149 for an atomic of n bytes (R151, R154, R179): its operation, and whether it is a returning ATOM. -/
def Env.atomCheck (e : Env) (aop n : Nat) (atom : Bool) (va : Nat) (ps : List Part) : Except (Trap × Nat) (List Part) :=
  if ps.any fun p => !p.aper && p.ord == 2 then .error (trap .atomKind, va)
  else if (ps.any fun p => p.host) && !((aop == 0 || aop == 8 || aop == 9) && (n == 4 || n == 8)) then .error (trap .atomHost, va)
  else if e.b.det && atom && !e.ownFootprint ps then .error (trap .determ, va)
  else .ok ps

/-- Check 7 of R149 and the read of R430 for a full-empty access. -/
def Env.feCheck (e : Env) (changes : Bool) (va : Nat) (ps : List Part) : Except (Trap × Nat) (List Part) :=
  if e.b.det && changes && !e.ownFootprint ps then .error (trap .determ, va)
  else if ps.any fun p => e.s.mem.anyPoison p.home p.len then .error (trap .poison, va)
  else .ok ps

/-- The errors that the reads of R430 find among the lines of parts are recorded (R431). -/
def State.meetParts (s : State) (ctx : Nat) (ps : List Part) : State :=
  if s.mem.latent.isEmpty then s else ps.foldl (fun s p => (s.meetWord (some ctx) p.home p.len).1) s

/-- The state once a full-empty access has met the lines of the granules its threads name. -/
def Env.feMet (e : Env) (i : Instr) (a : BitVec 7) (off : BitVec 20) (n : Nat) (need : Need) (s : State) : State :=
  s.meetParts e.b.ctx ((threadsOf e.p.mask).flatMap fun t => match e.memCheck i false (e.ea false a off t) n need true true t with | .ok ps => ps | .error _ => [])

/-- The failing threads: of a uniform instruction all active threads (R54). -/
def Env.memFails (e : Env) (uni : Bool) (rs : List (Nat × Except (Trap × Nat) (List Part))) : Fails :=
  let errs := rs.filterMap fun r => match r.2 with | .error x => some (r.1, x.1, x.2) | .ok _ => none
  match uni, errs with
  | true, (_, tr, va) :: _ => (threadsOf e.p.mask).map fun t => (t, tr, va)
  | _, _ => errs
def okParts (rs : List (Nat × Except (Trap × Nat) (List Part))) : List (Nat × List Part) :=
  rs.filterMap fun r => match r.2 with | .ok ps => some (r.1, ps) | .error _ => none

/-! ### Requests -/

/-- A part cut at multiples of 16 bytes (R264, R281); fuel its length. -/
def cutPart (ts : Mask) (t ord va home off : Nat) : Nat → Nat → List Touch
  | 0, _ => []
  | fuel + 1, len =>
    if len = 0 then []
    else
      let m := min len (16 - home % 16)
      ⟨ts, t, va, home, m, off, ord, 0, false⟩ :: cutPart ts t ord (va + m) (home + m) (off + m) fuel (len - m)

/-- The touches of a thread's parts. -/
def touches (ts : Mask) (t : Nat) : Nat → List Part → List Touch
  | _, [] => []
  | off, p :: ps => cutPart ts t p.ord p.va p.home off (p.len + 1) p.len ++ touches ts t (off + p.len) ps

/-- Accesses put together whose key is the same, in the order of the first of each. -/
def gatherBy (key : Touch → Nat × Nat × Nat × Nat) (xs : List Touch) : List (List Touch) :=
  xs.foldl (fun gs x =>
    if gs.any fun g => g.any fun y => key y == key x
    then gs.map fun g => if g.any fun y => key y == key x then g ++ [x] else g
    else gs ++ [[x]]) []

/-- The accesses of one row to one line of HBM make one request (R271), and those to one granule of a slice (R264); host memory gets one for
each part (R274). Threads in ascending order. -/
def gather : List Touch → List (List Touch) :=
  gatherBy fun x => (x.thread / 32, if inSlice x.home then x.home / 16 else x.home / 64, x.ord, if isHost x.home then 1 + x.thread else 0)

/-- Stores likewise, but that a row whose accesses cover a line of a slice writes it by one request (R429). -/
def gatherStores (xs : List Touch) : List (List Touch) :=
  let covered (x : Touch) : Bool := (List.range 64).all fun i =>
    xs.any fun y => y.thread / 32 == x.thread / 32 && y.ord == x.ord && decide (y.home ≤ x.home / 64 * 64 + i ∧ x.home / 64 * 64 + i < y.home + y.len)
  gatherBy (fun x =>
    (x.thread / 32, if inSlice x.home && !covered x then x.home / 16 else 2 ^ 60 + x.home / 64, x.ord, if isHost x.home then 1 + x.thread else 0)) xs

/-- A request of the issuing path. -/
def Env.request (e : Env) (op : Nat) (kind : ReqKind) (acq rel : Bool) (rid : Nat) (parts : List Touch) : MemReq :=
  { rid := rid, op := op, gk := e.gk, ctx := e.b.ctx, core := e.b.core, bk := e.g.blk, pi := e.pi, pc := e.p.pc, mask := e.p.mask
    sync := 0, kind := kind, parts := parts, acq := acq, rel := rel, aop := 0, atoms := [], cause := 0, queued := none }

/-- Requests sent one after another, their numbers from the state's sequence. -/
def State.send (s : State) (mk : Nat → List Touch → MemReq) (gs : List (List Touch)) : State :=
  { s with reqs := s.reqs ++ (List.range gs.length).map fun k => mk (s.seq + k) (gs.getD k []), seq := s.seq + gs.length }

/-- A load whose data come back to registers. -/
def Env.loadOp (e : Env) (op dest : Nat) (uni : Bool) (n : Nat) (sign poll : Bool) (ts : List Nat) : LoadOp :=
  { id := op, gk := e.gk, dest := dest, uni := uni, bytes := n, sign := sign, poll := poll, left := ts.map fun t => (t, n, 0, false), got := [] }

/-- The pending marks of a load's destination (R32). -/
def loadMarks (op dest : Nat) (uni : Bool) (n : Nat) (m : Mask) : List Pend :=
  (List.range (max 1 (n / 4))).map fun i => ⟨if uni then .s (dest + i) else .v (dest + i), m, op, .load⟩

/-- A read of n bytes for threads whose parts are resolved: the load, its pending marks, its requests (R150); LDFE acts thread by thread (R159). -/
def Env.sendLoads (e : Env) (s : State) (kind : ReqKind) (acq : Bool) (dest : Nat) (uni : Bool) (n : Nat) (sign : Bool)
    (oks : List (Nat × List Part)) : State :=
  let op := s.seq
  let s := s.updGrp e.gk fun g => { g with pend := g.pend ++ loadMarks op dest uni n (if uni then ~~~0 else maskOf (oks.map (·.1))) }
  let s := { s with seq := s.seq + 1, loads := s.loads ++ [e.loadOp op dest uni n sign false (oks.map Prod.fst)] }
  let ts := oks.map fun (x : Nat × List Part) => touches (e.owners uni x.1) x.1 0 x.2
  s.send (e.request op kind acq false) (match kind with | .ldfe _ => ts | _ => gather ts.flatten)

/-- LD, LDW and LDPOLL without .Y (R150, R161), LDFE (R159). -/
def execLoad (i : Instr) (uni : Bool) (kind : ReqKind) (d a : BitVec 7) (size : BitVec 3) (sign : BitVec 1) (scope : BitVec 3)
    (off : BitVec 20) (s : State) : Outcome State Fault Refusal :=
  issueWith i (fun e =>
    let n := sizeBytes size
    let fe := match kind with | .ldfe _ => true | _ => false
    let rs := (e.memThreads uni).map fun t =>
      let ad := e.ea uni a off t
      (t, (e.memCheck i uni ad n .read fe fe t).bind fun ps =>
        match kind with | .ldfe clr => e.feCheck clr ad.1.toNat ps | _ => .ok ps)
    let oks := okParts rs
    let s0 := (if fe then e.feMet i a off n .read s else s).updGrp e.gk (e.seeFails i (e.memFails uni rs))
    let s1 := if oks.isEmpty then s0 else e.sendLoads s0 kind (scope != 0) (dataBase e.g uni d size) uni n (sign == 1) oks
    .next (e.finish i (e.nextPc i) (e.memFails uni rs) s1)) s

/-- LD (R150). -/
def execLd (stl : BitVec 3) (d a : BitVec 7) (size : BitVec 3) (sign : BitVec 1) (scope : BitVec 3) (subop : BitVec 5) (off : BitVec 20)
    (s : State) : Outcome State Fault Refusal := execLoad (.ld stl d a size sign scope subop off) false .load d a size sign scope off s
/-- LDW (R150). -/
def execLdw (stl : BitVec 3) (d a : BitVec 7) (size : BitVec 3) (sign : BitVec 1) (scope : BitVec 3) (subop : BitVec 5) (off : BitVec 20)
    (s : State) : Outcome State Fault Refusal := execLoad (.ldw stl d a size sign scope subop off) false .load d a size sign scope off s
/-- LD on s registers (R147). -/
def execLdU (stl : BitVec 3) (d a : BitVec 7) (size : BitVec 3) (sign : BitVec 1) (scope : BitVec 3) (subop : BitVec 5) (off : BitVec 20)
    (s : State) : Outcome State Fault Refusal := execLoad (.ldU stl d a size sign scope subop off) true .load d a size sign scope off s
/-- LDFE (R159). -/
def execLdfe (stl : BitVec 3) (d a : BitVec 7) (size : BitVec 3) (sign : BitVec 1) (scope : BitVec 3) (subop : BitVec 5) (off : BitVec 20)
    (s : State) : Outcome State Fault Refusal :=
  execLoad (.ldfe stl d a size sign scope subop off) false (.ldfe (subop == 1)) d a size sign scope off s

/-! ### Stores -/

/-- The parts of a store (R53), each resolved or refused with its cause, length and address: fuel its length. A refused part of paged
memory ends at the next 64 KiB boundary, the least page (R371). -/
def State.storeParts (s : State) (ag : Agent) : Nat → Nat → Nat → List (Except (Cause × Nat × Nat × Bool) Part)
  | 0, _, _ => []
  | fuel + 1, va, n =>
    if n = 0 then []
    else if isAperture va then
      match s.aperture ag va n with
      | some h => [.ok ⟨va, h, n, 1, false, true⟩]
      | none => [.error (.aperture, va, n, true)]
    else
      let m := min n (65536 - va % 65536)
      let bad (c : Cause) (precise : Bool) : List (Except (Cause × Nat × Nat × Bool) Part) :=
        .error (c, va, m, precise) :: s.storeParts ag fuel (va + m) (n - m)
      match s.translate ag.ctx ag.core va fun l => l.allows .write with
      | .error (c, ord) => bad c (ord == 0 && c == .access)
      | .ok l =>
        let k := min n (l.size - va % l.size)
        if !l.w || l.ord == 3 then bad .access (l.ord == 0 || l.ord == 3)
        else match l.home va with
          | none => bad .access (l.ord == 0)
          | some h => .ok ⟨va, h, k, l.ord, l.host, false⟩ :: s.storeParts ag fuel (va + k) (n - k)

/-- What becomes of one thread's store: its trap with the address it concerns, if it traps, the touches written with their data, and the parts
refused after it retires (R53, R389). -/
structure StoreOut where
  err : Option (Trap × Nat)
  good : List Touch
  bad : List (Nat × Nat × Nat)

/-- A store that traps with no part of it written. -/
def StoreOut.trapped (t : Trap) (va : Nat) : StoreOut := ⟨some (t, va), [], []⟩

/-- A store of one thread after its checks. Its parts are independent (R53): one that traps, in the aperture or on a page with ORD 00, its own
translation or the poison of its data (R90, R431), takes nothing from the others. Of several causes for one thread, a part's translation
comes before poisoned data of another (DESIGN CHOICE, log entry 27). -/
def Env.storeCheck (e : Env) (i : Instr) (uni : Bool) (ad : DWord × Bool) (n t : Nat) (rs : List RegVal) : StoreOut :=
  match if uni then none else e.deferred i t with
  | some tr => .trapped tr noVa
  | none =>
    let va := ad.1.toNat
    if ad.2 then .trapped (trap .poison) noVa
    else if decide (va / 2 ^ 56 ≠ 0 ∨ va + n > 2 ^ 56) then .trapped (trap .access) va
    else
      let ps := e.s.storeParts (e.g.agent e.b) (n + 1) va n
      let precise := ps.findSome? fun p => match p with | .error (c, v, _, true) => some (trap c, v) | _ => none
      let refuses (q : Part) : Bool := q.ord == 0 && dataPoison rs (q.va - va) q.len
      let good := ps.filterMap fun p => match p with | .ok q => if refuses q then none else some q | .error _ => none
      let poisoned := ps.findSome? fun p => match p with | .ok q => if refuses q then some (trap .poison, q.va) else none | .error _ => none
      let bad := ps.filterMap fun p => match p with | .error (c, v, m, false) => some (c.code, v, m) | _ => none
      let ts := (good.flatMap fun p => cutPart (e.owners uni t) t p.ord p.va p.home (p.va - va) (p.len + 1) p.len).map fun x =>
        { x with data := dataNat rs / 2 ^ (8 * x.off) % 2 ^ (8 * x.len), poison := dataPoison rs x.off x.len }
      ⟨precise.or poisoned, ts, bad⟩

/-- ST and STW (R150): the requests of the parts that were accepted, and one for the parts of each cause refused (R389). -/
def execStore (i : Instr) (uni : Bool) (d a : BitVec 7) (size : BitVec 3) (scope : BitVec 3) (off : BitVec 20) (s : State) :
    Outcome State Fault Refusal :=
  issueWith i (fun e =>
    let n := sizeBytes size
    let rs := (e.memThreads uni).map fun t => (t, e.storeCheck i uni (e.ea uni a off t) n t (e.dataRegs uni d size t))
    let errs := e.memFails uni (rs.map fun r => (r.1, match r.2.err with | some x => .error x | none => .ok []))
    let goods := rs.flatMap fun r => r.2.good
    let op := s.seq
    let bads := rs.flatMap fun x => x.2.bad.map fun b => (x.1, b)
    let causes := (bads.map fun b => b.2.1).eraseDups
    let badReq (rid : Nat) (ts : List Touch) : MemReq :=
      { e.request op .store false (scope != 0) rid [] with
        cause := (ts.headD ⟨0, 0, 0, 0, 0, 0, 0, 0, false⟩).ord, mask := e.p.mask, parts := ts }
    let badTouches := causes.map fun c => (bads.filter fun b => b.2.1 == c).map fun b =>
      (⟨e.owners uni b.1, b.1, b.2.2.1, 2 ^ 60, 0, 0, c, 0, false⟩ : Touch)
    let s0 := s.updGrp e.gk (e.seeFails i errs)
    let s1 := if goods.isEmpty && bads.isEmpty then s0
      else (({ s0 with seq := s.seq + 1 }).send (e.request op .store false (scope != 0)) (gatherStores goods)).send badReq badTouches
    .next (e.finish i (e.nextPc i) errs s1)) s

/-- ST (R150). -/
def execSt (stl : BitVec 3) (d a : BitVec 7) (size : BitVec 3) (sign : BitVec 1) (scope : BitVec 3) (subop : BitVec 5) (off : BitVec 20)
    (s : State) : Outcome State Fault Refusal := execStore (.st stl d a size sign scope subop off) false d a size scope off s
/-- STW (R150). -/
def execStw (stl : BitVec 3) (d a : BitVec 7) (size : BitVec 3) (sign : BitVec 1) (scope : BitVec 3) (subop : BitVec 5) (off : BitVec 20)
    (s : State) : Outcome State Fault Refusal := execStore (.stw stl d a size sign scope subop off) false d a size scope off s
/-- ST on s registers (R147). -/
def execStU (stl : BitVec 3) (d a : BitVec 7) (size : BitVec 3) (sign : BitVec 1) (scope : BitVec 3) (subop : BitVec 5) (off : BitVec 20)
    (s : State) : Outcome State Fault Refusal := execStore (.stU stl d a size sign scope subop off) true d a size scope off s

/-- STFE (R159): a request for each thread; .WE parks the path until every thread's request has written. -/
def execStfe (stl : BitVec 3) (d a : BitVec 7) (size : BitVec 3) (sign : BitVec 1) (scope : BitVec 3) (subop : BitVec 5) (off : BitVec 20)
    (s : State) : Outcome State Fault Refusal :=
  let i : Instr := .stfe stl d a size sign scope subop off
  issueWith i (fun e =>
    let n := sizeBytes size
    let we := subop == 1
    let rs := (threadsOf e.p.mask).map fun t =>
      let ad := e.ea false a off t
      (t, (e.memCheck i false ad n .write true true t).bind fun ps => e.feCheck we ad.1.toNat ps)
    let op := s.seq
    let gs := (okParts rs).map fun x => (touches (e.owners false x.1) x.1 0 x.2).map fun p =>
      let r := e.dataRegs false d size x.1
      { p with data := dataNat r % 2 ^ (8 * n), poison := dataPoison r 0 n }
    let s0 := (e.feMet i a off n .write s).updGrp e.gk (e.seeFails i (e.memFails false rs))
    let s1 := if gs.isEmpty then s0 else ({ s0 with seq := s.seq + 1 }).send (e.request op (.stfe we) false (scope != 0)) gs
    let go : Path → Path := if we then e.parked i (.stfe op) else e.advance i (e.nextPc i)
    .next (e.finishAs go (e.memFails false rs) s1)) s

/-! ### Atomics -/

/-- ATOM, RED, ATOMF and ATOMX (R151, R155, R156): one request for each thread, in ascending index; `aop` as in Machine/Home.lean. -/
def execAtomic (i : Instr) (uni ret : Bool) (aop : Nat) (d a b : BitVec 7) (size : BitVec 3) (scope : BitVec 3) (off : BitVec 20)
    (s : State) : Outcome State Fault Refusal :=
  issueWith i (fun e =>
    if e.b.det && 16 ≤ aop && aop ≤ 18 then .next (e.trapAll (trap .determ))
    else
    let n := sizeBytes size
    let atom := ret && aop < 16
    let rs := (e.memThreads uni).map fun t =>
      let ad := e.ea uni a off t
      (t, (e.memCheck i uni ad n .atomic true false t).bind fun ps => e.atomCheck aop n atom ad.1.toNat ps)
    let oks := okParts rs
    let op := s.seq
    let dest := dataBase e.g uni d size
    let use (t : Nat) : AtomUse :=
      let b' := e.dataRegs uni b size t
      let d' := e.dataRegs uni d size t
      { op := op, gk := e.gk, thread := t, b := dataNat b' % 2 ^ (8 * n), exp := if aop = 9 then dataNat d' % 2 ^ (8 * n) else 0
        poison := b'.any (·.poison) || (aop == 9 && d'.any (·.poison)), ret := ret }
    let mk (rid : Nat) (ps : List Touch) : MemReq :=
      { e.request op .atomic (ret && scope != 0) (scope != 0) rid ps with
        aop := aop, atoms := [use (ps.headD ⟨0, 0, 0, 0, 0, 0, 0, 0, false⟩).thread] }
    let s0 := s.updGrp e.gk (e.seeFails i (e.memFails uni rs))
    let s1 := { s0 with seq := s.seq + 1 }
    let s2 := if !ret then s1
      else { s1.updGrp e.gk fun g => { g with pend := g.pend ++ loadMarks op dest uni n (if uni then ~~~0 else maskOf (oks.map (·.1))) } with
             loads := s1.loads ++ [e.loadOp op dest uni n false false (oks.map Prod.fst)] }
    let s3 := if oks.isEmpty then s0 else s2.send mk (oks.map fun x => touches (e.owners uni x.1) x.1 0 x.2)
    .next (e.finish i (e.nextPc i) (e.memFails uni rs) s3)) s

/-- ATOM (R151). -/
def execAtom (stl : BitVec 3) (d a b : BitVec 7) (size : BitVec 3) (sign : BitVec 1) (scope : BitVec 3) (subop : BitVec 5) (off : BitVec 20)
    (s : State) : Outcome State Fault Refusal :=
  execAtomic (.atom stl d a b size sign scope subop off) false true subop.toNat d a b size scope off s
/-- RED (R151). -/
def execRed (stl : BitVec 3) (a b : BitVec 7) (size : BitVec 3) (sign : BitVec 1) (scope : BitVec 3) (subop : BitVec 5) (off : BitVec 20)
    (s : State) : Outcome State Fault Refusal :=
  execAtomic (.red stl a b size sign scope subop off) false false subop.toNat 0 a b size scope off s
/-- ATOMF (R155). -/
def execAtomf (stl : BitVec 3) (d a b : BitVec 7) (size : BitVec 3) (sign : BitVec 1) (scope : BitVec 3) (subop : BitVec 5) (off : BitVec 20)
    (s : State) : Outcome State Fault Refusal :=
  execAtomic (.atomf stl d a b size sign scope subop off) false true (16 + subop.toNat) d a b size scope off s
/-- ATOMX (R156). -/
def execAtomx (stl : BitVec 3) (a b : BitVec 7) (size : BitVec 3) (sign : BitVec 1) (scope : BitVec 3) (subop : BitVec 5) (off : BitVec 20)
    (s : State) : Outcome State Fault Refusal :=
  execAtomic (.atomx stl a b size sign scope subop off) false false 32 0 a b size scope off s
/-- ATOM on s registers (R147). -/
def execAtomU (stl : BitVec 3) (d a b : BitVec 7) (size : BitVec 3) (sign : BitVec 1) (scope : BitVec 3) (subop : BitVec 5) (off : BitVec 20)
    (s : State) : Outcome State Fault Refusal :=
  execAtomic (.atomU stl d a b size sign scope subop off) true true subop.toNat d a b size scope off s
/-- RED on s registers (R147). -/
def execRedU (stl : BitVec 3) (a b : BitVec 7) (size : BitVec 3) (sign : BitVec 1) (scope : BitVec 3) (subop : BitVec 5) (off : BitVec 20)
    (s : State) : Outcome State Fault Refusal :=
  execAtomic (.redU stl a b size sign scope subop off) true false subop.toNat 0 a b size scope off s

/-! ### Polls (R161) -/

/-- One read of a poll (R161): its load and requests; none of the registers is pending, since the path is parked. -/
def Env.sendPoll (e : Env) (s : State) (poll : Poll) (oks : List (Nat × List Part)) : State :=
  let s1 := { s with
    seq := s.seq + 1, loads := s.loads ++ [e.loadOp s.seq poll.dest poll.uni poll.bytes poll.sign true (oks.map Prod.fst)] }
  s1.send (e.request s.seq .load (poll.scope != 0) false) (gather (oks.flatMap fun (x : Nat × List Part) => touches (e.owners poll.uni x.1) x.1 0 x.2))

/-- LDPOLL.Y: the first read (R161). -/
def execPoll (i : Instr) (uni : Bool) (d a : BitVec 7) (size : BitVec 3) (sign : BitVec 1) (scope : BitVec 3) (off : BitVec 20) (s : State) :
    Outcome State Fault Refusal :=
  issueWith i (fun e =>
    let n := sizeBytes size
    let rs := (e.memThreads uni).map fun t => (t, e.memCheck i uni (e.ea uni a off t) n .read false false t)
    let oks := okParts rs
    let poll : Poll :=
      { op := s.seq, bytes := n, sign := sign == 1, scope := scope.toNat, dest := dataBase e.g uni d size, uni := uni
        eas := oks.map fun x => (x.1, (e.ea uni a off x.1).1.toNat), last := oks.map fun x => (x.1, dataNat (e.dataRegs uni d size x.1)) }
    let s0 := s.updGrp e.gk (e.seeFails i (e.memFails uni rs))
    let s1 := if oks.isEmpty then s0 else e.sendPoll s0 poll oks
    .next (e.finishAs (e.parked i (.ldpoll s.clock 0 poll)) (e.memFails uni rs) s1)) s

/-- LDPOLL (R161): without .Y as LD. -/
def execLdpoll (stl : BitVec 3) (d a : BitVec 7) (size : BitVec 3) (sign : BitVec 1) (scope : BitVec 3) (subop : BitVec 5)
    (off : BitVec 20) (s : State) : Outcome State Fault Refusal :=
  let i : Instr := .ldpoll stl d a size sign scope subop off
  if subop = 1 then execPoll i false d a size sign scope off s else execLoad i false .load d a size sign scope off s
/-- LDPOLL on s registers (R147, R161). -/
def execLdpollU (stl : BitVec 3) (d a : BitVec 7) (size : BitVec 3) (sign : BitVec 1) (scope : BitVec 3) (subop : BitVec 5)
    (off : BitVec 20) (s : State) : Outcome State Fault Refusal :=
  let i : Instr := .ldpollU stl d a size sign scope subop off
  if subop = 1 then execPoll i true d a size sign scope off s else execLoad i true .load d a size sign scope off s

/-- A path parked in a poll (R161): its group, index and poll. -/
def State.pollPath (s : State) (gk op : Nat) : Option (Nat × Nat × Nat × Poll) :=
  match s.grp gk with
  | none => none
  | some g => (List.range 8).findSome? fun i =>
      match (g.path i).wait with
      | .ldpoll next k p => if p.op == op && (g.path i).st == .parked then some (i, next, k, p) else none
      | _ => none

/-- All data of a poll's read are there (R161): the loop ends when some thread's data differ from the value last seen or are poisoned,
and D is written; else the path parks for 2^k core clocks more. What comes for a group that is away is dropped: its loop starts again on its
return. -/
def State.pollDone (s : State) (op : Nat) : State :=
  match s.loads.find? fun l => l.id == op && l.poll && l.left.isEmpty with
  | none => s
  | some l =>
    let s := { s with loads := s.loads.filter fun y => y.id != op }
    match if (s.grp l.gk).any (·.resident) then s.pollPath l.gk op else none with
    | none => s
    | some (i, _, k, p) =>
      let differs := l.got.any fun x =>
        x.2.2 || (p.last.find? fun y => y.1 == x.1).any fun y => y.2 != extendLoad p.bytes p.sign x.2.1
      if differs then
        let marks := loadMarks op p.dest p.uni p.bytes (if p.uni then ~~~0 else maskOf (l.got.map (·.1)))
        let s1 := s.updGrp l.gk fun g => Grp.resumeWait (fun w => match w with | .ldpoll _ _ q => q.op == op | _ => false)
          { g with pend := g.pend ++ marks }
        l.got.foldl (fun s x => s.deliver l x.1 x.2.1 x.2.2 0) s1
      else s.updPath l.gk i fun q => { q with wait := .ldpoll (s.clock + 2 ^ k) (min (k + 1) 12) { p with op := 0 } }

end Sys2Proof.Machine
end

