-- ==== Sys2Proof/Machine/Sync.lean ====
section
/-! DEFINITION. Fences (R162), barrier words (R163 to R168), named and hierarchical barriers (R169, R170), monitor waits and stage rings
(R171, R172), XSEND and XRECV (R178), WAITR (R116), EXIT and EXITG (R107), and passing the extended set on (R118). -/
namespace Sys2Proof.Machine
open Sys2Proof Host

/-! ### Results and waiters -/

/-- A uniform result on its way to s registers from `dest` (R32): the pending marks and the result. -/
def State.uniformResult (s : State) (gk dest : Nat) (ws : List Word) (poison : Bool) : State :=
  let rs := (List.range ws.length).map fun i => (dest + i, (⟨ws.getD i 0, poison⟩ : RegVal))
  { s.updGrp gk fun g => { g with pend := g.pend ++ rs.map fun r => ⟨.s r.1, ~~~0, s.seq, .other⟩ } with
    seq := s.seq + 1
    results := s.results ++ [{ id := s.seq, gk := gk, cls := .other, mask := ~~~0, vw := [], sw := rs, flags := 0 }] }

/-- Whether a path of the group, spilled ones included, waits as picked (R168, R248). -/
def Grp.waits (g : Grp) (f : Wait → Bool) : Bool := g.paths.any (fun p => p.st == .parked && f p.wait) || g.spilled.any fun e => f e.2.wait

/-- The threads of each path of a group, spilled ones too, that waits as picked. -/
def Grp.waitMasks (g : Grp) (f : Wait → Bool) : List Mask :=
  ((g.paths.filter fun p => p.st == .parked && f p.wait) ++ (g.spilled.map (·.2)).filter fun p => f p.wait).map (·.mask)
/-- The paths that wait as picked, in groups `who` picks, acquire what the releases before them have before them (R287). -/
def State.acquireAll (s : State) (who : Grp → Bool) (f : Wait → Bool) (deps : List Nat) : State :=
  if deps.isEmpty then s
  else (s.groups.filter fun e => who e.2).foldl (fun s e => (e.2.waitMasks f).foldl (fun s m => s.syncTo e.1 m deps) s) s

/-- Waiters as picked go on, in groups `who` picks. -/
def State.release (s : State) (who : Grp → Bool) (f : Wait → Bool) : State :=
  { s with groups := s.groups.map fun e => (e.1, if who e.2 then e.2.resumeWait f else e.2) }

/-- Waiters as picked trap with all their threads (R168): those in path tables now, spilled ones when they return. -/
def State.trapWaiters (s : State) (who : Grp → Bool) (f : Wait → Bool) (t : Trap) : State :=
  let s1 := { s with groups := s.groups.map fun e =>
    (e.1, if who e.2 then { e.2 with spilled := e.2.spilled.map fun x => (x.1, if f x.2.wait then { x.2 with wait := .doomed x.2.wait.reason t.cause } else x.2) } else e.2) }
  let hits := s.groups.flatMap fun e =>
    if who e.2 then ((List.range 8).filter fun i => (e.2.path i).st == .parked && f (e.2.path i).wait).map fun i => (e.1, i) else []
  hits.foldl (fun s x => match s.grp x.1 with | some g => s.trapEntry x.1 x.2 t (g.path x.2).mask noVa | none => s) s1

/-- The groups of a block. -/
def State.groupsOf (s : State) (bk : Nat) : List (Nat × Grp) := s.groups.filter fun e => e.2.blk == bk

/-! ### FENCE (R162) -/

/-- FENCE: a mark among the requests; nothing where no access of the path is out. -/
def execFence (stl : BitVec 3) (k c : BitVec 7) (s : State) : Outcome State Fault Refusal :=
  issueEffect (.fence stl k c) (fun e => .ok
    (s.fence e.gk e.p.mask k.toNat)) s

/-! ### Barrier words (R68, R163 to R168) -/

def barKind (w : Nat) : Nat := if w / 2 ^ 62 % 4 = 3 then 0 else w / 2 ^ 62 % 4
def barPhase (w : Nat) : Bool := w / 2 ^ 61 % 2 == 1
def barExpected (w : Nat) : Nat := w / 2 ^ 31 % 2 ^ 30
def barArrived (w : Nat) : Nat := w / 2 % 2 ^ 30
def barBroken (w : Nat) : Bool := w % 2 == 1
/-- A barrier word of its fields (R68). -/
def barWord (kind : Nat) (phase : Bool) (expected arrived : Nat) (broken : Bool) : Nat :=
  kind * 2 ^ 62 + phase.toNat * 2 ^ 61 + expected % 2 ^ 30 * 2 ^ 31 + arrived % 2 ^ 30 * 2 + broken.toNat

/-- The home of the barrier word a pair names (R163). -/
def Env.barHome (e : Env) (a : BitVec 7) : Except Trap Nat :=
  let ad := e.upair a
  if ad.2 then .error (trap .poison)
  else
    let va := ad.1.toNat
    if va / 2 ^ 56 ≠ 0 ∨ !isAperture va then .error (trap .aperture)
    else match e.s.aperture (e.g.agent e.b) va 8 with
      | none => .error (trap .aperture)
      | some h => if coreOfPA h ≠ e.b.core then .error (trap .aperture) else if va % 8 ≠ 0 then .error (trap .misalign) else .ok h

/-- The waits on a barrier word. -/
def onWord (home : Nat) (w : Wait) : Bool := match w with | .barWord h _ => h == home | _ => false
/-- The waits on a barrier word that its phase ends. -/
def wordDone (home : Nat) (phase : Bool) (w : Wait) : Bool := match w with | .barWord h p => h == home && p != phase | _ => false

/-- One arrival of n groups or bytes at a word of a kind that counts them (R165): while the count reaches the expected number the phase
toggles and its waiters go on; fuel bounds the toggles. -/
def State.wordArrive (s : State) (home : Nat) (kind : Nat) (phase broken : Bool) (expected : Nat) : Nat → Nat → State
  | 0, arrived => s.performWrite (leBytes home false 8 (barWord kind phase expected arrived broken))
  | fuel + 1, arrived =>
    if arrived = expected ∨ (kind = 2 ∧ 0 < expected ∧ expected ≤ arrived) then
      (s.release (fun _ => true) (wordDone home (!phase))).wordArrive home kind (!phase) broken expected fuel (arrived - expected)
    else s.performWrite (leBytes home false 8 (barWord kind phase expected arrived broken))

/-- An engine arrival of n bytes (R165, R166): counted on a kind 10 word, ignored and counted in ORPHAN on any other. -/
def State.engineArrive (s : State) (home n : Nat) : State :=
  let s := (s.meetWord none home 8).1
  let w := s.mem.readLE home 8
  if barKind w = 2 then s.wordArrive home 2 (barPhase w) (barBroken w) (barExpected w) (barArrived w + n + 1) (barArrived w + n)
  else s.updCore (coreOfPA home) fun c => { c with orphan := min (c.orphan + 1) (2 ^ 32 - 1) }

/-- The check of R168 on a kind 01 word for a block: when more arrivals are owed than groups can make, the word breaks and every path
waiting on it traps. -/
def State.wordCheck (s : State) (bk home : Nat) : State :=
  let w := s.mem.readLE home 8
  let free := ((s.groupsOf bk).filter fun e => e.2.alive != 0 && !e.2.waits (onWord home)).length
  if barKind w = 1 && !barBroken w && s.groups.any (fun e => e.2.waits (onWord home)) && decide (free < barExpected w - barArrived w) then
    (s.performWrite (leBytes home false 8 (w + 1))).trapWaiters (fun _ => true) (onWord home) (trap .barrierBroken)
  else s

/-- BARI (R164). -/
def execBari (stl : BitVec 3) (k a b : BitVec 7) (s : State) : Outcome State Fault Refusal :=
  issueEffect (.bari stl k a b) (fun e =>
    match e.barHome a with
    | .error t => .error t
    | .ok home =>
      let n := (e.uni b).val.toNat
      if k = 0 then .ok (s.performWrite (leBytes home false 8 0))
      else if n = 0 ∨ 2 ^ 30 ≤ n then .error (trap .barrierMismatch)
      else .ok (s.performWrite (leBytes home (e.uni b).poison 8 (barWord k.toNat false n 0 false)))) s

/-- The trap a barrier word that has been read raises for an instruction that names it (R165, R430): `arrive` for BARA and BARAW. -/
def State.wordTrap (s : State) (home : Nat) (arrive : Bool) : Option Trap :=
  let w := s.mem.readLE home 8
  if s.mem.anyPoison home 8 then some (trap .poison)
  else if barBroken w then some (trap .barrierBroken)
  else if barKind w = 0 || (arrive && barKind w = 2) then some (trap .barrierMismatch) else none

/-- A diverged group waits at the instruction's PC for its other live paths (R167). -/
def Env.converge (e : Env) (i : Instr) (go : Outcome State Fault Refusal) : Outcome State Fault Refusal :=
  if (e.g.others e.pi).isEmpty then go
  else .next (e.s.updPath e.gk e.pi fun p => { e.advance i p.pc p with st := .parked, wait := .conv, resume := p.pc, exempt := p.exempt })

/-- BARA and BARAW (R165, R167, R168): arrive; BARAW then waits for the phase to end. -/
def execArrive (i : Instr) (wait : Bool) (d a : BitVec 7) (s : State) : Outcome State Fault Refusal :=
  issueWith i (fun e =>
    match e.barHome a with
    | .error t => .next (e.trapAll t)
    | .ok home => e.converge i (
      let s := (s.meetWord (some e.b.ctx) home 8).1
      match s.wordTrap home true with
      | some t => .next (s.trapEntry e.gk e.pi t e.p.mask noVa)
      | none =>
        let w := s.mem.readLE home 8
        let phase := barPhase w
        let s1 := (s.wordArrive home 1 phase false (barExpected w) 1 (barArrived w + 1)).uniformResult e.gk d.toNat [BitVec.ofNat 32 phase.toNat] false
        let done := barPhase (s1.mem.readLE home 8) != phase
        let s2 := if wait && !done then e.park i (.barWord home phase) s1 else e.finish i (e.nextPc i) [] s1
        .next (s2.wordCheck e.g.blk home))) s

/-- BARA (R165). -/
def execBara (stl : BitVec 3) (d a : BitVec 7) (s : State) : Outcome State Fault Refusal := execArrive (.bara stl d a) false d a s
/-- BARAW (R165). -/
def execBaraw (stl : BitVec 3) (d a : BitVec 7) (s : State) : Outcome State Fault Refusal := execArrive (.baraw stl d a) true d a s
/-- BARW (R165). -/
def execBarw (stl : BitVec 3) (a b : BitVec 7) (s : State) : Outcome State Fault Refusal :=
  let i : Instr := .barw stl a b
  issueWith i (fun e =>
    match e.barHome a with
    | .error t => .next (e.trapAll t)
    | .ok home =>
      let s := (s.meetWord (some e.b.ctx) home 8).1
      match s.wordTrap home false with
      | some t => .next (s.trapEntry e.gk e.pi t e.p.mask noVa)
      | none =>
        let phase := (e.uni b).val.getLsbD 0
        if barPhase (s.mem.readLE home 8) != phase then .next (e.finish i (e.nextPc i) [] s)
        else .next ((e.park i (.barWord home phase) s).wordCheck e.g.blk home)) s

/-! ### Named barriers (R169) -/

/-- A named barrier at placement (R244). -/
def Named.new : Named := ⟨0, 0, false⟩
def onNamed (n : Nat) (w : Wait) : Bool := match w with | .named m _ => m == n | _ => false
/-- What the releases of a block that key k gathers have before them (R287). -/
def Blk.relDeps (b : Blk) (k : Nat) : List Nat := SMap.get [] b.rels k
/-- A path's release joins those of key k; they start afresh. -/
def State.addRel (s : State) (bk k gk : Nat) (m : Mask) : State :=
  let ds := s.depsOf gk m
  if ds.isEmpty then s else s.updBlk bk fun b => { b with rels := SMap.set [] b.rels k (b.relDeps k ++ ds) }
def State.endRel (s : State) (bk k : Nat) : State :=
  match s.blk bk with | some b => if (b.relDeps k).isEmpty then s else s.setBlk bk { b with rels := SMap.set [] b.rels k [] } | none => s

def State.setNamed (s : State) (bk n : Nat) (x : Named) : State := s.updBlk bk fun b => { b with named := SMap.put b.named n x }
def Blk.namedBar (b : Blk) (n : Nat) : Named := SMap.get Named.new b.named n

/-- The check of R168 on a named barrier; when it breaks, its waiters trap and it is reset, its phase kept (R169). -/
def State.namedCheck (s : State) (bk n : Nat) : State :=
  match s.blk bk with
  | none => s
  | some b =>
    let x := b.namedBar n
    let gs := s.groupsOf bk
    let free := (gs.filter fun e => e.2.alive != 0 && !e.2.waits (onNamed n)).length
    if gs.any (fun e => e.2.waits (onNamed n)) && decide (free < x.count - x.arrived) then
      ((s.endRel bk n).setNamed bk n { x with count := 0, arrived := 0 }).trapWaiters (fun g => g.blk == bk) (onNamed n) (trap .barrierBroken)
    else s

/-- NBAR (R169). -/
def execNbar (stl : BitVec 3) (v n b : BitVec 7) (s : State) : Outcome State Fault Refusal :=
  let i : Instr := .nbar stl v n b
  issueWith i (fun e => e.converge i (
    let x := e.b.namedBar n.toNat
    let count := (e.uni b).val.toNat
    if if x.arrived = 0 then count = 0 ∨ 16 < count else count ≠ x.count then .next (e.trapAll (trap .barrierMismatch))
    else if x.arrived + 1 = count then
      let deps := e.b.relDeps n.toNat ++ s.depsOf e.gk e.p.mask
      let s0 := (s.acquireAll (fun g => g.blk == e.g.blk) (onNamed n.toNat) deps).endRel e.g.blk n.toNat
      let s1 := (s0.setNamed e.g.blk n.toNat ⟨0, 0, !x.phase⟩).release (fun g => g.blk == e.g.blk) (onNamed n.toNat)
      .next (e.finish i (e.nextPc i) [] (if v = 1 then s1 else s1.syncTo e.gk e.p.mask deps))
    else
      let s1 := (s.addRel e.g.blk n.toNat e.gk e.p.mask).setNamed e.g.blk n.toNat ⟨count, x.arrived + 1, x.phase⟩
      let s2 := if v = 1 then e.finish i (e.nextPc i) [] s1 else e.park i (.named n.toNat x.phase) s1
      .next (s2.namedCheck e.g.blk n.toNat))) s

/-! ### Hierarchical barriers (R170) -/

/-- HBAR: each group arrives once and waits for HBAR_COMPLETE. -/
def execHbar (stl : BitVec 3) (c : BitVec 7) (s : State) : Outcome State Fault Refusal :=
  let i : Instr := .hbar stl c
  issueWith i (fun e =>
    if (e.b.clsz = 0 && !e.b.gang) || (c = 3 && e.b.clsz = 0) then .next (e.trapAll (trap .task))
    else e.converge i (
      let k := c.toNat
      let s1 := (s.addRel e.g.blk (16 + k) e.gk e.p.mask).updBlk e.g.blk fun b => { b with hbarArr := SMap.put b.hbarArr k (SMap.get [] b.hbarArr k ++ [e.g.gix]) }
      .next (e.park i (.hbar k (SMap.get 0 e.b.hbarDone k)) s1))) s

/-! ### Monitor wait (R171, R295) -/

/-- The value MWAIT returns for a reason (R171, R179). -/
def mwaitValue (b : Blk) (reason : Nat) : Word := if b.det && reason == 2 then 1 else BitVec.ofNat 32 reason

/-- MWAIT (R171). A poisoned sB is compared by its value (R171 names no trap for it; log entry 29), and its poison goes to sD (R90). -/
def execMwait (stl : BitVec 3) (d a b : BitVec 7) (s : State) : Outcome State Fault Refusal :=
  let i : Instr := .mwait stl d a b
  issueWith i (fun e =>
    match e.memCheck i true (e.upair a) 4 .read true false 127 with
    | .error x => .next (e.s.trapEntry e.gk e.pi x.1 e.p.mask x.2)
    | .ok ps =>
      match ps with
      | [p] =>
        if p.host || p.ord == 2 then .next (e.trapAll (trap .access) p.va)
        else
          let (s, bad) := s.meetWord (some e.b.ctx) p.home 4
          let x := e.uni b
          if bad then .next (s.trapEntry e.gk e.pi (trap .poison) e.p.mask p.va)
          else if s.readHeld e.gk e.p.mask p.home 4 p.ord then .next (e.park i (.mwait p.home p.ord x.val 0 d.toNat x.poison) s)
          else if s.mem.readLE p.home 4 ≠ x.val.toNat then .next (e.finish i (e.nextPc i) [] (s.uniformResult e.gk d.toNat [0] x.poison))
          else .next (e.park i (.mwait p.home p.ord x.val 1 d.toNat x.poison) s)
      | _ => .next (e.trapAll (trap .access))) s

/-! ### Stage rings (R172) -/

/-- The home of a ring control word (R172). -/
def Env.ringHome (e : Env) (i : Instr) (a : BitVec 7) : Except (Trap × Nat) Part :=
  let ad := e.upair a
  if ad.2 then .error (trap .poison, noVa)
  else if !isAperture ad.1.toNat ∨ ad.1.toNat / 2 ^ 56 ≠ 0 then .error (trap .access, ad.1.toNat)
  else match e.memCheck i true ad 4 .read true false 127 with
    | .error x => .error x
    | .ok (p :: _) => .ok p
    | .ok [] => .error (trap .access, ad.1.toNat)

/-- Whether stage bit `bit` of a ring word has the value awaited. -/
def State.ringBit (s : State) (home bit : Nat) (phase : Bool) : Bool := (s.mem.readLE home 4).testBit bit == phase

/-- SWAITP (R172). Bit 0 of a poisoned sB is taken as it stands (R172 names no trap for it; log entry 29). -/
def execSwaitp (stl : BitVec 3) (g a b : BitVec 7) (s : State) : Outcome State Fault Refusal :=
  let i : Instr := .swaitp stl g a b
  issueWith i (fun e =>
    match e.ringHome i a with
    | .error x => .next (e.s.trapEntry e.gk e.pi x.1 e.p.mask x.2)
    | .ok p =>
      let (s, bad) := s.meetWord (some e.b.ctx) p.home 4
      let phase := (e.uni b).val.getLsbD 0
      if bad then .next (s.trapEntry e.gk e.pi (trap .poison) e.p.mask p.va)
      else if !s.readHeld e.gk e.p.mask p.home 4 1 && s.ringBit p.home g.toNat phase then .next (e.finish i (e.nextPc i) [] s)
      else .next (e.park i (.swaitp p.home g.toNat phase) s)) s

/-- SSIG (R172): a release at .PKG; the toggle is an XOR of one bit at home (R153). -/
def execSsig (stl : BitVec 3) (g a : BitVec 7) (s : State) : Outcome State Fault Refusal :=
  let i : Instr := .ssig stl g a
  issueWith i (fun e =>
    match e.ringHome i a with
    | .error x => .next (e.s.trapEntry e.gk e.pi x.1 e.p.mask x.2)
    | .ok p =>
      let (s, bad) := s.meetWord (some e.b.ctx) p.home 4
      let mk (rid : Nat) (ps : List Touch) : MemReq :=
        { e.request s.seq .atomic false true rid ps with
          aop := 3, atoms := [⟨s.seq, e.gk, 128, 2 ^ g.toNat, 0, false, false⟩] }
      if bad then .next (s.trapEntry e.gk e.pi (trap .poison) e.p.mask p.va)
      else .next (e.finish i (e.nextPc i) [] (({ s with seq := s.seq + 1 }).send mk [touches e.p.mask 127 0 [p]]))) s

/-! ### XSEND and XRECV (R178) -/

/-- The earliest unpaired request of the other side. -/
def Blk.xpeer (b : Blk) (send : Bool) (me peer ch : Nat) : Option XReq :=
  b.xreqs.find? fun x => x.send == !send && x.me == peer && x.peer == me && x.ch == ch

/-- Send x and receive y pair (R178): the receiving threads take the values and acquire what the sender made before (R287); the sending path
goes on. -/
def State.xpair (s : State) (bk : Nat) (x y : XReq) : State :=
  let both := x.mask &&& y.mask
  let r : Result :=
    { id := y.id, gk := y.gk, cls := .other, mask := y.mask
      vw := (x.vals.filter fun w => both.getLsbD w.1).map fun w => (128 * y.dest + w.1, w.2), sw := [], flags := 0 }
  let s1 := { s with results := s.results ++ [r] }.unmark y.id |>.updBlk bk fun b => { b with xreqs := b.xreqs.filter fun z => z.id != x.id && z.id != y.id }
  (s1.updGrp x.gk (Grp.resumeWait fun w => match w with | .xsend id => id == x.id | _ => false)).syncTo y.gk y.mask x.deps

/-- The acquire an operation of the path makes when it completes: later accesses of its threads come after it (R178, R239, R282). -/
def Env.acquire (e : Env) (op : Nat) (m : Mask) : MemReq :=
  { rid := op, op := op, gk := e.gk, ctx := e.b.ctx, core := e.b.core, bk := e.g.blk, pi := e.pi, pc := e.p.pc, mask := m, sync := 0
    kind := .acquire, parts := [], acq := true, rel := false, aop := 0, atoms := [], cause := 0, queued := none }

/-- XSEND and XRECV (R178): pair with the earliest request of the peer, or wait for one. -/
def execExchange (i : Instr) (send : Bool) (peer ch : Nat) (vals : Env → List (Nat × RegVal)) (dest : Env → Nat) (s : State) :
    Outcome State Fault Refusal :=
  issueWith i (fun e =>
    let dead := !((s.groupsOf e.g.blk).any fun x => x.2.gix == peer && x.2.alive != 0)
    let fails : Fails := (e.readers i).filterMap fun t => (e.deferred i t).map fun tr => (t, tr, noVa)
    if e.b.gpb ≤ peer ∨ peer = e.g.gix then .next (e.trapAll (trap .xmov))
    else if e.b.det && e.b.xreqs.any fun x => x.gk == e.gk && x.peer == peer && x.ch == ch then .next (e.trapAll (trap .determ))
    else
      let ok := e.p.mask &&& ~~~(maskOf (fails.map (·.1)))
      let x : XReq :=
        { id := s.seq, gk := e.gk, send := send, me := e.g.gix, peer := peer, ch := ch, mask := ok, vals := vals e, dest := dest e
          deps := if send then s.depsOf e.gk e.p.mask else [] }
      let s1 := { s.updGrp e.gk (e.seeFails i fails) with seq := s.seq + 1 }
      let s2 := if send then s1 else s1.updGrp e.gk fun g => { g with pend := g.pend ++ [⟨.v (dest e), ok, x.id, .other⟩] }
      if ok = 0 && e.p.mask != 0 then .next (e.finish i (e.nextPc i) fails (s.updGrp e.gk (e.seeFails i fails)))
      else match e.b.xpeer send e.g.gix peer ch with
      | some y => .next (e.finish i (e.nextPc i) fails (s2.xpair e.g.blk (if send then x else y) (if send then y else x)))
      | none =>
        if dead then .next (e.trapAll (trap .xmov))
        else
          let s3 := (if send then s2 else s2.mark (e.acquire x.id ok)).updBlk e.g.blk fun b => { b with xreqs := b.xreqs ++ [x] }
          .next (e.finishAs (if send then e.parked i (.xsend x.id) else e.advance i (e.nextPc i)) fails s3)) s

/-- XSEND (R178). -/
def execXsend (stl : BitVec 3) (g a c : BitVec 7) (s : State) : Outcome State Fault Refusal :=
  execExchange (.xsend stl g a c) true g.toNat c.toNat (fun e => (threadsOf e.p.mask).map fun t => (t, e.vec a t)) (fun _ => 0) s
/-- XRECV (R178). -/
def execXrecv (stl : BitVec 3) (d g c : BitVec 7) (s : State) : Outcome State Fault Refusal :=
  execExchange (.xrecv stl d g c) false g.toNat c.toNat (fun _ => []) (fun e => e.g.num d) s

/-- A group has exited with requests of its peers unpaired (R178): a waiting sender traps XMOV, a pending destination traps it when it is
read. -/
def State.xorphan (s : State) (bk gix : Nat) : State :=
  match s.blk bk with
  | none => s
  | some b =>
    let lost := b.xreqs.filter fun x => x.peer == gix
    let s0 := (b.xreqs.filter fun x => x.me == gix).foldl (fun (s : State) x => s.unmark x.id) s
    let s1 := s0.setBlk bk { b with xreqs := b.xreqs.filter fun x => x.peer != gix && x.me != gix }
    lost.foldl (fun s x =>
      if x.send then s.trapWaiters (fun _ => true) (fun w => match w with | .xsend id => id == x.id | _ => false) (trap .xmov)
      else (s.unmark x.id).updGrp x.gk fun g =>
        { g with
          pend := g.pend.filter fun p => p.id != x.id
          faulted := (threadsOf x.mask).foldl (fun m t => SMap.put m (128 * x.dest + t) (256 + Cause.xmov.code, x.id)) g.faulted }) s1

/-! ### WAITR (R116) -/

/-- The operations of the named classes the path has still out; a TUPD until its engine has accepted it (R222). -/
def Env.outOps (e : Env) (q : BitVec 3) : List Nat :=
  let mine := e.g.pend.filter fun p => p.mask &&& e.p.mask != 0
  let ld := if q.getLsbD 0 then (mine.filter fun p => p.cls == .load).map (·.id) else []
  let eng := if q.getLsbD 2 then (mine.filter fun p => p.cls == .engine).map (·.id)
    ++ (e.s.treeReqs.filter fun r => r.gk == e.gk && r.kind == 1 && e.p.mask.getLsbD r.thread).map (·.id) else []
  let st := if q.getLsbD 1 then
    (e.s.reqs.filter fun r => r.gk == e.gk && r.mask &&& e.p.mask != 0 && (r.kind.writes || r.kind == .refused) && !r.atoms.any (·.ret)).map (·.op) else []
  (ld ++ eng ++ st).eraseDups

/-- Whether an operation of the group is still out. -/
def State.opOut (s : State) (gk id : Nat) : Bool :=
  s.reqs.any (fun r => r.op == id || r.atoms.any fun u => u.op == id) || s.treeReqs.any (fun r => r.kind == 1 && r.id == id) ||
    (match s.grp gk with | some g => g.pend.any fun p => p.id == id | none => false)

/-- WAITR (R116). -/
def execWaitr (stl : BitVec 3) (q : BitVec 3) (s : State) : Outcome State Fault Refusal :=
  let i : Instr := .waitr stl q
  issueWith i (fun e =>
    let ids := e.outOps q
    .next (if ids.isEmpty then e.finish i (e.nextPc i) [] s else e.park i (.waitr ids) s)) s

/-! ### The extended set (R118) -/

/-- Groups of the block that wait in RACQ: their GIX. -/
def State.racqWaiters (s : State) (bk : Nat) : List Nat :=
  ((s.groupsOf bk).filter fun e => e.2.waits fun w => match w with | .racq => true | _ => false).map (·.2.gix)

/-- The next turn under DET: past groups that have exited (R118); fuel is the number of groups. -/
def State.passTurn (s : State) (bk : Nat) (gpb : Nat) : Nat → Nat → Nat
  | 0, t => t
  | fuel + 1, t =>
    if (s.groupsOf bk).any fun e => e.2.gix == t && e.2.alive != 0 then t else s.passTurn bk gpb fuel ((t + 1) % gpb)

/-- The free set is granted (R118): without DET to the waiting group with the lowest GIX, under DET to the group whose turn it is if it
waits. The new holder acquires what the last one made before it gave the set up (R287). -/
def State.grantSet (s : State) (bk : Nat) : State :=
  match s.blk bk with
  | none => s
  | some b =>
    let turn := s.passTurn bk b.gpb b.gpb b.turn
    let s := s.setBlk bk { b with turn := turn }
    if b.holder.isSome then s
    else
      let ws := (s.racqWaiters bk).filter fun g => !b.det || g == turn
      match ws with
      | [] => s
      | w :: r =>
        let win := r.foldl min w
        let waits (w : Wait) : Bool := match w with | .racq => true | _ => false
        let s1 := s.acquireAll (fun g => g.blk == bk && g.gix == win) waits (b.relDeps 32)
        (s1.updBlk bk fun b => { b with holder := some win }).release (fun g => g.blk == bk && g.gix == win) waits

/-- The group gives the set up (R118): its turn ends and the set is granted anew; the path's, or all the group's, operations come before the next
holder's accesses (R287). -/
def State.releaseSet (s : State) (bk gk gix : Nat) (m : Mask) : State :=
  match s.blk bk with
  | none => s
  | some b =>
    if b.holder == some gix then
      (((s.endRel bk 32).addRel bk 32 gk m).updBlk bk fun b => { b with holder := none, turn := (gix + 1) % b.gpb }).grantSet bk
    else s

/-! ### EXIT and EXITG (R107) -/

/-- Whether a write of the group to the extended set is still to come (R118). -/
def Grp.extPending (g : Grp) : Bool :=
  g.pend.any (fun p => match p.reg with | .v n => decide (128 ≤ n) | _ => false) || g.fixed.any fun f => f.vw.any fun w => decide (128 * 128 ≤ w.1)

/-- A group that has exited holding the extended set gives it up once no write of its to it is pending any more, as RREL would (R118). -/
def State.exitRelease (s : State) (bk : Nat) : Option State :=
  match s.blk bk with
  | none => none
  | some b =>
    match (s.groupsOf bk).find? fun e => b.holder == some e.2.gix && e.2.alive == 0 && !e.2.extPending with
    | some e => some (s.releaseSet bk e.1 e.2.gix (~~~0))
    | none => none

/-- A group has exited: the extended set goes on (R118), barriers waited on are checked (R168), exchanges are orphaned (R178). -/
def State.groupExited (s : State) (gk : Nat) : State :=
  match s.grp gk with
  | none => s
  | some g =>
    let s := (((s.exitRelease g.blk).getD s).grantSet g.blk).xorphan g.blk g.gix
    let waits := (s.groupsOf g.blk).flatMap fun e => (e.2.paths.map (·.wait)) ++ e.2.spilled.map fun x => x.2.wait
    let homes := (waits.filterMap fun w => match w with | .barWord h _ => some h | _ => none).eraseDups
    let names := (waits.filterMap fun w => match w with | .named n _ => some n | _ => none).eraseDups
    names.foldl (fun s n => s.namedCheck g.blk n) (homes.foldl (fun s h => s.wordCheck g.blk h) s)

/-- Threads of a path exit (R107, R261): the entry is freed; the group exits with its last thread. -/
def State.exitPath (s : State) (gk pi : Nat) : State :=
  let s1 := s.updGrp gk fun g => Path.set { g with alive := g.alive &&& ~~~(g.path pi).mask } pi Path.free
  let s2 := s1.handlerNext gk
  match s2.grp gk with
  | some g => if g.alive == 0 then s2.groupExited gk else s2
  | none => s2

/-- Every thread of the group exits (R107); what held its paths holds none (R445). -/
def State.exitGroup (s : State) (gk : Nat) : State :=
  ({ s with dev := s.dev.dropStops fun x => x.gk == gk }.updGrp gk fun g =>
    { g with alive := 0, paths := List.replicate 8 Path.free, spilled := [], spillRecs := [] }).groupExited gk

/-- EXIT (R107). -/
def execExit (stl : BitVec 3) (s : State) : Outcome State Fault Refusal :=
  issueWith (.exit stl) (fun e => .next (s.exitPath e.gk e.pi)) s
/-- EXITG (R107). -/
def execExitg (stl : BitVec 3) (s : State) : Outcome State Fault Refusal :=
  issueWith (.exitg stl) (fun e => .next (s.exitGroup e.gk)) s

end Sys2Proof.Machine
end

