-- ==== Sys2Proof/Machine/Tables.lean ====
section
/-! DEFINITION. The context tables (R391 to R398): entries of the table area, the network table with its rules and format-block copies,
spectral table slots. -/
namespace Sys2Proof.Machine
open Sys2Proof

/-! ### The table area (R391, R392) -/

def Ctx.tabbase (c : Ctx) : Nat := (c.tab.extractLsb' 64 64).toNat
def Ctx.netcnt (c : Ctx) : Nat := (c.tab.extractLsb' 51 13).toNat

/-- Offset, entry count and entry bytes of a TBLLD kind (R392). -/
def tabKind (c : Ctx) (kind : Nat) : Nat × Nat × Nat :=
  match kind with
  | 0 => (0, c.netcnt, 64) | 1 => (0x40000, 256, 1024) | 2 => (0x80000, 256, 64) | 3 => (0x84000, 256, 16) | _ => (0x85000, 64, 256)

/-- The home of a byte of the table area. -/
def Ctx.tabHome (c : Ctx) (off : Nat) : Nat := (hbmLinear (c.tabbase + off)).getD 0

/-- The lines of a range of the table area, lowest first, each at its home (R373, R392): home and bytes. -/
def Ctx.tabLines (c : Ctx) (off n : Nat) : List (Nat × Nat) :=
  (List.range ((n + 63) / 64)).map fun k => (c.tabHome (off + 64 * k), min 64 (n - 64 * k))

/-- A range of the table area as a number, each 16-byte unit as a cache may read it (R393), and whether a line of it is poisoned. -/
def State.tabRange (s : State) (ctx off n : Nat) : Nat × Bool :=
  ((s.ctx ctx).tabLines off n).foldr (fun l r => (s.seenLE ctx (2 ^ 42) 16 l.1 l.2 + 2 ^ (8 * l.2) * r.1, s.mem.anyPoison l.1 l.2 || r.2)) (0, false)

/-- Entry `idx` of a kind as a number, with its poison; none beyond the count. -/
def State.tabEntry (s : State) (ctx kind idx : Nat) : Option (Nat × Bool) :=
  let (off, count, bytes) := tabKind (s.ctx ctx) kind
  if idx < count then some (s.tabRange ctx (off + bytes * idx) bytes) else none

/-- Lines of a context's table area have been written from outside: the copies of format blocks of those entries count as taken for an entry that
system software wrote (R396). -/
def Ctx.softEntries (c : Ctx) (lines : List Nat) : Ctx :=
  { c with netCopies := c.netCopies.map fun (e : Nat × Bool × Option (BitVec 512)) =>
      if lines.contains (c.tabHome (64 * e.1) / 64) then (e.1, false, e.2.2) else e }

/-! ### The network table (R395, R396) -/

/-- A network entry's fields: layers, and per layer input and output width, activation, weight offset. -/
structure Net where
  e : Nat
  layers : Nat
  wbase : Nat
  fmtb : Nat
  bbase : Nat
  wsize : Nat
  deriving DecidableEq, Repr

def Net.of (e : Nat) : Net :=
  { e := e, layers := e / 4 % 4 + 1, wbase := e / 2 ^ 448 % 2 ^ 64, fmtb := e / 2 ^ 384 % 2 ^ 64, bbase := e / 2 ^ 320 % 2 ^ 64
    wsize := e / 2 ^ 239 % 2 ^ 17 }
def Net.n (x : Net) (l : Nat) : Nat := x.e / 2 ^ (192 + 6 * l) % 64 + 1
def Net.k (x : Net) (l : Nat) : Nat := match l with | 0 => x.e / 16 % 64 + 1 | m + 1 => x.n m
def Net.act (x : Net) (l : Nat) : Nat := x.e / 2 ^ (216 + 3 * l) % 8
def Net.woff (x : Net) (l : Nat) : Nat := x.e / 2 ^ (256 + 16 * l) % 2 ^ 16
def Net.outs (x : Net) : Nat := x.n (x.layers - 1)
/-- The format block of layer l from the copies. -/
def netBlock (copies : BitVec 512) (l : Nat) : BitVec 128 := copies.extractLsb' (128 * l) 128

/-- Rules of a layer (R396): its format block and its image's bounds. -/
def Net.layerOk (x : Net) (copies : BitVec 512) (l : Nat) : Bool :=
  let f := netBlock copies l
  let a := halfA f; let b := halfB f
  let m := modeOf a b
  let cols := x.n l * ((x.k l * b.elem.bits + 7) / 8)
  let sc : Int := x.woff l + b.soff
  a.legal false && b.legal true && m != 0 && m != 8 && b.spn == 0 && a.sfmt == 0 && x.act l ≤ 5
    && x.woff l + cols ≤ x.wsize
    && (b.sfmt == 0 || decide (0 ≤ sc ∧ sc + (x.n l * ((x.k l + b.blen - 1) / b.blen) : Nat) ≤ x.wsize))

/-- What must be 0 in an entry is: its reserved bits, and ACT, WM and WOFF of the layers it has not (R395, R396). -/
def Net.zeros (x : Net) : Bool :=
  x.e / 2 % 2 == 0 && x.e / 2 ^ 10 % 2 ^ 182 == 0 && x.e / 2 ^ 228 % 2 ^ 11 == 0
    && (List.range 4).all fun l => l < x.layers || (x.e / 2 ^ (216 + 3 * l) % 8 == 0 && x.e / 2 ^ (192 + 6 * l) % 64 == 0 && x.woff l == 0)

/-- Rules of an entry's own bits (R395, R396). -/
def Net.fieldsOk (x : Net) : Bool :=
  x.e % 2 == 1 && x.zeros && 1 ≤ x.wsize && x.wsize ≤ 65536 && x.wbase % 16 == 0 && x.bbase % 4 == 0

/-- The format blocks of an entry read from memory (R396); the cause of a fault, or POISON. -/
def State.readBlocks (s : State) (ag : Agent) (x : Net) : Except Cause (BitVec 512) :=
  match s.loadNow ag x.fmtb (16 * x.layers) with
  | .error f => .error f.1
  | .ok (_, true) => .error .poison
  | .ok (v, false) => .ok (BitVec.ofNat 512 v)

/-- A handle looked up (R202, R396): the loaded entry with its copies, read now if none have been read, and the state that keeps what was read, be it
that the blocks cannot be. -/
def State.network (s : State) (ag : Agent) (h : Nat) : Option (Net × BitVec 512) × State :=
  match s.tabEntry ag.ctx 0 h with
  | none => (none, s)
  | some (_, true) => (none, s)
  | some (e, false) =>
    let x := Net.of e
    let judge (c : BitVec 512) : Option (Net × BitVec 512) :=
      if x.fieldsOk && (List.range x.layers).all (x.layerOk c) then some (x, c) else none
    match SMap.find? (s.ctx ag.ctx).netCopies h with
    | some c => (c.2.bind judge, s)
    | none =>
      let s1 := s.meetVa ag x.fmtb (16 * x.layers)
      let c := match s1.readBlocks ag x with | .error _ => none | .ok c => some c
      (c.bind judge, s1.updCtx ag.ctx fun k => { k with netCopies := SMap.put k.netCopies h (false, c) })

/-! ### Spectral table slots (R398) -/

/-- A loaded spectral table: λ₀ and Δ as FP32 bits, EDGE, its values. -/
structure SpecTab where
  l0 : Nat
  dl : Nat
  edge : Nat
  vals : List Nat
  deriving DecidableEq, Repr

/-- Whether FP32 bits are finite. -/
def finite32 (n : Nat) : Bool := n / 2 ^ 23 % 256 != 255

/-- A field of a table entry. -/
def entryField (e lo n : Nat) : Nat := e / 2 ^ lo % 2 ^ n

/-- What must be 0 in a spectral table slot is: its reserved bits, and the words beyond its values. -/
def specZeros (e : Nat) : Bool :=
  entryField e 74 438 == 0 && e / 2 ^ 4608 == 0 && (List.range 128).all fun j => j < entryField e 64 8 + 1 || entryField e (512 + 32 * j) 32 == 0
/-- Whether a slot is loaded: VALID, and every rule met (R398). -/
def specLoaded (e : Nat) : Bool :=
  let dl := entryField e 32 32
  entryField e 73 1 == 1 && entryField e 64 8 ≤ 127 && specZeros e && finite32 (entryField e 0 32) && finite32 dl && dl != 0 && dl < 2 ^ 31

/-- A spectral table slot and whether a line of it is poisoned; none when it is not loaded. -/
def State.specTable (s : State) (ctx idx : Nat) : Option (SpecTab × Bool) :=
  match s.tabEntry ctx 1 idx with
  | none => none
  | some (e, z) =>
    if specLoaded e then
      some (⟨entryField e 0 32, entryField e 32 32, entryField e 72 1, (List.range (entryField e 64 8 + 1)).map fun j => entryField e (512 + 32 * j) 32⟩, z)
    else none

/-! ### Texture descriptors and samplers (R399, R400) -/

/-- What must be 0 in a texture descriptor is: its reserved bits, TSGN but for integer formats, and the fields of other kinds than its own. -/
def texZeros (e : Nat) : Bool :=
  let f := entryField e
  let kind := f 262 3; let fmt := f 268 4
  f 0 262 == 0 && f 288 8 == 0 && f 352 32 == 0 && f 448 4 == 0 && (f 267 1 == 0 || fmt == 9 || fmt == 10)
    && (kind == 3 || kind == 4 || (f 416 32 == 0 && f 384 32 == 0 && f 296 8 == 0)) && (kind == 1 || (f 272 4 == 0 && f 265 2 == 0))
/-- Whether a texture descriptor is loaded (R399). -/
def texLoaded (e : Nat) : Bool :=
  let f := entryField e
  let kind := f 262 3; let fmt := f 268 4; let spectral := kind == 3 || kind == 4
  1 ≤ kind && kind ≤ 4 && texZeros e && [0, 2, 3, 4, 5, 9, 10].contains fmt
    && (!spectral || (finite32 (f 416 32) && finite32 (f 384 32) && f 384 32 != 0 && f 384 32 < 2 ^ 31 && f 296 8 ≤ 127))
    && (kind != 2 || fmt == 0) && (kind != 3 || (f 336 16 == 0 && f 320 16 == 0 && f 304 16 == 0))

/-- What must be 0 in a sampler record is. -/
def sampZeros (e : Nat) : Bool := entryField e 64 64 == 0 && entryField e 3 28 == 0
/-- Whether a sampler record is loaded (R400). -/
def sampLoaded (e : Nat) : Bool :=
  sampZeros e && entryField e 31 1 == 1 && finite32 (entryField e 32 32) && entryField e 1 2 ≤ 1

/-! ### Decompression code tables (R401) -/

/-- The code lengths of a table. -/
def codeLens (e : Nat) : List Nat := (List.range 256).map fun s => entryField e (8 * s) 8
/-- Whether a code table is loaded (R401). -/
def codesLoaded (e : Nat) : Bool :=
  let ls := (codeLens e).filter (· != 0)
  !ls.isEmpty && ls.all (· ≤ 16) && ls.foldl (fun n l => n + 2 ^ (16 - l)) 0 ≤ 2 ^ 16

/-- The canonical codes (R401): length, code, symbol. -/
def codesOf (e : Nat) : List (Nat × Nat × Nat) :=
  let ls := codeLens e
  let order := (List.range 17).flatMap fun l => if l = 0 then [] else ((List.range 256).filter fun s => ls.getD s 0 == l).map fun s => (l, s)
  (order.foldl (fun (acc : List (Nat × Nat × Nat) × Nat × Nat) x =>
    let code := if acc.2.2 = 0 then 0 else (acc.2.1 + 1) * 2 ^ (x.1 - acc.2.2)
    (acc.1 ++ [(x.1, code, x.2)], code, x.1)) ([], 0, 0)).1

end Sys2Proof.Machine
end

