-- ==== Sys2Proof/Machine/TaskHome.lean ====
section
/-! DEFINITION. Records (R385 to R388), MSI-X signals (R412), and the home of the TCBs: images and write-back (R346 to R349), arming (R236,
R350 to R354), TRESET (R237), fatal faults and cancellation (R363, R364), the end of a launch (R362). -/
namespace Sys2Proof.Machine
open Sys2Proof

/-! ### Records -/

/-- The 64 bytes of a record (R386). -/
def Rec.bits (r : Rec) : BitVec 512 :=
  BitVec.ofNat 512 (r.va % 2 ^ 64 * 2 ^ 448 + r.pc.toNat % 2 ^ 56 * 2 ^ 392 + r.mask.toNat * 2 ^ 296 + r.slots.toNat * 2 ^ 264
    + r.count % 2 ^ 32 * 2 ^ 232 + r.tag % 2 ^ 32 * 2 ^ 200 + r.bid % 2 ^ 32 * 2 ^ 168 + r.task % 2 ^ 16 * 2 ^ 152 + r.info % 2 ^ 16 * 2 ^ 136
    + r.core % 2 ^ 12 * 2 ^ 124 + r.gix % 16 * 2 ^ 120 + r.path % 8 * 2 ^ 117 + r.exited.toNat * 2 ^ 116 + r.ctx % 64 * 2 ^ 110
    + r.kind % 64 * 2 ^ 104 + r.cause % 256 * 2 ^ 96 + r.later % 2 ^ 32 * 2 ^ 64 + r.aux.toNat)

/-- A record comes up (R385): escalations and store faults through the core's coalescer, the others straight to the control processor. -/
def State.report (s : State) (core : Nat) (r : Rec) : State :=
  if r.kind = 1 ∨ r.kind = 4 then (s.coalesce core r).2 else { s with records := s.records ++ [r] }

/-! ### TCB images (R346 to R348) -/

def Ctx.tcbbase (c : Ctx) : Nat := (c.desc.extractLsb' 592 64).toNat
def Ctx.tcbcnt (c : Ctx) : Nat := (c.desc.extractLsb' 560 32).toNat
/-- The key of a task. -/
def taskKey (ctx idx : Nat) : Nat := 65536 * ctx + idx
def State.task (s : State) (ctx idx : Nat) : Option Task := SMap.find? s.tasks (taskKey ctx idx)
def State.setTask (s : State) (ctx idx : Nat) (t : Task) : State := { s with tasks := SMap.put s.tasks (taskKey ctx idx) t }

/-- The agent of an access made for a context by no core and no block. -/
def homeAgent (ctx : Nat) : Agent := ⟨ctx, 1152, 2 ^ 64⟩

/-- The parts of an access that must lie on pages with ORD 00 or 01 and HOST = 0 (R325, R346). -/
def State.plainParts (s : State) (ctx : Nat) (need : Need) (va n : Nat) : Except (Cause × Nat) (List Part) :=
  match s.resolve (homeAgent ctx) need va n with
  | .error x => .error x
  | .ok ps => match ps.find? fun p => p.aper || p.host || p.ord == 2 with | some p => .error (.access, p.va) | none => .ok ps

/-- n bytes of a TCB image from byte `off`, as a number. -/
def State.tcbRead (s : State) (ctx idx off n : Nat) : Except Cause Nat :=
  match s.plainParts ctx .atomic ((s.ctx ctx).tcbbase + 256 * idx + off) n with
  | .error x => .error x.1
  | .ok ps => .ok (s.readParts ps).1

/-- A 32-bit word of a TCB image is written, indivisibly. -/
def State.tcbWrite (s : State) (ctx idx off x : Nat) : Except Cause State :=
  match s.plainParts ctx .atomic ((s.ctx ctx).tcbbase + 256 * idx + off) 4 with
  | .error e => .error e.1
  | .ok ps => .ok (s.performWrite (partBytes false ps x))

/-- A TCB as the home sees it (R348): held, or its fields read from the image. -/
def State.tcb (s : State) (ctx idx : Nat) : Except Cause Task :=
  match s.task ctx idx with
  | some t => .ok t
  | none =>
    match s.tcbRead ctx idx 48 4 with
    | .error c => .error c
    | .ok dep =>
      match s.tcbRead ctx idx 64 8 with
      | .error c => .error c
      | .ok x => .ok
        { status := x % 8, depcnt := BitVec.ofNat 32 dep, overarm := x / 2 ^ 16 % 2 ^ 16, retired := x / 2 ^ 32, kept := false, desc := 0
          succ := [], queued := 0, placed := 0, since := 0, reserving := none, done := [], pfx := 0, ending := 0, fault := none, later := 0 }

/-- A field of the descriptor as read at READY. -/
def Task.f (t : Task) (lo n : Nat) : Nat := (t.desc.extractLsb' lo n).toNat
def Task.nblk (t : Task) : Nat := t.f 128 32
def Task.clsz (t : Task) : Nat := t.f 160 8
def Task.gpb (t : Task) : Nat := t.f 168 8
def Task.spawn (t : Task) : Nat := t.f 176 8
def Task.regs (t : Task) : Nat := t.f 192 8
def Task.xregs (t : Task) : Nat := t.f 200 8
def Task.spad (t : Task) : Nat := t.f 208 16
def Task.prio (t : Task) : Nat := t.f 320 3
def Task.det (t : Task) : Bool := t.desc.getLsbD 328
def Task.gang (t : Task) : Bool := t.desc.getLsbD 329
def Task.preemptible (t : Task) : Bool := t.desc.getLsbD 330
def Task.markAtDone (t : Task) : Bool := t.desc.getLsbD 332
def Task.quantum (t : Task) : Nat := t.f 352 32
def Task.faultrec (t : Task) : Nat := t.f 576 64
/-- The spawn area and the footprint (R266). -/
def spawnBytes (gpb spawn : Nat) : Nat := (gpb * 96 * spawn * 64 + 4095) / 4096 * 4096
def Task.fsize (t : Task) : Nat := t.spad * 4096 + spawnBytes t.gpb t.spawn + 4096

/-- A KIND 8 record (R387). -/
def checkRec (ctx idx cause info : Nat) : Rec := { Rec.empty with kind := 8, ctx := ctx, task := idx, cause := cause, info := info }

/-! ### Ends of launches (R353, R363, R364) -/

/-- Blocks of a task not yet retired. -/
def State.taskBlocks (s : State) (ctx idx : Nat) : List (Nat × Blk) := s.blocks.filter fun e => e.2.ctx == ctx && e.2.task == idx && !e.2.retained

/-- The words of the live fields of an image (R347), those an event changed first: their offsets and whether they changed. -/
def liveWords (old new : Task) : List (Nat × Bool) :=
  let ws := [(48, decide (old.depcnt ≠ new.depcnt)), (68, decide (old.retired ≠ new.retired)),
             (64, decide (old.status ≠ new.status ∨ old.overarm ≠ new.overarm))]
  ws.filter (·.2) ++ ws.filter fun w => !w.2

/-- The words of the live fields are written to the image (R348): those that changed, of a TCB the home holds the others after them, over whatever
was stored there; none where a write faults. -/
def State.writeBack (s : State) (ctx idx : Nat) (all : Bool) (old new : Task) : Except Cause State :=
  ((liveWords old new).filter fun w => all || w.2).foldlM (fun (s : State) w => do
    let v ← match w.1 with
      | 48 => pure new.depcnt.toNat
      | 68 => pure new.retired
      | _ => (s.tcbRead ctx idx 64 4).map fun x => new.status + x / 8 % 2 ^ 13 * 8 + new.overarm % 2 ^ 16 * 2 ^ 16
    s.tcbWrite ctx idx w.1 v) s


/-- The groups of a task's blocks exit, its unapplied film records and the stops of its paths go (R363, R448). -/
def State.terminate (s : State) (ctx idx : Nat) : State :=
  let bks := (s.taskBlocks ctx idx).map (·.1)
  let gks := (s.groups.filter fun e => bks.contains e.2.blk).map (·.1)
  let s1 := { s with films := s.films.filter fun r => !(r.ctx == ctx && r.task == idx), dev := s.dev.dropStops fun x => gks.contains x.gk }
  gks.foldl (fun s gk => s.exitGroup gk) s1

/-- Films bound to a task are bound no more (R220, R324). -/
def State.unbindFilms (s : State) (ctx idx : Nat) : State :=
  s.updCtx ctx fun c => { c with films := c.films.map fun e =>
    (e.1, if e.2.getLsbD 129 && (e.2.extractLsb' 160 32).toNat == idx then e.2 &&& ~~~(BitVec.ofNat 512 (2 ^ 129 + (2 ^ 32 - 1) * 2 ^ 160)) else e.2) }

/-- A task whose launch has a final status: the home holds it no longer; a final write-back that faults is reported (R348). -/
def State.release' (s : State) (ctx idx : Nat) (t : Task) (status : Nat) : State :=
  let s1 := { s.unbindFilms ctx idx with tasks := SMap.del s.tasks (taskKey ctx idx) }
  if t.kept then s1
  else match s1.writeBack ctx idx true t { t with status := status } with
    | .ok s2 => s2
    | .error c => s1.report 0 (checkRec ctx idx c.code 0)

/-- A launch that is ending has no block left: its final status is written (R363 step 5, R364). -/
def State.endIfEmpty (s : State) (ctx idx : Nat) : State :=
  match s.task ctx idx with
  | none => s
  | some t => if t.ending ≠ 0 && (s.taskBlocks ctx idx).isEmpty then s.release' ctx idx t (if t.ending = 1 then 5 else 6) else s

/-- The record at FAULTREC (R363 step 4). -/
def State.writeFaultRec (s : State) (ctx idx : Nat) (t : Task) (r : BitVec 512) : State :=
  if t.faultrec = 0 then s
  else match s.storeNow (homeAgent ctx) t.faultrec 64 r.toNat false with
    | .ok s1 => s1
    | .error c => s.report 0 (checkRec ctx idx c.1.code 0)

/-- A fatal fault (R363): the first ends the launch, later ones are counted in its record. The fault's own record is reported by whoever
met it. -/
def State.fatalFault (s : State) (ctx idx : Nat) (r : Rec) : State :=
  match s.task ctx idx with
  | none => s
  | some t =>
    if t.ending = 0 then
      let t1 := { t with ending := 1, fault := some r.bits }
      (((s.setTask ctx idx t1).terminate ctx idx).writeFaultRec ctx idx t1 r.bits).endIfEmpty ctx idx
    else
      match t.fault with
      | none => s
      | some b =>
        let t1 := { t with later := t.later + 1 }
        (s.setTask ctx idx t1).writeFaultRec ctx idx t1
          (b &&& ~~~(BitVec.ofNat 512 ((2 ^ 32 - 1) * 2 ^ 64)) ||| BitVec.ofNat 512 ((t.later + 1) % 2 ^ 32 * 2 ^ 64))

/-- A fatal fault with its record. -/
def State.fault (s : State) (core : Nat) (r : Rec) : State := (s.report core r).fatalFault r.ctx r.task r

/-- A change of a task's live fields, written back (R348); a write-back that faults is fatal. The home goes on holding what it held while the
launch lasts, and holds from now on an image that became WAITING or READY. -/
def State.putTask (s : State) (ctx idx : Nat) (old new : Task) : State :=
  let held := (s.task ctx idx).isSome
  let hold (s : State) (t : Task) : State :=
    if t.status = 1 || t.status = 2 || (t.status = 3 && held) then s.setTask ctx idx t else { s with tasks := SMap.del s.tasks (taskKey ctx idx) }
  if new.kept then hold s new
  else match s.writeBack ctx idx held old new with
    | .ok s1 => hold s1 new
    | .error c => (hold s { new with kept := true }).fault 0 (checkRec ctx idx c.code 0)

/-- The error a read of an image may find on its line is mended or recorded (R427). -/
def State.meetTcb (s : State) (ctx idx : Nat) : State :=
  if s.mem.latent.isEmpty || (s.task ctx idx).isSome then s
  else
    let va := (s.ctx ctx).tcbbase + 256 * idx
    match s.plainParts ctx .atomic va 128 with
    | .error _ => s.meetWalks (homeAgent ctx) .atomic va 128
    | .ok ps => ps.foldl (fun s p => (s.meetWord (some ctx) p.home p.len).1) (s.meetWalks (homeAgent ctx) .atomic va 128)

/-- Cancellation (R364); of an image that reads RUNNING and that the home does not hold nothing runs. -/
def State.cancel (s : State) (ctx idx : Nat) : State :=
  match s.tcb ctx idx with
  | .error _ => s
  | .ok t =>
    if t.status ≤ 2 || (t.status = 3 && (s.task ctx idx).isNone) then (s.putTask ctx idx t { t with status := 6 }).unbindFilms ctx idx
    else if t.status = 3 && t.ending = 0 then ((s.setTask ctx idx { t with ending := 2 }).terminate ctx idx).endIfEmpty ctx idx
    else s

/-! ### READY (R348, R349, R355) -/

/-- The checks of R349 on an image, but for the successor array. -/
def Task.imageOk (t : Task) : Bool :=
  let entry := t.f 0 64; let succ := t.f 448 56; let roles := t.f 256 32
  [(184, 8), (224, 32), (312, 8), (323, 5), (333, 19), (416, 32), (515, 13), (640, 384)].all (fun r => t.f r.1 r.2 == 0)
    && t.f 512 3 != 7 && entry % 4 == 0 && entry < 2 ^ 56 && succ % 2 == 0
    && t.nblk != 0 && 1 ≤ t.gpb && t.gpb ≤ 16 && t.clsz != 1 && t.clsz ≤ 24 && (t.clsz == 0 || t.nblk % t.clsz == 0)
    && 8 ≤ t.regs && t.regs ≤ 128 && t.regs % 8 == 0 && t.xregs ≤ 128 && t.xregs % 8 == 0 && t.spawn ≤ 4
    && t.gpb * t.regs + t.xregs ≤ 1024 && t.fsize ≤ 2 ^ 20 && roles / 4 ^ t.gpb == 0
    && (!t.gang || t.nblk * t.gpb ≤ 1152 * 32) && t.faultrec % 64 == 0 && t.faultrec < 2 ^ 56

/-- The image and its successors (R348, R349), or the cause of the first failing check. -/
def State.readImage (s : State) (ctx idx : Nat) (t : Task) : Except Cause Task := do
  let d ← s.tcbRead ctx idx 0 128
  let t := { t with desc := BitVec.ofNat 1024 d }
  let n := t.f 504 8
  let x ← if n = 0 then pure 0 else match s.loadNow (homeAgent ctx) (t.f 448 56) (2 * n) with | .error e => throw e.1 | .ok y => pure y.1
  let succ := (List.range n).map fun i => x / 2 ^ (16 * i) % 2 ^ 16
  if t.imageOk && succ.all (· < (s.ctx ctx).tcbcnt) then pure { t with succ := succ } else throw .task

/-- A task becomes READY (R349, R350, R355): its counters start afresh, its image is read and checked, and it joins its queue; the caches
of its context are invalidated (R38, R315, R393, R396). -/
def State.makeReady (s : State) (ctx idx : Nat) (old t : Task) : State :=
  let img := s.readImage ctx idx t
  let s := { s.updCtx ctx fun c => { c with netCopies := c.netCopies.filter fun e => e.2.1 } with codeWas := s.codeWas.filter fun w => w.1 != ctx }
  let t := { t with status := 2, retired := 0, overarm := 0, queued := s.clock * 65536 + idx, since := s.clock, placed := 0, pfx := 0, done := [],
                    reserving := none, ending := 0, fault := none, later := 0 }
  match img with
  | .ok i => s.putTask ctx idx old { t with desc := i.desc, succ := i.succ }
  | .error c =>
    let d := match s.tcbRead ctx idx 0 128 with | .ok d => BitVec.ofNat 1024 d | .error _ => 0
    let s1 := s.putTask ctx idx old { t with desc := d &&& ~~~(if (d.extractLsb' 576 6).toNat = 0 && (d.extractLsb' 632 8).toNat = 0 then 0
                                                              else BitVec.ofNat 1024 ((2 ^ 64 - 1) * 2 ^ 576)) }
    s1.fault 0 (checkRec ctx idx c.code 0)

/-! ### Arms (R236, R351 to R354) -/

/-- One arm from a source (0 successor, 1 TARM, 2 trigger, 3 host), with the DEPCNT before it, which a host receives. -/
def State.arm (s : State) (ctx idx src core : Nat) : Int × State :=
  let s := s.meetTcb ctx idx
  match s.tcb ctx idx with
  | .error c =>
    (0, (s.updCtx ctx fun x => { x with ignored := min (x.ignored + 1) (2 ^ 32 - 1) }).report core (checkRec ctx idx c.code idx))
  | .ok t =>
    if (4 ≤ t.status ∧ t.status ≤ 6) ∨ t.depcnt.toInt ≤ 0 then
      let s1 := s.putTask ctx idx t { t with overarm := min (t.overarm + 1) 65535 }
      let r : Rec := { Rec.empty with kind := 3, ctx := ctx, task := idx, aux := BitVec.ofNat 64 (t.depcnt.toNat * 2 ^ 32 + src) }
      (t.depcnt.toInt, if t.overarm = 0 then s1.report core r else s1)
    else if t.depcnt = 1 then
      (1, if t.status ≤ 1 then s.makeReady ctx idx t { t with depcnt := 0 } else s.putTask ctx idx t { t with depcnt := 0 })
    else (t.depcnt.toInt, s.putTask ctx idx t { t with depcnt := t.depcnt - 1, status := if t.status = 0 then 1 else t.status })

/-- An arm that names no TCB, or a request that is none (R352, R417): counted. -/
def State.ignoreArm (s : State) (ctx : Nat) : State := s.updCtx ctx fun c => { c with ignored := min (c.ignored + 1) (2 ^ 32 - 1) }

/-- TRESET's effect (R237), or TASK. -/
def State.taskReset (s : State) (ctx idx me : Nat) (n : Word) : Except Cause State :=
  let s := s.meetTcb ctx idx
  if n.toInt < 0 then .error .task
  else match s.tcb ctx idx with
    | .error c => .ok (s.report 0 (checkRec ctx idx c.code idx))
    | .ok t =>
      if t.status = 2 ∨ t.status = 3 ∨ t.status = 7 ∨ idx = me then .error .task
      else
        let t1 := { t with depcnt := n, retired := 0, overarm := 0 }
        .ok (if n = 0 then s.makeReady ctx idx t t1 else s.putTask ctx idx t { t1 with status := 1 })

/-! ### DONE (R353, R362) -/

/-- A sync pulse queued at DONE (R418). -/
def State.syncMark (s : State) : State :=
  let d := s.dev
  { s with dev := if d.syncpend < 65535 then { d with syncpend := d.syncpend + 1 } else { d with synclost := min (d.synclost + 1) 65535 } }

/-! ### The arms of a clock (R351) -/

/-- An arm reaches the home: it is applied at the end of the clock, in the order of R351. -/
def State.armLater (s : State) (a : Arm) : State := { s with arms := s.arms ++ [a] }

/-- The arm applied next: TARMs in ascending core and issue order, then trigger edges in ascending input, then host AtomicOps in arrival order. -/
def State.firstArm (s : State) : Option Arm :=
  s.arms.foldl (fun (b : Option Arm) a => match b with | none => some a | some x => if a.rank < x.rank then some a else some x) none

/-- The answer a host's AtomicOp waits for. -/
def Arm.reply (a : Arm) (x : Int) (d : Dev) : Dev := if a.bits = 0 then d else { d with reply := ((x % (2 : Int) ^ a.bits).toNat, false, false) }

/-- The arms of a clock, one at a time (R351); once all are applied nothing is left. -/
def State.armNow (s : State) : Option State :=
  s.firstArm.map fun a =>
    let s1 : State := { s with arms := s.arms.erase a }
    if (s1.ctx a.ctx).tcbcnt ≤ a.idx then s1.ignoreArm a.ctx
    else let (x, s2) := s1.arm a.ctx a.idx a.src a.core; { s2 with dev := a.reply x s2.dev }

/-- Whether a RUNNING task has met R362. -/
def State.taskMet (s : State) (ctx idx : Nat) : Bool :=
  match s.task ctx idx with
  | none => false
  | some t => t.status == 3 && t.ending == 0 && t.retired == t.nblk
      && s.films.all (fun r => !(r.ctx == ctx && r.task == idx)) && s.treeReqs.all fun r => !(r.ctx == ctx && r.task == idx)

/-- A task becomes DONE: written back, the pulse, its successors armed in list order (R353, R362); a write-back that faults is a fatal fault of the
launch, which then arms none (R348, R363). -/
def State.taskDone (s : State) (ctx idx : Nat) : State :=
  match s.task ctx idx with
  | none => s
  | some t =>
    match if t.kept then .ok s else s.writeBack ctx idx true t { t with status := 4 } with
    | .error c => (s.setTask ctx idx { t with kept := true }).fault 0 (checkRec ctx idx c.code 0)
    | .ok s0 =>
      let s1 := { s0.unbindFilms ctx idx with tasks := SMap.del s0.tasks (taskKey ctx idx) }
      let s2 := if t.markAtDone then s1.syncMark else s1
      t.succ.foldl (fun s i => (s.arm ctx i 0 0).2) s2

end Sys2Proof.Machine
end

