-- ==== Sys2Proof/Machine/Frames.lean ====
section
/-! DEFINITION. The save area (R249, R370): what is written to a block's frame and read back, and the tiles that pass between holders of the
lease (R189). -/
namespace Sys2Proof.Machine
open Sys2Proof

def State.mx (s : State) (core : Nat) : Matrix := (s.core core).mx
def State.updMx (s : State) (core : Nat) (f : Matrix → Matrix) : State := s.updCore core fun c => { c with mx := f c.mx }

/-! ### Frames -/

/-- n bytes of the save area read back; none where they cannot be (R370). -/
def State.frameRead (s : State) (ag : Agent) (va n : Nat) : Option (Nat × Bool × State) :=
  (s.frameParts ag .read va n).map fun ps => s.readHomes (some ag.ctx) ps

/-- Such an area is read back: whether it holds what was saved there; if not, a program has written the frame, and what it held is an
unspecified value (R370). None where it cannot be read. -/
def State.openBack (s : State) (bk off n : Nat) : Option (Bool × State) :=
  match s.blk bk with
  | none => none
  | some b => (s.frameRead (b.saver bk) (s.frameVA b off) n).map fun r => (!r.2.1 && SMap.find? b.images off == some r.1, r.2.2)

/-- A write to a frame failed: the live paths of the groups it was for trap SPILL_FAULT (R248, R370). -/
def State.saveFailed (s : State) (gks : List Nat) : State :=
  gks.foldl (fun (s : State) gk =>
    match s.grp gk with
    | none => s
    | some g => ((List.range 8).filter fun i => (g.path i).st == .live).foldl
        (fun (s : State) i => s.trapEntry gk i (trap .spillFault) (g.path i).mask noVa) s) s

/-- The groups of a block that are on their core. -/
def State.residentOf (s : State) (bk : Nat) : List Nat := ((s.groupsOf bk).filter fun e => e.2.resident).map (·.1)

/-- A record of the spill area or a group's area cannot be read back: the task ends FAULTED (R248, R380). -/
def State.restoreFault (s : State) (g : Grp) (b : Blk) (va : Nat) : State :=
  s.fault b.core { recOf g b with kind := 6, cause := Cause.spillFault.code, va := va }

/-- A block's part of its frame cannot be read back: the task ends FAULTED with a SPILL_FAULT record (R248, R370). -/
def State.frameFault (s : State) (bk off : Nat) : State :=
  match s.blk bk with
  | none => s
  | some b => s.fault b.core
      { Rec.empty with kind := 6, ctx := b.ctx, task := b.task, bid := b.bid, core := b.core, cause := Cause.spillFault.code, va := s.frameVA b off }

/-! ### Tiles (R189) -/

/-- A table of a list's entries. -/
def tableOf {α : Type} [DecidableEq α] (d : α) (l : List α) : SMap α :=
  (l.zipIdx).filterMap fun x => if x.1 = d then none else some (x.2, x.1)

/-- A cleared row (R181). -/
def MRow.clear : MRow := ⟨0, false, 0, [], [], [], []⟩
def Bank.row (b : Bank) (r : Nat) : MRow := SMap.get MRow.clear b.rows r
def Bank.setRow (b : Bank) (r : Nat) (x : MRow) : Bank := { b with rows := SMap.set MRow.clear b.rows r x }

/-- A row that holds unspecified values: its state and marks as well as its words. -/
def State.freeRow (s : State) : MRow × State :=
  let bits (k : Nat) : BitVec 512 := Config.freeValue (s.free + k)
  let marks (k : Nat) : List Bool := (List.range 512).map fun j => (bits k).getLsbD j
  ({ mode := (bits 64).toNat % 12, set := (bits 64).getLsbD 64, x := ((bits 64).extractLsb' 65 32).toInt
     words := tableOf 0 ((List.range 512).map fun k => (bits (k / 8)).extractLsb' (64 * (k % 8)) 64)
     lost := tableOf false (marks 65), poison := tableOf false (marks 66)
     spec := tableOf 0 ((List.range 512).map fun j => (bits (67 + j / 128)).toNat / 2 ^ (4 * (j % 128)) % 16) }, { s with free := s.free + 71 })

/-- A bank whose rows and tokens are unspecified. -/
def State.freeBank (s : State) : Bank × State :=
  let (t, s1) := s.draw
  (List.range 32).foldl (fun (acc : Bank × State) r => let (x, s2) := acc.2.freeRow; (acc.1.setRow r x, s2)) (⟨[], t.toNat % 5⟩, s1)

/-- The tiles, row states and tokens in the accumulators go to their holder's frame (R189, R370). -/
def State.tilesOut (s : State) (core : Nat) : State :=
  let m := s.mx core
  match m.prev with
  | none => s
  | some p =>
    let s1 := (s.updBlk p fun b => { b with tiles := some (m.bank0, m.bank1) }).updMx core fun m => { m with prev := none }
    if (s1.blk p).isNone then s1
    else match s1.saveOpen p 0x110000 0x50000 with
      | some s2 => s2
      | none => (s1.updBlk p fun b => { b with images := SMap.del b.images 0x110000 }).saveFailed (s1.residentOf p)

/-- A block's own tiles come into the accumulators, cleared the first time (R189). -/
def State.tilesIn (s : State) (core bk : Nat) : State :=
  let take (s : State) (x : Bank × Bank) : State :=
    (s.updBlk bk fun b => { b with tiles := none }).updMx core fun m => { m with bank0 := x.1, bank1 := x.2, prev := some bk }
  match (s.blk bk).bind (·.tiles) with
  | none => take s (⟨[], 0⟩, ⟨[], 0⟩)
  | some own =>
    match s.openBack bk 0x110000 0x50000 with
    | none => (take s own).frameFault bk 0x110000
    | some (true, s1) => take s1 own
    | some (false, s1) => let (x, s2) := s1.freeBank; let (y, s3) := s2.freeBank; take s3 (x, y)

/-- The tiles change hands (R189): the previous holder's go to its frame, the new holder's own come back. -/
def State.handOver (s : State) (core bk : Nat) : State := if (s.mx core).prev == some bk then s else (s.tilesOut core).tilesIn core bk

end Sys2Proof.Machine
end

