-- ==== Sys2Proof/Machine/Matrix.lean ====
section
/-! DEFINITION. The matrix engine's and Chorus's instructions (R180 to R206): leases, BLD, MMAS, MEMIT, OPRDY, MSYNC, MRD, MWR, MMAQ and
NEVAL, up to their acceptance. What the engine does with accepted commands is in Machine/MatrixEngine.lean. -/
namespace Sys2Proof.Machine
open Sys2Proof Host

def Matrix.bank (m : Matrix) (b : Nat) : Bank := if b = 0 then m.bank0 else m.bank1
def Matrix.setBank (m : Matrix) (b : Nat) (x : Bank) : Matrix := if b = 0 then { m with bank0 := x } else { m with bank1 := x }

/-! ### Leases (R187 to R189) -/

/-- LEASE (R187): the grant or the claim, and the predicate as a fixed-latency result. -/
def execLease (stl : BitVec 3) (k : BitVec 1) (p : BitVec 3) (a : BitVec 7) (s : State) : Outcome State Fault Refusal :=
  let i : Instr := .lease stl k p a
  issueWith i (fun e =>
    if e.b.lease = 0 then .next (e.trapAll (trap .task))
    else if (e.uni a).poison then .next (e.trapAll (trap .poison))
    else
      let bk := e.g.blk
      let m := s.mx e.b.core
      let x := (e.uni a).val.toNat
      let n := min (min (if x = 0 then e.b.lease else x) e.b.lease) (2 ^ 24 - 1)
      let mine := m.claim.isNone || m.claim == some bk
      let grant := (m.holder.isNone || m.holder == some bk) && mine
      let s1 := if grant
        then (s.handOver e.b.core bk).updMx e.b.core fun m => { m with holder := some bk, budget := n, drain := false, claim := none }
        else s.updMx e.b.core fun m => { m with claim := if m.claim.isNone then some bk else m.claim }
      let fix : FixRes :=
        { ready := s.clock + 2, mask := e.p.mask, vw := [], sw := [], pw := [], xw := [], flags := 0, spec := none
          qw := if k = 1 then [] else [(p.toNat, grant)] }
      .next (e.finish i (e.nextPc i) [] (s1.addFix e.gk fix))) s

/-- LREL by a block (R187). -/
def State.leaseRelease (s : State) (core bk : Nat) : State :=
  s.updMx core fun m => if m.holder == some bk then { m with drain := true } else if m.claim == some bk then { m with claim := none } else m
/-- LREL (R187). -/
def execLrel (stl : BitVec 3) (s : State) : Outcome State Fault Refusal :=
  issueEffect (.lrel stl) (fun e => .ok (s.leaseRelease e.b.core e.g.blk)) s

/-- LEASEST as the block reads it (R188). -/
def leaseStatus (m : Matrix) (bk : Nat) : Word :=
  let held := m.holder == some bk
  BitVec.ofNat 32 ((if held then 2 ^ 31 + (if m.drain then 2 ^ 30 else 0) + m.budget % 2 ^ 24 else 0)
    + (if m.claim == some bk then 2 ^ 29 else 0))

/-- The lease rule for a command that needs it (R187): MMAS also needs the lease out of DRAIN. -/
def Env.leaseTrap (e : Env) (mmas : Bool) : Option Trap :=
  let m := e.s.mx e.b.core
  if m.holder != some e.g.blk || (mmas && m.drain) then some (trap .leaseNone) else none

/-! ### Command blocks (R182, R186, R191) -/

/-- The s registers of a command block, and whether one is poisoned. -/
def Env.block (e : Env) (a : BitVec 7) (n : Nat) : List Word × Bool :=
  let rs := (List.range n).map fun i => e.sreg (a.toNat + i)
  (rs.map (·.val), rs.any (·.poison))
/-- A 64-bit value from words i and i + 1. -/
def word64 (ws : List Word) (i : Nat) : Nat := (ws.getD i 0).toNat + 2 ^ 32 * (ws.getD (i + 1) 0).toNat

/-- A record of n bytes an instruction reads at issue (R182, R186): aligned, readable, not poisoned. -/
def Env.readRecord (e : Env) (va n : Nat) : Except (Trap × Nat) Nat :=
  if va % n ≠ 0 then .error (trap .misalign, va)
  else match e.s.loadNow (e.g.agent e.b) va n with
    | .error (c, at') => .error (trap c, at')
    | .ok (_, true) => .error (trap .poison, va)
    | .ok (x, false) => .ok x

/-- A command as accepted. -/
def Env.command (e : Env) (kind : MKind) : MCmd :=
  { id := e.s.seq, gk := e.gk, bk := e.g.blk, kind := kind, slot := 0, bank := 0, clr := false, rdy := false, alt := false, base := 0
    fmt := 0, layout := 0, ctl := 0, aux := [], data := [], qrows := [], fill := [], flags := 0, fail := 0, st := 0, until' := 0 }

/-- A command is accepted (R190). -/
def State.accept (s : State) (core : Nat) (c : MCmd) : State :=
  { s.updMx core fun m => { m with cmds := m.cmds ++ [c] } with seq := s.seq + 1 }

/-- A uniform matrix command: its checks give the command, or a trap for all threads. -/
def issueCommand (i : Instr) (body : Env → Except (Trap × Nat) (MCmd × State)) (s : State) : Outcome State Fault Refusal :=
  issueWith i (fun e => match body e with
    | .error (t, va) => .next (e.trapAll t va)
    | .ok (c, s1) => .next (e.finish i (e.nextPc i) [] (s1.accept e.b.core c))) s

def illop : Trap × Nat := (trap .illop, noVa)

/-- BLD (R191, R192): the checks and the acceptance. -/
def execBld (stl : BitVec 3) (n a : BitVec 7) (s : State) : Outcome State Fault Refusal :=
  issueCommand (.bld stl n a) (fun e => do
    let (ws, z) := e.block a 8
    if z then throw (trap .poison, noVa)
    let f ← e.readRecord (word64 ws 2) 16
    let r ← e.readRecord (word64 ws 4) 32
    let fmt := BitVec.ofNat 128 f; let layout := BitVec.ofNat 256 r
    let ha := halfA fmt; let hb := halfB fmt
    let m := modeOf ha hb
    let ctl := ws.getD 6 0
    let k := (ctl.extractLsb' 0 12).toNat + 1; let cols := (ctl.extractLsb' 12 10).toNat + 1
    let ks := if hb.sparse = 0 then k else k * hb.sparse / 128
    if !ha.legal false || !hb.legal true || m == 0 || ctl.extractLsb' 22 10 != 0 || 2048 < k || modeCols m < cols then throw illop
    if (hb.sparse ≠ 0 ∧ k % 128 ≠ 0) ∨ 512 < (ks + modeV m - 1) / modeV m ∨ 512 < cols * modeC m then throw illop
    if (genElems (word64 ws 0) layout hb.elem.bits (ks * cols)).isNone then throw illop
    pure ({ e.command .bld with slot := n.toNat, bank := 2, base := word64 ws 0, fmt := fmt, layout := layout, ctl := ctl, aux := [(ws.getD 7 0).toNat] }, s)) s

/-- MMAS (R191, R193): the checks and the acceptance. -/
def execMmas (stl : BitVec 3) (rdy clr bank : BitVec 1) (slot : BitVec 4) (a : BitVec 7) (s : State) : Outcome State Fault Refusal :=
  issueCommand (.mmas stl rdy clr bank slot a) (fun e => do
    let (ws, z) := e.block a 7
    if z then throw (trap .poison, noVa)
    if let some t := e.leaseTrap true then throw (t, noVa)
    match (s.mx e.b.core).seen e.g.blk slot.toNat with
    | none => throw (trap .access, noVa)
    | some x =>
      let f ← e.readRecord (word64 ws 2) 16
      let r ← e.readRecord (word64 ws 4) 32
      let fmt := BitVec.ofNat 128 f; let layout := BitVec.ofNat 256 r
      let ha := halfA fmt
      let ctl := ws.getD 6 0
      let rows := (ctl.extractLsb' 0 5).toNat + 1
      if !ha.legal false || !(halfB fmt).legal true || modeOf ha (halfB x.fmt) == 0 || ctl.extractLsb' 5 27 != 0 then throw illop
      if (genElems (word64 ws 0) layout ha.elem.bits (rows * x.k)).isNone then throw illop
      let s1 := s.updMx e.b.core fun m => { m with budget := m.budget - 1, drain := m.drain || m.budget ≤ 1 }
      pure ({ e.command .mmas with slot := slot.toNat, bank := bank.toNat, clr := clr == 1, rdy := rdy == 1, base := word64 ws 0,
                                   fmt := fmt, layout := layout, ctl := ctl }, s1)) s

/-- The formats MEMIT may name (R191). -/
def emitFmt (c : Nat) : Option Fmt := if c = 7 ∨ 13 ≤ c then none else Fmt.ofCode c true

/-- MEMIT (R191, R196): the checks and the acceptance; SR numbers are taken now. -/
def execMemit (stl : BitVec 3) (k a : BitVec 7) (s : State) : Outcome State Fault Refusal :=
  issueCommand (.memit stl k a) (fun e => do
    let (ws, z) := e.block a 5
    if z then throw (trap .poison, noVa)
    if let some t := e.leaseTrap false then throw (t, noVa)
    let ctl := ws.getD 4 0
    let nc := (ctl.extractLsb' 13 10).toNat + 1; let rows := (ctl.extractLsb' 7 5).toNat + 1
    let rm := (ctl.extractLsb' 4 3).toNat
    match emitFmt (ctl.extractLsb' 0 4).toNat with
    | none => throw illop
    | some f =>
      let r ← e.readRecord (word64 ws 2) 32
      let layout := BitVec.ofNat 256 r
      if ctl.extractLsb' 23 9 != 0 || rm == 7 || (genElems (word64 ws 0) layout f.bits (rows * nc)).isNone then throw illop
      let mode := if rm = 6 then (e.g.rmode.extractLsb' 0 3).toNat else rm
      let s1 := if mode = 5 then s.updGrp e.gk fun g => { g with srn := SMap.upd 0 g.srn 127 (· + BitVec.ofNat 32 (rows * nc)) } else s
      pure ({ e.command .memit with bank := k.toNat, clr := ctl.getLsbD 12, base := word64 ws 0, layout := layout, ctl := ctl,
                                    aux := [mode, e.g.srSeq 127, e.b.task * 2 ^ 16 + (e.g.rmode.extractLsb' 16 16).toNat, e.b.bid, e.g.gix] }, s1)) s

/-- The release an instruction makes: its effect comes once the path's earlier accesses are performed (R282). -/
def Env.release (e : Env) (s : State) (k : ActKind) : State :=
  { s with seq := s.seq + 1, acts := s.acts ++ [⟨s.seq, e.gk, e.p.mask, e.g.blk, e.b.core, k⟩] }

/-- OPRDY (R194). -/
def execOprdy (stl : BitVec 3) (bank : BitVec 1) (s : State) : Outcome State Fault Refusal :=
  issueEffect (.oprdy stl bank) (fun e =>
    match e.leaseTrap false with
    | some t => .error t
    | none => .ok (e.release s (.oprdy e.g.blk bank.toNat))) s

/-- A token more, in the accumulators or, while another block has them, among the block's saved tiles (R189, R194). -/
def State.addToken (s : State) (core bk bank : Nat) : State :=
  let more (b : Bank) : Bank := { b with tokens := min (b.tokens + 1) 4 }
  if (s.mx core).prev == some bk then s.updMx core fun m => m.setBank bank (more (m.bank bank))
  else s.updBlk bk fun b => { b with tiles := b.tiles.map fun t => if bank = 0 then (more t.1, t.2) else (t.1, more t.2) }

/-! ### MSYNC (R195) -/

/-- Whether the commands of its block an MSYNC of a bank waits for, those numbered below `upto`, have completed (R195). -/
def Matrix.synced (m : Matrix) (bk bank upto : Nat) : Bool :=
  !m.cmds.any fun c => c.bk == bk && decide (c.id < upto) && (c.kind == .bld || (c.bank == bank && (c.kind == .mmas || c.kind == .memit || c.kind == .mwr)))

/-- What an MSYNC delivers once its commands, those numbered below `upto`, have completed: the flags of the group's commands, and the trap of
the oldest failure not yet reported (R195). Further failures that it covers are not reported again (DESIGN CHOICE, log entry 100). -/
def State.syncDone (s : State) (gk bank upto : Nat) : Option Trap × State :=
  match s.grp gk with
  | none => (none, s)
  | some g =>
    match s.blk g.blk with
    | none => (none, s)
    | some b =>
      let covers (d : MDone) : Bool := (d.bank == 2 || d.bank == bank) && decide (d.id < upto)
      let fl := (b.mdones.filter fun d => covers d && d.gk == gk).foldl (fun f d => f ||| d.flags) (0 : BitVec 6)
      let keep (d : MDone) : Option MDone :=
        if !covers d then some d
        else if d.gk == gk then none
        else some { d with cause := 0 }
      let bad := (b.mdones.filter fun d => covers d && d.cause != 0).foldl (fun (x : Option MDone) d =>
        match x with | none => some d | some y => if y.id ≤ d.id then some y else some d) none
      let s1 := (s.updBlk g.blk fun b => { b with mdones := b.mdones.filterMap keep }).updGrp gk fun g => { g with flags := g.flags ||| fl.setWidth 14 }
      (bad.map fun d => ⟨d.cause, d.kind * 2 ^ 12 + d.num * 2 ^ 8⟩, s1)

/-- MSYNC (R195): parks until its commands are done. -/
def execMsync (stl : BitVec 3) (bank : BitVec 1) (s : State) : Outcome State Fault Refusal :=
  let i : Instr := .msync stl bank
  issueWith i (fun e =>
    if (s.mx e.b.core).synced e.g.blk bank.toNat s.seq then
      match s.syncDone e.gk bank.toNat s.seq with
      | (some t, s1) => .next (s1.trapEntry e.gk e.pi t e.p.mask noVa)
      | (none, s1) => .next (e.finish i (e.nextPc i) [] s1)
    else .next (e.park i (.msync bank.toNat s.seq) s)) s

/-! ### MRD and MWR (R197) -/

/-- MRD (R197): the destinations are pending until the port is reached. -/
def execMrd (stl : BitVec 3) (d b : BitVec 7) (tile : BitVec 4) (col : BitVec 6) (row : BitVec 5) (s : State) : Outcome State Fault Refusal :=
  let i : Instr := .mrd stl d b tile col row
  issueWith i (fun e =>
    match e.leaseTrap false with
    | some t => .next (e.trapAll t)
    | none =>
      let dest := 2 * e.g.num d
      let c := { e.command .mrd with bank := tile.toNat / 8, alt := b == 1, aux := [tile.toNat, col.toNat, row.toNat, dest],
                                     data := (threadsOf e.p.mask).map fun t => (t, 0, false) }
      let s1 := s.updGrp e.gk fun g =>
        let g := e.seeChorus i g
        { g with pend := g.pend ++ [⟨.v dest, e.p.mask, c.id, .other⟩, ⟨.v (dest + 1), e.p.mask, c.id, .other⟩] }
      .next (e.finish i (e.nextPc i) [] (s1.accept e.b.core c))) s

/-- MWR (R197). -/
def execMwr (stl : BitVec 3) (d b : BitVec 7) (tile : BitVec 4) (col : BitVec 6) (row : BitVec 5) (s : State) : Outcome State Fault Refusal :=
  let i : Instr := .mwr stl d b tile col row
  issueWith i (fun e =>
    match e.leaseTrap false with
    | some t => .next (e.trapAll t)
    | none =>
      let fails : Fails := (threadsOf e.p.mask).filterMap fun t => (e.deferred i t).map fun tr => (t, tr, noVa)
      let ts := (threadsOf e.p.mask).filter fun t => (e.deferred i t).isNone
      let c := { e.command .mwr with bank := tile.toNat / 8, alt := b == 1, aux := [tile.toNat, col.toNat, row.toNat],
                                     data := ts.map fun t => (t, (e.pair d t).1, (e.pair d t).2) }
      let s1 := s.updGrp e.gk (e.seeFails i fails)
      .next (e.finish i (e.nextPc i) fails (if ts.isEmpty then s1 else s1.accept e.b.core c))) s

/-! ### MMAQ (R199 to R201) -/

/-- Element k of a thread's packed span (R72, R199). -/
def spanElem (rs : List Word) (bits k : Nat) : Nat :=
  let x := rs.foldr (fun (r : Word) (n : Nat) => r.toNat + 2 ^ 32 * n) 0
  x / 2 ^ (bits * k) % 2 ^ bits

/-- The quarters with an active thread (R201). -/
def activeQuarters (m : Mask) : List Nat := (List.range 12).filter fun q => (threadsOf m).any fun t => t / 8 == q

/-- Lists of at most four. -/
def fours : List Nat → List (List Nat)
  | a :: b :: c :: d :: r => [a, b, c, d] :: fours r
  | [] => []
  | l => [l]

/-- MMAQ (R199): the checks, and its passes accepted in ascending quarter order (R302). -/
def execMmaq (stl : BitVec 3) (d a b : BitVec 7) (slot : BitVec 4) (km : BitVec 6) (nm : BitVec 4) (win : BitVec 5) (s : State) :
    Outcome State Fault Refusal :=
  let i : Instr := .mmaq stl d a b slot km nm win
  issueWith i (fun e =>
    let k := km.toNat + 1; let n := nm.toNat + 1
    match (s.mx e.b.core).seen e.g.blk slot.toNat with
    | none => .next (e.trapAll (trap .access))
    | some x =>
      if x.st = 3 ∨ x.mode = 8 ∨ (halfB x.fmt).spn ≠ 0 ∨ x.k < k ∨ x.n < 16 * win.toNat + n then .next (e.trapAll (trap .access))
      else
        let fails : Fails := (threadsOf e.p.mask).filterMap fun t => (e.deferred i t).map fun tr => (t, tr, noVa)
        let ts := (threadsOf e.p.mask).filter fun t => (e.deferred i t).isNone
        let bits := (halfA x.fmt).elem.bits
        let span := (k * bits + 31) / 32
        let dest := e.g.num d
        let row (t : Nat) : QRow :=
          let rs := (List.range span).map fun j => e.v (e.g.num a + j) t
          { thread := t, elems := (List.range k).map (spanElem (rs.map (·.val)) bits), poison := rs.any (·.poison)
            acc := if b = 1 then (List.range n).map fun j => e.v (dest + j) t else [] }
        let mode := (e.g.rmode.extractLsb' 0 3).toNat
        let pass (j : Nat) (qs : List Nat) : MCmd :=
          { e.command .mmaq with
            id := s.seq + j, slot := slot.toNat, bank := 3, alt := b == 1, aux := [win.toNat, dest, n, 8 * qs.length, mode, s.clock + 3]
            qrows := (ts.filter fun t => qs.contains (t / 8)).map row }
        let qss := fours (activeQuarters (maskOf ts))
        let passes := (List.range qss.length).map fun j => pass j (qss.getD j [])
        let marks := passes.flatMap fun c => (List.range n).map fun j =>
          (⟨.v (dest + j), maskOf (c.qrows.map (·.thread)), c.id, .other⟩ : Pend)
        let s1 := s.updGrp e.gk fun g => let g := e.seeFails i fails g; { g with pend := g.pend ++ marks }
        .next (e.finish i (e.nextPc i) fails (passes.foldl (fun s c => s.accept e.b.core c) s1))) s

/-! ### NEVAL (R202, R307, R308) -/

/-- The key that orders the rows of a tile: TASK, BID, GIX, TIX (R308). -/
def CRow.key (r : CRow) : Nat := ((r.task * 2 ^ 32 + r.bid) * 16 + r.gix) * 128 + r.thread

/-- A tile closes (R308): its rows stand in order of their keys, and it may start its first layer three clocks later (R299). -/
def CTile.close (now : Nat) (t : CTile) : CTile :=
  if t.st = 0 then { t with st := 1, ready := now + 3, rows := t.rows.insertionSort fun a b => a.key ≤ b.key } else t

/-- A row enters the open tile of its context and handle, which closes at 32 rows; the context's window opens if none is open (R307,
R308); a window of 0 closes in the same clock. -/
def State.chorusEnter (s : State) (core ctx handle : Nat) (r : CRow) : State :=
  let m := s.mx core
  let w := ((s.ctx ctx).desc.extractLsb' 496 8).toNat
  let windows := if (SMap.find? m.windows ctx).isSome then m.windows else SMap.put m.windows ctx (s.clock + w)
  let isOpen (t : CTile) : Bool := t.ctx == ctx && t.handle == handle && t.st == 0
  let add (t : CTile) : CTile :=
    if isOpen t then let t := { t with rows := t.rows ++ [r] }; if t.rows.length = 32 then t.close s.clock else t else t
  let tiles := if m.tiles.any isOpen then m.tiles.map add
    else m.tiles ++ [{ id := s.seq, ctx := ctx, handle := handle, rows := [r], accepted := s.clock, st := 0, layer := 0, ready := 0 }]
  { (s.count core 21 1).updMx core fun m => { m with windows := windows, tiles := tiles } with seq := s.seq + 1 }

/-- NEVAL (R202). -/
def execNeval (stl : BitVec 3) (d a b : BitVec 7) (nin nout : BitVec 6) (s : State) : Outcome State Fault Refusal :=
  let i : Instr := .neval stl d a b nin nout
  issueWith i (fun e =>
    let ni := nin.toNat + 1; let no := nout.toNat + 1
    let ag := e.g.agent e.b
    let handles := ((threadsOf e.p.mask).map fun t => (e.vec b t).val.toNat).eraseDups
    let s0 := handles.foldl (fun s h => (s.network ag h).2) s
    let valid (h : Nat) : Bool := match (s0.network ag h).1 with | some (x, _) => x.k 0 == ni && x.outs == no | none => false
    let check (t : Nat) : Option Trap :=
      (e.deferred i t).or (if (e.vec b t).poison then some (trap .poison)
        else if valid (e.vec b t).val.toNat then none else some (trap .nevalHandle))
    let fails : Fails := (threadsOf e.p.mask).filterMap fun t => (check t).map fun tr => (t, tr, noVa)
    let ts := (threadsOf e.p.mask).filter fun t => (check t).isNone
    let id := s.seq
    let dest := e.g.num d
    let row (t : Nat) : CRow :=
      let xs := (List.range ni).map fun j => e.span a 1 j t
      { neval := id, gk := e.gk, task := e.b.task, bid := e.b.bid, gix := e.g.gix, thread := t, xs := xs.map (·.val.toNat)
        poison := xs.any (·.poison), dest := dest, flags := 0 }
    let marks := (List.range no).map fun j => (⟨.v (dest + j), maskOf ts, id, .engine⟩ : Pend)
    let s1 := { s0.updGrp e.gk fun g => let g := e.seeFails i fails g; { g with pend := if ts.isEmpty then g.pend else g.pend ++ marks } with seq := s.seq + 1 }
    .next (e.finish i (e.nextPc i) fails
      (ts.foldl (fun s t => s.chorusEnter e.b.core e.b.ctx (e.vec b t).val.toNat (row t)) s1))) s

end Sys2Proof.Machine
end

