-- ==== Sys2Proof/Machine/MatrixEngine.lean ====
section
/-! DEFINITION. What the matrix engine and Chorus do with accepted commands (R187 to R206, R299 to R311): loads and evictions of slots,
fills, the choice of passes and their results, MEMIT and the accumulator port, restores, lease changes, gather windows, tiles, handle
loads. Each event names what it acts on in `State.subject`; one that is not due changes nothing. -/
namespace Sys2Proof.Machine
open Sys2Proof Host

/-- Argument k of the event taking place. -/
def State.arg (s : State) (k : Nat) : Nat := s.subject.getD k 0

/-! ### Reading operands -/

/-- The agent of a block's engine commands. -/
def State.blockAgent (s : State) (bk : Nat) : Agent := match s.blk bk with | some b => ⟨b.ctx, b.core, bk⟩ | none => homeAgent 64

/-- n bytes at a virtual address read by an engine, with poison, errors found and free values as R430 has them. -/
def State.readVa (s : State) (ag : Agent) (va : Int) (n : Nat) : Except (Cause × Nat) (Nat × Bool × State) :=
  match s.resolve ag .read (va % 2 ^ 64).toNat n with
  | .error e => .error e
  | .ok ps => .ok ((s.meetWalks ag .read (va % 2 ^ 64).toNat n).readHomes (some ag.ctx) ps)

/-- The same, with the poison of each byte. -/
def State.readVaMarked (s : State) (ag : Agent) (va : Int) (n : Nat) : Except (Cause × Nat) (Nat × List Bool × State) :=
  match s.resolve ag .read (va % 2 ^ 64).toNat n with
  | .error e => .error e
  | .ok ps => .ok ((s.meetWalks ag .read (va % 2 ^ 64).toNat n).readMarked (some ag.ctx) ps)

/-- Elements of `bits` bits at byte addresses and bits (R186): their values and poison, or the first fault. -/
def State.readElems (s : State) (ag : Agent) (bits : Nat) : List (Int × Nat) → Except (Cause × Nat) (List (Nat × Bool) × State)
  | [] => .ok ([], s)
  | (va, b) :: es =>
    match s.readVa ag va (max 1 (bits / 8)) with
    | .error e => .error e
    | .ok (x, z, s1) =>
      match s1.readElems ag bits es with
      | .error e => .error e
      | .ok (xs, s2) => .ok ((x / 2 ^ b % 2 ^ bits, z) :: xs, s2)

/-- NB8 elements by unit and index (R78): of each unit the first k planes are read, once for the elements of it that follow one another. -/
def State.readPlanes (s : State) (ag : Agent) (k : Nat) (last : Option (Int × Nat × Bool)) :
    List (Int × Nat) → Except (Cause × Nat) (List (Nat × Bool) × State)
  | [] => .ok ([], s)
  | (u, i) :: es =>
    match last.filter fun l => l.1 == u with
    | some l =>
      match s.readPlanes ag k last es with
      | .error e => .error e
      | .ok (xs, s2) => .ok ((unitByte k l.2.1 i, l.2.2) :: xs, s2)
    | none =>
      match s.readVa ag u (8 * k) with
      | .error e => .error e
      | .ok (x, z, s1) =>
        match s1.readPlanes ag k (some (u, x, z)) es with
        | .error e => .error e
        | .ok (xs, s2) => .ok ((unitByte k x i, z) :: xs, s2)

/-- The elements of an A operand in generation order (R186); NB8 is plane-major (R78). -/
def State.readRows (s : State) (ag : Agent) (h : Half) (base : Int) (rec : BitVec 256) (count : Nat) :
    Except (Cause × Nat) (List (Nat × Bool) × State) :=
  if h.nb8 then match genUnits base rec count with
    | none => .error (.access, noVa)
    | some es => s.readPlanes ag h.pln none es
  else match genElems base rec h.elem.bits count with
    | none => .error (.access, noVa)
    | some es => s.readElems ag h.elem.bits es

/-- n bytes in a row, each as an element. -/
def byteRun (base : Int) (n : Nat) : List (Int × Nat) := (List.range n).map fun (i : Nat) => (base + i, 0)

/-! ### Units and eviction (R180, R189, R303, R304) -/

/-- Units a slot holds. A FAILED one holds none: the spec does not say (DESIGN CHOICE, log entry 101). -/
def MSlot.units (x : MSlot) : Nat := if x.st = 1 ∨ x.st = 2 then slotUnits x.mode x.ks x.n else 0
/-- Units held on the core. -/
def Matrix.used (m : Matrix) : Nat := m.slots.foldl (fun n e => n + e.2.units) 0 + m.handles.foldl (fun n h => n + h.units) 0

/-- Whether a pass naming the program slot runs. -/
def Matrix.running (m : Matrix) (key : Nat) : Bool :=
  match m.pass with
  | some (id, false, _) => m.cmds.any fun c => c.id == id && 16 * c.bk + c.slot == key
  | _ => false
/-- Whether a closed tile still needs the handle (R304). -/
def Matrix.handlePinned (m : Matrix) (h : HSlot) : Bool :=
  m.tiles.any fun t => t.ctx == h.ctx && t.handle == h.handle && (t.st == 1 || t.st == 2)

/-- Whether a pass has been chosen for which the slot was restored (R305): the slot stays until that pass runs, since its restore completes before the
pass starts (log entry 120). -/
def Matrix.restored (m : Matrix) (key : Nat) : Bool := m.cmds.any fun c => c.st == 6 && 16 * c.bk + c.slot == key

/-- The slots a load for a block may evict (R189): stamp, 0 for a handle slot, key or place, units. -/
def Matrix.evictable (m : Matrix) (bk : Option Nat) : List (Nat × Nat × Nat × Nat) :=
  let holds := bk.isSome && m.holder == bk
  let prog := m.slots.filterMap fun e =>
    let owner := e.1 / 16
    let may := if holds then bk != some owner else m.holder != some owner
    if e.2.st = 2 && may && !m.running e.1 && !m.restored e.1 then some (e.2.stamp, 1, e.1, e.2.units) else none
  let hs := (List.range m.handles.length).filterMap fun i =>
    match m.handles[i]? with
    | some h => if h.st = 2 && !m.handlePinned h then some (h.stamp, 0, i, h.units) else none
    | none => none
  prog ++ hs

/-- The next victim (R303): the oldest stamp, then handle slots, then the higher key. -/
def nextVictim (l : List (Nat × Nat × Nat × Nat)) : Option (Nat × Nat × Nat × Nat) :=
  l.foldl (fun b x => match b with
    | none => some x
    | some y => if x.1 < y.1 ∨ (x.1 = y.1 ∧ (x.2.1 < y.2.1 ∨ (x.2.1 = y.2.1 ∧ x.2.1 = 1 ∧ y.2.2.1 < x.2.2.1))) then some x else some y) none

/-- One slot leaves the macros: a program's is SAVED, a handle's is dropped. -/
def Matrix.evict (m : Matrix) (v : Nat × Nat × Nat × Nat) : Matrix :=
  if v.2.1 = 0 then { m with handles := m.handles.eraseIdx v.2.2.1 }
  else { m with slots := match SMap.find? m.slots v.2.2.1 with | some x => SMap.put m.slots v.2.2.1 { x with st := 4 } | none => m.slots }

/-- Slots evicted one by one until the units needed are free; fuel is the number of slots. -/
def Matrix.evictFor (need : Nat) (bk : Option Nat) : Nat → Matrix → Matrix
  | 0, m => m
  | fuel + 1, m =>
    if need + m.used ≤ 256 then m
    else match nextVictim (m.evictable bk) with
      | some v => Matrix.evictFor need bk fuel (m.evict v)
      | none => m

/-- Room for a load (R189), with the evictions it takes; none while it must wait. -/
def Matrix.makeRoom (m : Matrix) (need : Nat) (bk : Option Nat) : Option Matrix :=
  let gain := (m.evictable bk).foldl (fun n v => n + v.2.2.2) 0
  if need + m.used ≤ 256 + gain then some (m.evictFor need bk (m.slots.length + m.handles.length + 1)) else none

/-- A slot whose contents are unspecified: as loaded from free elements, scales and stored positions as they were. -/
def State.freeSlot (s : State) (x : MSlot) : MSlot × State :=
  let h := halfB x.fmt
  let nb := (x.k + h.blen - 1) / h.blen
  let (raw, s1) := s.drawBytes (8 * x.ks * x.n)
  let (scs, s2) := s1.drawBytes (nb * x.n)
  let (z, s3) := s2.draw
  let col (j : Nat) : MCol :=
    alignCol h x.k ((List.range x.ks).map fun i => raw / 2 ^ (64 * (j * x.ks + i)) % 2 ^ h.elem.bits) x.pos
      (if h.sfmt = 0 then [] else (List.range nb).map fun g => scs / 2 ^ (8 * (j * nb + g)) % 256)
  ({ x with cols := (List.range x.n).map col, poison := z.getLsbD 0 }, s3)

/-- A block's saved slots hold unspecified values: a program has written its frame (R370). -/
def State.spoilSlots (s : State) (core bk : Nat) : State :=
  ((s.mx core).slots.filter fun e => e.1 / 16 == bk && e.2.st == 4).foldl (fun (s : State) e =>
    let (x, s1) := s.freeSlot e.2
    s1.updMx core fun m => { m with slots := SMap.put m.slots e.1 x }) s

/-- Where a frame holds saved program slots, and how many bytes (R370). -/
def slotArea : Nat × Nat := (0x160000, 0x40000)

/-- A block's program slots go to its frame (R189, R370); where that fails its groups' live paths trap SPILL_FAULT. -/
def State.slotsOut (s : State) (core bk : Nat) : State :=
  match s.blk bk with
  | none => s
  | some b =>
    let s1 := if (SMap.find? b.images slotArea.1).isNone then s
      else match s.openBack bk slotArea.1 slotArea.2 with | some (true, s1) => s1 | some (false, s1) => s1.spoilSlots core bk | none => s
    match s1.saveOpen bk slotArea.1 slotArea.2 with
    | some s2 => s2
    | none => (s1.updBlk bk fun b => { b with images := SMap.del b.images slotArea.1 }).saveFailed (s1.residentOf bk)

/-- Room is made on a core (R189): the program slots that leave are written to their blocks' frames. None while the load must wait. -/
def State.makeRoom (s : State) (core need : Nat) (bk : Option Nat) : Option State :=
  ((s.mx core).makeRoom need bk).map fun m1 =>
    let gone := ((s.mx core).slots.filter fun e => e.2.st == 2 && (match SMap.find? m1.slots e.1 with | some x => x.st == 4 | none => false)).map fun e => e.1 / 16
    gone.eraseDups.foldl (fun (s : State) k => s.slotsOut core k) (s.updMx core fun _ => m1)

/-! ### Commands -/

def Matrix.cmd (m : Matrix) (id : Nat) : Option MCmd := m.cmds.find? fun c => c.id == id
def Matrix.setCmd (m : Matrix) (c : MCmd) : Matrix := { m with cmds := m.cmds.map fun x => if x.id == c.id then c else x }
def Matrix.before (m : Matrix) (id : Nat) : List MCmd := m.cmds.takeWhile fun c => c.id != id
def MCmd.naming (c : MCmd) (bk slot : Nat) : Bool := c.bk == bk && c.slot == slot && (c.kind == .bld || c.kind == .mmas || c.kind == .mmaq)
def MCmd.onBank (c : MCmd) (bank : Nat) : Bool := c.bank == bank && (c.kind == .mmas || c.kind == .memit || c.kind == .mrd || c.kind == .mwr)
/-- The slot a command names. -/
def Matrix.slotOf (m : Matrix) (c : MCmd) : Option MSlot := SMap.find? m.slots (16 * c.bk + c.slot)

/-- A command has completed: it leaves, and MSYNC will deliver its flags and failure (R195). -/
def State.mxDone (s : State) (core : Nat) (c : MCmd) (kind num : Nat) : State :=
  let s1 := s.updMx core fun m => { m with cmds := m.cmds.filter fun x => x.id != c.id }
  s1.updBlk c.bk fun b => { b with mdones := b.mdones ++ [⟨c.id, c.gk, c.bank, c.flags, c.fail, kind, num⟩] }

/-! ### BLD (R192) -/

/-- BLD_LOAD_START: earlier commands naming the slot are done and the units are there. -/
def eventBldLoadStart (s : State) : State :=
  let core := s.arg 0; let m := s.mx core
  match m.cmd (s.arg 1) with
  | none => s
  | some c =>
    if c.kind != .bld || c.st != 0 || (m.before c.id).any (·.naming c.bk c.slot) then s
    else
      match Matrix.seen { m with cmds := [c] } c.bk c.slot with
      | none => s
      | some x =>
        match (s.updMx core fun m => { m with slots := SMap.del m.slots (16 * c.bk + c.slot) }).makeRoom core x.units (some c.bk) with
        | none => s
        | some s1 => s1.updMx core fun m => { m with slots := SMap.put m.slots (16 * c.bk + c.slot) x }.setCmd { c with st := 1 }

/-- Dense positions of the stored rows by the bitmaps of the groups of 128 (R184); none where a count is not N. -/
def sparsePos (n : Nat) (maps : List Nat) : Option (List Nat) :=
  let groups := (List.range maps.length).map fun g => ((List.range 128).filter fun i => (maps.getD g 0).testBit i).map (· + 128 * g)
  if groups.all fun l => l.length == n then some groups.flatten else none

/-- Where the scales of a half stand, and a sparse B half's bitmaps. -/
def MCmd.scaleAt (c : MCmd) (h : Half) (n : Nat) : List (Int × Nat) := if h.sfmt = 0 then [] else byteRun (c.base + h.soff) n
def MCmd.mapAt (c : MCmd) (k : Nat) : List (Int × Nat) :=
  if (halfB c.fmt).sparse = 0 then [] else (List.range (k / 128)).map fun (g : Nat) => ((c.base : Int) + signedOf 32 (c.aux.getD 0 0) + 16 * g, 0)

/-- What a BLD reads: the columns, the positions, poison; or the cause of its failure. -/
def State.loadSlot (s : State) (c : MCmd) (x : MSlot) : Except Cause (List MCol × List Nat × Bool × State) :=
  let h := halfB c.fmt; let ag := s.blockAgent c.bk
  let nb := (x.k + h.blen - 1) / h.blen
  match genElems c.base c.layout h.elem.bits (x.ks * x.n) with
  | none => .error .access
  | some es =>
    match s.readElems ag h.elem.bits es with
    | .error e => .error e.1
    | .ok (xs, s1) =>
      match s1.readElems ag 8 (c.scaleAt h (x.n * nb)) with
      | .error e => .error e.1
      | .ok (scs, s2) =>
        match s2.readElems ag 128 (c.mapAt x.k) with
        | .error e => .error e.1
        | .ok (maps, s3) =>
          match if h.sparse = 0 then some (List.range x.k) else sparsePos h.sparse (maps.map (·.1)) with
          | none => .error .access
          | some pos =>
            let col (j : Nat) : MCol :=
              alignCol h x.k (((xs.drop (j * x.ks)).take x.ks).map (·.1)) pos (((scs.drop (j * nb)).take nb).map (·.1))
            .ok ((List.range x.n).map col, pos, (xs ++ scs ++ maps).any (·.2), s3)

/-- The reads of a BLD in order: address and bytes. -/
def MCmd.bldReads (c : MCmd) (x : MSlot) : List (Int × Nat) :=
  let h := halfB c.fmt
  (((genElems c.base c.layout h.elem.bits (x.ks * x.n)).getD []).map fun e => (e.1, max 1 (h.elem.bits / 8)))
    ++ ((c.scaleAt h (x.n * ((x.k + h.blen - 1) / h.blen))).map fun e => (e.1, 1)) ++ (c.mapAt x.k).map fun e => (e.1, 16)

/-- BLD_COMPLETE (R192): the slot is LOADED, or FAILED. -/
def eventBldComplete (s : State) : State :=
  let core := s.arg 0; let m := s.mx core
  match m.cmd (s.arg 1) with
  | none => s
  | some c =>
    let key := 16 * c.bk + c.slot
    match if c.kind == .bld && c.st == 1 then SMap.find? m.slots key else none with
    | none => s
    | some x =>
      match s.loadSlot c x with
      | .error cause =>
        ((s.meetList (s.blockAgent c.bk) (c.bldReads x)).updMx core fun m =>
          { m with slots := SMap.put m.slots key { x with st := 3, cols := [], pos := [] } }).mxDone core { c with fail := cause.code } 1 c.slot
      | .ok (cols, pos, z, s1) =>
        let h := halfB c.fmt
        let fl := cols.foldl (fun f col => f ||| alignFlags h col pos (List.range x.ks)) 0
        (s1.updMx core fun m => { m with slots := SMap.put m.slots key { x with st := 2, cols := cols, pos := pos, poison := z, stamp := s.clock } }).mxDone
          core { c with flags := fl } 1 c.slot

/-! ### MMAS (R193) -/

def MCmd.rows (c : MCmd) : Nat := (c.ctl.extractLsb' 0 5).toNat + 1

/-- The aligned rows of an MMAS, each with its poison, its flags; or the cause of the fill's failure. -/
def State.fillRows (s : State) (c : MCmd) (x : MSlot) : Except Cause (List (MCol × Bool) × BitVec 6 × State) :=
  let h := halfA c.fmt; let ag := s.blockAgent c.bk
  let nb := (x.k + h.blen - 1) / h.blen
  match s.readRows ag h c.base c.layout (c.rows * x.k) with
  | .error e => .error e.1
  | .ok (xs, s1) =>
    match s1.readElems ag 8 (c.scaleAt h (c.rows * nb)) with
    | .error e => .error e.1
    | .ok (scs, s2) =>
      let row (m : Nat) : MCol × Bool :=
        let es := (xs.drop (m * x.k)).take x.k; let ss := (scs.drop (m * nb)).take nb
        (alignCol h x.k (es.map (·.1)) (List.range x.k) (ss.map (·.1)), (es ++ ss).any (·.2))
      .ok ((List.range c.rows).map row, 0, s2)

/-- The bank conflicts of a fill from the core's own slice (R264, R300): for each clock of up to 32 granules, accesses to granules of one
bank beyond the first. -/
def bankConflicts (granules : List Nat) : Nat :=
  (granules.foldl (fun (acc : List Nat × Nat) g =>
    let cur := acc.1
    if cur.contains g then acc
    else if cur.any fun h => h % 32 == g % 32 then ([g], acc.2 + 1)
    else if cur.length = 32 then ([g], acc.2) else (g :: cur, acc.2)) ([], 0)).2

/-- The reads of a fill in order, those of each element, then of each scale: address and bytes. -/
def MCmd.fillReads (c : MCmd) (x : MSlot) : List (Int × Nat) :=
  let h := halfA c.fmt; let bits := h.elem.bits
  let elems : List (Int × Nat) :=
    if h.nb8 then (((genUnits c.base c.layout (c.rows * x.k)).getD []).map (·.1)).eraseDups.flatMap fun u => (List.range h.pln).map fun (q : Nat) => (u + 8 * q, 8)
    else ((genElems c.base c.layout bits (c.rows * x.k)).getD []).map fun e => (e.1, max 1 (bits / 8))
  elems ++ (c.scaleAt h (c.rows * ((x.k + h.blen - 1) / h.blen))).map fun e => (e.1, 1)

/-- The granules of the core's own slice a fill reads, in order. -/
def State.fillGranules (s : State) (c : MCmd) (x : MSlot) (core : Nat) : List Nat :=
  (c.fillReads x).flatMap fun a =>
    match s.resolve (s.blockAgent c.bk) .read (a.1 % 2 ^ 64).toNat a.2 with
    | .ok ps => ps.flatMap fun p =>
        if inSlice p.home && coreOfPA p.home == core then (List.range ((p.home + p.len - 1) / 16 - p.home / 16 + 1)).map (· + p.home / 16) else []
    | .error _ => []

/-- Whether the second image of the A row buffer is taken (R300): by an MMAS that is filled and has not started. The other image is that of the
pass on the macros, of whichever kind. A fill that faulted has left its image unused, and a pass chosen that waits for the restore of its slot
keeps no other pass from running (R305), whatever becomes of its image (log entry 120). -/
def Matrix.imageTaken (m : Matrix) : Bool := m.cmds.any fun y => y.kind == .mmas && y.st == 2 && y.fail == 0

/-- A_ROW_FILL_COMPLETE: an MMAS takes its token and its rows are read and aligned into a free image (R193, R290, R300); of a FAILED slot
nothing is read. MMAS fill in acceptance order over both banks, so that one which waits for its token holds back later ones of the other
bank (DESIGN CHOICE, log entry 102). -/
def eventARowFillComplete (s : State) : State :=
  let core := s.arg 0; let m := s.mx core
  match m.cmd (s.arg 1) with
  | none => s
  | some c =>
    let bank := m.bank c.bank
    if c.kind != .mmas || c.st != 0 || m.imageTaken || (m.before c.id).any (fun y => y.kind == .mmas && y.st == 0)
      || (m.before c.id).any (fun y => y.kind == .bld && y.naming c.bk c.slot) || (c.rdy && bank.tokens == 0) then s
    else
      let s1 := if c.rdy then s.updMx core fun m => m.setBank c.bank { bank with tokens := bank.tokens - 1 } else s
      match (m.slotOf c).filter fun x => x.st != 3 with
      | none => s1.updMx core fun m => m.setCmd { c with st := 2 }
      | some x =>
        match s1.fillRows c x with
        | .error cause => (s1.meetList (s.blockAgent c.bk) (c.fillReads x)).updMx core fun m => m.setCmd { c with st := 2, fail := cause.code, flags := 0 }
        | .ok (rows, fl, s2) =>
          let k := bankConflicts (s1.fillGranules c x core)
          let s3 := s2.updGrp c.gk fun g => { g with bankc := BitVec.ofNat 32 (min (g.bankc.toNat + k) (2 ^ 32 - 1)) }
          s3.updMx core fun m => m.setCmd { c with st := 2, fill := rows, flags := fl }

/-- A row's columns as numbers of 64 × e bits. -/
def MRow.acc (r : MRow) : RowAcc :=
  let e := modeWords r.mode
  let word (i : Nat) : Nat := (SMap.get 0 r.words i).toNat
  let col (j : Nat) : Int := signedOf (64 * e) ((List.range e).foldl (fun n i => n + word (e * j + i) * 2 ^ (64 * i)) 0)
  let idx := List.range (modeCols r.mode)
  ⟨if r.set then some r.x else none, idx.map col, idx.map (SMap.get false r.lost ·), idx.map (SMap.get 0 r.spec ·)⟩

/-- The row with its columns changed; what it holds beyond the mode's columns stays (R301). -/
def MRow.ofAcc (r : MRow) (a : RowAcc) : MRow :=
  let e := modeWords r.mode
  let words := (List.range (a.c.length * e)).map fun i => BitVec.ofInt 64 (a.c.getD (i / e) 0 / 2 ^ (64 * (i % e)))
  { r with
    set := a.x.isSome, x := a.x.getD r.x, words := tableOf 0 words ++ r.words.filter fun w => decide (words.length ≤ w.1)
    lost := tableOf false a.lost ++ r.lost.filter fun w => decide (a.lost.length ≤ w.1)
    spec := tableOf 0 a.spec ++ r.spec.filter fun w => decide (a.spec.length ≤ w.1) }

/-- One row of an MMAS pass (R193): the row after it and whether a window rounding took place. -/
def MRow.mmas (r : MRow) (clr : Bool) (mode : Nat) (ha hb : Half) (a : MCol × Bool) (x : MSlot) : MRow × Bool :=
  let r := if clr || r.mode != mode then { MRow.clear with mode := mode } else r
  let cs := x.cols.map fun b => contribs ha hb a.1 b x.pos x.k
  let acc := r.acc
  let z := (List.range x.n).foldl (fun p j => SMap.set false p j (SMap.get false p j || a.2 || x.poison)) r.poison
  if modeInt mode then
    let c := (List.range acc.c.length).map fun j =>
      match cs[j]? with | some k => signedOf 64 (wrapNat 64 (acc.c.getD j 0 + contribSum k.1)) | none => acc.c.getD j 0
    ({ r.ofAcc { acc with c := c } with poison := z }, false)
  else
    let d := addRow (64 * modeWords mode) acc (cs.map fun k => (contribRats k.1, k.2))
    ({ r.ofAcc d.1 with poison := z }, d.2)

/-- n free words. -/
def State.freeWords (s : State) (n : Nat) : List DWord × State :=
  ((List.range n).map fun i => (Config.freeValue (s.free + i / 8)).extractLsb' (64 * (i % 8)) 64, { s with free := s.free + (n + 7) / 8 })

/-- The rows of a failed fill hold unspecified values (R195). -/
def State.spoilRows (s : State) (core : Nat) (c : MCmd) : State :=
  (List.range c.rows).foldl (fun s r =>
    let (x, s) := s.freeRow
    s.updMx core fun m => m.setBank c.bank ((m.bank c.bank).setRow r x)) s

/-- The pass of an MMAS at its end (R193). -/
def State.endMmas (s : State) (core : Nat) (c : MCmd) : State :=
  let s := s.count core 18 c.rows
  let m := s.mx core
  match m.slotOf c with
  | none => s.mxDone core c 2 c.slot
  | some x =>
    if x.st = 3 then s.mxDone core { c with flags := 0 } 2 c.slot
    else
      let ha := halfA c.fmt; let hb := halfB x.fmt
      let mode := modeOf ha hb
      if c.fail ≠ 0 then (s.spoilRows core c).mxDone core c 2 c.slot
      else
        let b := m.bank c.bank
        let d := (c.fill.zipIdx).foldl (fun (acc : Bank × BitVec 6) row =>
          let r := (acc.1.row row.2).mmas c.clr mode ha hb row.1 x
          (acc.1.setRow row.2 r.1, acc.2 ||| alignFlags ha row.1.1 (List.range x.k) x.pos ||| (if r.2 then fNX else 0))) (b, c.flags)
        (s.updMx core fun m => m.setBank c.bank d.1).mxDone core { c with flags := d.2 } 2 c.slot

/-! ### MMAQ (R200) -/

/-- The rounding mode of a captured RMODE.MODE (R120). -/
def arithRound (n : Nat) : RMode := match n with | 1 => .rtz | 2 => .rup | 3 => .rdn | _ => .rne

/-- A thread's row of an MMAQ: its results, and its flags. -/
def QRow.result (q : QRow) (x : MSlot) (win n mode : Nat) (acc : Bool) : List RegVal × Flags :=
  let ha := halfA x.fmt; let hb := halfB x.fmt
  let raw := q.elems ++ List.replicate (x.k - q.elems.length) 0
  let a := alignCol ha x.k raw (List.range x.k) []
  let m := modeOf ha hb
  let cs := (List.range n).map fun j => contribs ha hb a (x.cols.getD (16 * win + j) ⟨[], [], [], []⟩) x.pos q.elems.length
  let fl0 := alignFlags ha a (List.range x.k) (List.range q.elems.length)
  let old (j : Nat) : RegVal := q.acc.getD j RegVal.zero
  let z (j : Nat) : Bool := q.poison || x.poison || (acc && (old j).poison)
  if modeInt m then
    ((List.range n).map fun j =>
      let s := contribSum (cs.getD j ([], 0)).1 + (if acc then (old j).val.toInt else 0)
      ⟨BitVec.ofInt 32 s, z j⟩, fl0)
  else
    let add (j : Nat) : List Rat × Nat :=
      let k := cs.getD j ([], 0)
      if acc then
        match Fmt.fp32.value (old j).val.toNat with
        | .num r => (r :: contribRats k.1, k.2)
        | .zero _ => (contribRats k.1, k.2)
        | v => (contribRats k.1, k.2 ||| specBits v v.isSNan)
      else (contribRats k.1, k.2)
    let d := addRow (64 * modeWords m) (RowAcc.clear n) ((List.range n).map add)
    let outs := (List.range n).map fun j =>
      let v := d.1.value j
      let y := roundTo .fp32 (arithRound mode) v.1
      ((⟨BitVec.ofNat 32 y.1, z j⟩ : RegVal), y.2 ||| (if v.2 then fIV else 0) ||| (if d.1.lost.getD j false then fNX else 0))
    (outs.map (·.1), outs.foldl (fun f o => f ||| o.2) (fl0 ||| (if d.2 then fNX else 0)))

/-- MMAQ_WRITEBACK: the results of a pass are written (R200, R302); of a FAILED slot, unspecified ones with poison. -/
def eventMmaqWriteback (s : State) : State :=
  let core := s.arg 0; let m := s.mx core
  match m.cmd (s.arg 1) with
  | none => s
  | some c =>
    if c.kind != .mmaq || c.st != 4 || s.clock < c.until' then s
    else
      let dest := c.aux.getD 1 0; let n := c.aux.getD 2 0
      let s1 := s.updMx core fun m => { m with cmds := m.cmds.filter fun y => y.id != c.id }
      let mask := maskOf (c.qrows.map (·.thread))
      let send (s : State) (vw : List (Nat × RegVal)) (fl : BitVec 6) : State :=
        s.applyResult { id := c.id, gk := c.gk, cls := .other, mask := mask, vw := vw, sw := [], flags := fl }
      if c.fail ≠ 0 then
        let (ws, s2) := s1.freeWords (96 * n)
        send s2 (c.qrows.flatMap fun q => (List.range n).map fun j => (128 * (dest + j) + q.thread, ⟨(ws.getD (96 * j + q.thread) 0).setWidth 32, true⟩)) 0
      else
        let rs := c.qrows.map fun q => (q.thread, q.acc.map (·.val))
        send s1 (rs.flatMap fun r => (r.2.zipIdx).map fun w => (128 * (dest + w.2) + r.1, (⟨w.1, (c.data.any fun d => d.1 == 96 * w.2 + r.1)⟩ : RegVal))) c.flags

/-- The results of an MMAQ pass at its end, kept until they are written 5 clocks later (R299). -/
def State.endMmaq (s : State) (core : Nat) (c : MCmd) : State :=
  let m := s.mx core
  let padded := c.aux.getD 3 0
  let s := (s.count core 19 c.qrows.length).count core 20 (padded - c.qrows.length)
  match m.slotOf c with
  | none => s.updMx core fun m => m.setCmd { c with st := 4, until' := s.clock + 5, fail := 1 }
  | some x =>
    let rs := c.qrows.map fun q => (q, q.result x (c.aux.getD 0 0) (c.aux.getD 2 0) (c.aux.getD 4 0) c.alt)
    let rows := rs.map fun r => { r.1 with acc := r.2.1 }
    let marks := rs.flatMap fun r => (r.2.1.zipIdx).filterMap fun w => if w.1.poison then some (96 * w.2 + r.1.thread, (0 : DWord), true) else none
    s.updMx core fun m => m.setCmd { c with st := 4, until' := s.clock + 5, qrows := rows, data := marks, flags := rs.foldl (fun f r => f ||| r.2.2) 0 }

/-! ### Chorus (R203, R204, R299, R306 to R310) -/

/-- The activations (R203, R133, R134) of an FP32 value, and the flags but SI. -/
def chorusAct (act : Nat) (x : Nat) : Nat × Flags :=
  let fn (f : SpecFn) : Nat × Flags := let r := f.eval (BitVec.ofNat 32 x); (r.1.toNat, r.2 &&& 0x1F)
  match act with
  | 1 => (match Fmt.fp32.value x with | .nan _ => Fmt.fp32.qnan | v => if v.negative || v == .zero true then 0 else x, 0)
  | 2 => fn .sigm | 3 => fn .tanh | 4 => fn .silu | 5 => fn .gelu | _ => (x, 0)

/-- One layer for one row (R203): the bias enters first, in a step of its own, then the segment contributions. -/
def HLayer.apply (l : HLayer) (xs : List Nat) : List Nat × Flags :=
  let ha := halfA l.fmt; let hb := halfB l.fmt
  let ins := xs.map fun x => fConvert .fp32 ha.elem .rne x
  let a := alignCol ha l.k (ins.map (·.1)) (List.range l.k) []
  let fl := ins.foldl (fun f y => f ||| (y.2 &&& 0x1F)) (alignFlags ha a (List.range l.k) (List.range l.k))
  let bias (j : Nat) : List Rat × Nat :=
    match Fmt.fp32.value (l.bias.getD j 0) with
    | .num r => ([r], 0) | .zero _ => ([], 0) | v => ([], specBits v v.isSNan)
  let w := 64 * modeWords l.mode
  let r0 := addRow w (RowAcc.clear l.n) ((List.range l.n).map bias)
  let r1 := addRow w r0.1 (l.cols.map fun b => let k := contribs ha hb a b (List.range l.k) l.k; (contribRats k.1, k.2))
  let outs := (List.range l.n).map fun j =>
    let v := r1.1.value j
    let y := roundTo .fp32 .rne v.1
    let z := chorusAct l.act y.1
    (z.1, y.2 ||| z.2 ||| (if v.2 then fIV else 0) ||| (if r1.1.lost.getD j false then fNX else 0))
  (outs.map (·.1), outs.foldl (fun f o => f ||| o.2) (fl ||| (if r0.2 || r1.2 then fNX else 0)))

def Matrix.handle (m : Matrix) (ctx h : Nat) : Option HSlot := m.handles.find? fun x => x.ctx == ctx && x.handle == h
def Matrix.tile (m : Matrix) (id : Nat) : Option CTile := m.tiles.find? fun t => t.id == id
def Matrix.setTile (m : Matrix) (t : CTile) : Matrix := { m with tiles := m.tiles.map fun x => if x.id == t.id then t else x }

/-- A layer of a tile ends: its rows take the outputs (R299). -/
def State.endLayer (s : State) (core : Nat) (t : CTile) : State :=
  match (s.mx core).handle t.ctx t.handle with
  | none => s
  | some h =>
    match h.layers[t.layer]? with
    | none => s
    | some l =>
      let rows := t.rows.map fun r => let y := l.apply r.xs; { r with xs := y.1, flags := r.flags ||| y.2, poison := r.poison || h.poison }
      let last := t.layer + 1 == h.layers.length
      let rows := if last then rows.map fun r => { r with flags := r.flags ||| h.flags } else rows
      s.updMx core fun m => m.setTile { t with rows := rows, layer := t.layer + 1, st := if last then 3 else 1, ready := s.clock + (if last then 5 else 4) }

/-- CHORUS_WRITEBACK: every row of a tile is written (R203, R309). -/
def eventChorusWriteback (s : State) : State :=
  let core := s.arg 0
  match (s.mx core).tile (s.arg 1) with
  | none => s
  | some t =>
    if t.st ≠ 3 || s.clock < t.ready then s
    else
      let s1 := s.updMx core fun m => { m with tiles := m.tiles.filter fun x => x.id != t.id }
      t.rows.foldl (fun s r =>
        let regs := (List.range r.xs.length).map (r.dest + ·)
        let s := s.applyResult
          { id := r.neval, gk := r.gk, cls := .engine, mask := BitVec.ofNat 96 (2 ^ r.thread), sw := [], flags := 0
            vw := (r.xs.zipIdx).map fun w => (128 * (r.dest + w.2) + r.thread, ⟨BitVec.ofNat 32 w.1, r.poison⟩) }
        s.updGrp r.gk fun g =>
          if g.alive.getLsbD r.thread && r.flags != 0 then { g with rowFlags := g.rowFlags ++ [(r.neval, r.thread, regs, r.flags)] } else g) s1

/-- Tiles picked close (R308), in order. -/
def State.closeTiles (s : State) (core : Nat) (f : CTile → Bool) : State :=
  s.updMx core fun m => { m with tiles := m.tiles.map fun t => if t.st == 0 && f t then t.close s.clock else t }

/-- CHORUS_WINDOW_CLOSE (R307, R308). -/
def eventChorusWindowClose (s : State) : State :=
  let core := s.arg 0; let ctx := s.arg 1
  match SMap.find? (s.mx core).windows ctx with
  | some w => if s.clock < w then s else (s.closeTiles core fun t => t.ctx == ctx).updMx core fun m => { m with windows := SMap.del m.windows ctx }
  | none => s

/-- Units of a network's handle slot (R306). -/
def netUnits (x : Net) (c : BitVec 512) : Nat :=
  (List.range x.layers).foldl (fun n l => let f := netBlock c l; n + slotUnits (modeOf (halfA f) (halfB f)) (x.k l) (x.n l)) 0

/-- CHORUS_HANDLE_LOAD_START (R306): a closed tile's handle has no slot, the units are there, and what the NEVALs' paths stored before them has
been performed (R288). -/
def eventChorusHandleLoadStart (s : State) : State :=
  let core := s.arg 0; let ctx := s.arg 1; let h := s.arg 2; let m := s.mx core
  let mine := m.tiles.filter fun t => t.ctx == ctx && t.handle == h && t.st == 1
  let held := mine.any fun t => t.rows.any fun r => s.uncleared r.gk (BitVec.ofNat 96 (2 ^ r.thread)) r.neval
  if (m.handle ctx h).isSome || mine.isEmpty || held then s
  else
    match s.network ⟨ctx, core, 2 ^ 64⟩ h with
    | (some (x, c), s1) =>
      let n := netUnits x c
      match s1.makeRoom core n none with
      | none => s
      | some s2 => s2.updMx core fun m => { m with handles := m.handles ++ [⟨ctx, h, 1, n, [], false, 0, s.clock⟩] }
    | (none, s1) => s1.updMx core fun m => { m with handles := m.handles ++ [⟨ctx, h, 1, 0, [], false, 0, s.clock⟩] }

/-- Where the weights, the scales and the biases of a layer stand (R397): byte address and bit. -/
def Net.weightAt (x : Net) (l : Nat) (hb : Half) : List (Int × Nat) :=
  let bits := hb.elem.bits; let k := x.k l
  (List.range (x.n l * k)).map fun (i : Nat) => (((x.wbase + x.woff l + i / k * ((k * bits + 7) / 8) + i % k * bits / 8 : Nat) : Int), i % k * bits % 8)
def Net.scaleAt (x : Net) (l : Nat) (hb : Half) : List (Int × Nat) :=
  if hb.sfmt = 0 then [] else byteRun ((x.wbase + x.woff l : Nat) + hb.soff) (x.n l * ((x.k l + hb.blen - 1) / hb.blen))
def Net.biasAt (x : Net) (l : Nat) : List (Int × Nat) :=
  let first := (List.range l).foldl (fun t i => t + x.n i) 0
  if x.bbase = 0 then [] else (List.range (x.n l)).map fun (j : Nat) => (((x.bbase + 4 * (first + j) : Nat) : Int), 0)
/-- The reads of a handle load in order: address and bytes. -/
def Net.reads (x : Net) (c : BitVec 512) : List (Int × Nat) :=
  (List.range x.layers).flatMap fun l =>
    let hb := halfB (netBlock c l)
    ((x.weightAt l hb).map fun e => (e.1, max 1 (hb.elem.bits / 8))) ++ ((x.scaleAt l hb).map fun e => (e.1, 1)) ++ (x.biasAt l).map fun e => (e.1, 4)

/-- One layer read from memory (R397): the layer, its poison and weight flags. -/
def State.loadLayer (s : State) (ag : Agent) (x : Net) (c : BitVec 512) (l : Nat) : Except Cause (HLayer × Bool × BitVec 6 × State) :=
  let f := netBlock c l; let hb := halfB f
  let k := x.k l; let n := x.n l
  let nb := (k + hb.blen - 1) / hb.blen
  match s.readElems ag hb.elem.bits (x.weightAt l hb) with
  | .error e => .error e.1
  | .ok (ws, s1) =>
    match s1.readElems ag 8 (x.scaleAt l hb) with
    | .error e => .error e.1
    | .ok (scs, s2) =>
      match s2.readElems ag 32 (x.biasAt l) with
      | .error e => .error e.1
      | .ok (bs, s3) =>
        let col (j : Nat) : MCol := alignCol hb k (((ws.drop (j * k)).take k).map (·.1)) (List.range k) (((scs.drop (j * nb)).take nb).map (·.1))
        let cols := (List.range n).map col
        let fl := cols.foldl (fun f y => f ||| alignFlags hb y (List.range k) (List.range k)) 0
        let m := modeOf (halfA f) hb
        .ok (⟨f, k, n, if modeInt m then m + 8 else m, cols, if x.bbase = 0 then List.replicate n 0 else bs.map (·.1), x.act l⟩,
          (ws ++ scs ++ bs).any (·.2), fl, s3)

/-- The layers from l on; fuel is their number. -/
def State.loadLayers (s : State) (ag : Agent) (x : Net) (c : BitVec 512) : Nat → Nat → Except Cause (List HLayer × Bool × BitVec 6 × State)
  | 0, _ => .ok ([], false, 0, s)
  | fuel + 1, l =>
    match s.loadLayer ag x c l with
    | .error e => .error e
    | .ok (y, z, fl, s1) =>
      match s1.loadLayers ag x c fuel (l + 1) with
      | .error e => .error e
      | .ok (ys, w, g, s2) => .ok (y :: ys, z || w, fl ||| g, s2)

/-- The registers that wait for a row of a NEVAL. -/
def Grp.rowRegs (g : Grp) (neval thread : Nat) : List Nat :=
  g.pend.filterMap fun p => match p.id == neval && p.mask.getLsbD thread, p.reg with | true, .v n => some n | _, _ => none

/-- A failed row's destinations hold unspecified, unpoisoned values once their trap is taken (R204): they are drawn now, and until the trap
nothing reads them. -/
def State.openRow (s : State) (gk neval thread : Nat) : State :=
  match s.grp gk with
  | none => s
  | some g =>
    let regs := if g.alive.getLsbD thread then g.rowRegs neval thread else []
    let ws := regs.zipIdx.map fun (r : Nat × Nat) => (128 * r.1 + thread, (⟨(Config.freeValue (s.free + r.2)).extractLsb' 0 32, false⟩ : RegVal))
    ({ s with free := s.free + regs.length }.savedWrites gk ws).wrVs gk ws

/-- The rows of a context and handle fail (R204, R310): their destinations become faulted. -/
def State.failRows (s : State) (core ctx h cause : Nat) : State :=
  let m := s.mx core
  let hit (t : CTile) : Bool := t.ctx == ctx && t.handle == h
  let rows := (m.tiles.filter hit).flatMap (·.rows)
  let s1 := s.updMx core fun m => { m with tiles := m.tiles.filter fun t => !hit t, handles := m.handles.filter fun x => !(x.ctx == ctx && x.handle == h) }
  rows.foldl (fun s r => (s.openRow r.gk r.neval r.thread).updGrp r.gk fun g =>
    let mine (p : Pend) : Bool := p.id == r.neval && p.mask.getLsbD r.thread
    let regs := g.rowRegs r.neval r.thread
    let bit := BitVec.ofNat 96 (2 ^ r.thread)
    { g with
      pend := (g.pend.map fun p => if mine p then { p with mask := p.mask &&& ~~~bit } else p).filter fun p => p.mask != 0
      faulted := if g.alive.getLsbD r.thread then regs.foldl (fun f n => SMap.put f (128 * n + r.thread) (cause, r.neval)) g.faulted else g.faulted }) s1

/-- CHORUS_HANDLE_LOAD_END (R306, R310, R397). -/
def eventChorusHandleLoadEnd (s : State) : State :=
  let core := s.arg 0; let ctx := s.arg 1; let h := s.arg 2
  match (s.mx core).handle ctx h with
  | none => s
  | some x =>
    if x.st ≠ 1 then s
    else
      let ag : Agent := ⟨ctx, core, 2 ^ 64⟩
      match s.network ag h with
      | (none, s1) => s1.failRows core ctx h Cause.access.code
      | (some (n, c), s1) =>
        match s1.loadLayers ag n c n.layers 0 with
        | .error e => (s1.meetList ag (n.reads c)).failRows core ctx h e.code
        | .ok (ls, z, fl, s2) =>
          s2.updMx core fun m => { m with handles := m.handles.map fun y =>
            if y.ctx == ctx && y.handle == h then { y with st := 2, layers := ls, poison := z, flags := fl, stamp := s.clock } else y }

/-! ### The choice of passes (R190, R299, R302, R309) -/

/-- A Chorus layer or MMAQ pass that waits: the clock of its acceptance, what breaks ties, whether it is a tile's, its number. -/
structure Cand where
  clock : Nat
  tie : Nat
  isTile : Bool
  id : Nat
  deriving DecidableEq, Repr

/-- The place of a tile's earliest row among rows of one NEVAL. -/
def CTile.tie (t : CTile) : Nat :=
  match t.rows with
  | [] => 0
  | r :: rs =>
    let first := rs.foldl (fun n x => min n x.neval) r.neval
    ((t.rows.filter fun x => x.neval == first).map (·.key)).foldl min (2 ^ 80)

/-- The waiting Chorus layers and MMAQ passes to choose from now; one whose slot is SAVED is chosen, and then restored (R305). -/
def Matrix.candidates (m : Matrix) (now : Nat) : List Cand :=
  let tiles := m.tiles.filterMap fun t =>
    if t.st = 1 && t.ready ≤ now && (match m.handle t.ctx t.handle with | some h => h.st == 2 | none => false)
    then some ⟨t.accepted, t.tie, true, t.id⟩ else none
  let quarters := m.cmds.filterMap fun c =>
    if c.kind == .mmaq && (c.st == 0 || c.st == 6) && c.aux.getD 5 0 ≤ now && !(m.before c.id).any (fun y => y.kind == .bld && y.naming c.bk c.slot)
        && (match m.slotOf c with | some x => x.st == 2 || x.st == 4 | none => false)
    then some ⟨c.aux.getD 5 0 - 3, c.id, false, c.id⟩ else none
  tiles ++ quarters

/-- The oldest of the candidates. -/
def oldest (l : List Cand) : Option Cand :=
  l.foldl (fun b x => match b with
    | none => some x
    | some y => if x.clock < y.clock ∨ (x.clock = y.clock ∧ x.tie < y.tie) then some x else some y) none

/-- Whether an MMAS takes no pass: its fill has faulted (R300), or its slot is FAILED and the command is discarded (R195). -/
def Matrix.idlePass (m : Matrix) (c : MCmd) : Bool := c.fail != 0 || (match m.slotOf c with | some x => x.st == 3 | none => true)

/-- The next MMAS of the holder that may start: filled, its slot LOADED, or SAVED and to be restored, its bank's earlier commands done. -/
def Matrix.nextMmas (m : Matrix) : Option MCmd :=
  m.cmds.find? fun c => c.kind == .mmas && c.st == 2 && !(m.before c.id).any (·.onBank c.bank) && !m.idlePass c

/-- An MMAS that is done without a pass, once its bank's earlier commands are. -/
def Matrix.emptyMmas (m : Matrix) : Option MCmd :=
  m.cmds.find? fun c => c.kind == .mmas && c.st == 2 && !(m.before c.id).any (·.onBank c.bank) && m.idlePass c

/-- Whether a command's slot is SAVED. -/
def Matrix.away (m : Matrix) (c : MCmd) : Bool := match m.slotOf c with | some x => x.st == 4 | none => false

/-- The next MEMIT, MRD or MWR that may take the accumulator port (R299). -/
def Matrix.nextPort (m : Matrix) : Option MCmd :=
  m.cmds.find? fun c => (c.kind == .memit || c.kind == .mrd || c.kind == .mwr) && c.st == 0 && !(m.before c.id).any (·.onBank c.bank)

/-- An MMAQ whose slot has become FAILED writes without a pass (R200). -/
def Matrix.failedMmaq (m : Matrix) : Option MCmd :=
  m.cmds.find? fun c => c.kind == .mmaq && c.st == 0 && !(m.before c.id).any (fun y => y.kind == .bld && y.naming c.bk c.slot)
    && (match m.slotOf c with | some x => x.st == 3 | none => true)

/-- Core clocks MEMIT holds the port. -/
def MCmd.portClocks (c : MCmd) (m : Matrix) : Nat :=
  if c.kind == .memit then
    let nc := (c.ctl.extractLsb' 13 10).toNat + 1; let rows := (c.ctl.extractLsb' 7 5).toNat + 1
    rows * ((nc * modeWords ((m.bank c.bank).row 0).mode + 63) / 64)
  else 3

def State.stampSlot (s : State) (core bk slot : Nat) : State :=
  s.updMx core fun m => match SMap.find? m.slots (16 * bk + slot) with
    | some x => { m with slots := SMap.put m.slots (16 * bk + slot) { x with stamp := s.clock } } | none => m

/-- A pass of `clocks` starts. -/
def State.startPass (s : State) (core id : Nat) (isTile : Bool) (clocks : Nat) : State :=
  s.updMx core fun m => { m with pass := some (id, isTile, s.clock + clocks) }

/-- A pass chosen among Chorus layers and MMAQ passes starts: rows × step clocks (R183, R299, R308). -/
def State.startCand (s : State) (core : Nat) (c : Cand) : State :=
  let m := s.mx core
  if c.isTile then
    match m.tile c.id with
    | none => s
    | some t =>
      let pad := 8 * ((t.rows.length + 7) / 8)
      let step := match m.handle t.ctx t.handle with
        | some h => (match h.layers[t.layer]? with | some l => modeStep l.mode (halfA l.fmt) | none => 0) | none => 0
      let s1 := if t.layer = 0 then s.count core 22 (pad - t.rows.length) else s
      let s2 := s1.updMx core fun m => { m.setTile { t with st := 2 } with handles := m.handles.map fun h =>
        if h.ctx == t.ctx && h.handle == t.handle then { h with stamp := s.clock } else h }
      s2.startPass core c.id true (pad * step)
  else
    match m.cmd c.id with
    | none => s
    | some q =>
      if m.away q then s.updMx core fun m => m.setCmd { q with st := 5 }
      else
      let step := match m.slotOf q with | some x => modeStep x.mode (halfA x.fmt) | none => 0
      ((s.updMx core fun m => m.setCmd { q with st := 3 }).stampSlot core q.bk q.slot).startPass core q.id false (q.aux.getD 3 0 * step)

/-- PASS_START (R190): the macros take the oldest waiting Chorus layer or MMAQ pass, else the holder's next MMAS; the accumulator port
takes the next command of its own. A pass whose slot is SAVED is chosen, and waits for its restore while others run (R305). -/
def eventPassStart (s : State) : State :=
  let core := s.arg 0
  let m := s.mx core
  let s1 :=
    if m.pass.isSome then s
    else match oldest (m.candidates s.clock) with
      | some c => s.startCand core c
      | none =>
        match m.nextMmas with
        | some c =>
          if m.away c then s.updMx core fun m => m.setCmd { c with st := 5 }
          else
          let step := match m.slotOf c with | some x => modeStep (modeOf (halfA c.fmt) (halfB x.fmt)) (halfA c.fmt) | none => 0
          ((s.updMx core fun m => m.setCmd { c with st := 3 }).stampSlot core c.bk c.slot).startPass core c.id false (c.rows * step)
        | none => s
  let s2 := match m.failedMmaq with
    | some c => s1.updMx core fun m => m.setCmd { c with st := 4, until' := s.clock, fail := 1 }
    | none => s1
  let s2 := match m.emptyMmas with | some c => s2.endMmas core c | none => s2
  if s.clock < m.port then s2
  else match m.nextPort with
    | some c =>
      let t := s.clock + c.portClocks m
      s2.updMx core fun m => { m.setCmd { c with st := 3, until' := t } with port := t }
    | none => s2

/-- PASS_END: the pass on the macros has run its clocks; its results stand. -/
def eventPassEnd (s : State) : State :=
  let core := s.arg 0; let m := s.mx core
  match m.pass with
  | none => s
  | some (id, isTile, t) =>
    if s.clock < t then s
    else
      let s1 := s.updMx core fun m => { m with pass := none }
      if isTile then match m.tile id with | some x => s1.endLayer core x | none => s1
      else match m.cmd id with
        | some c => if c.kind == .mmas then s1.endMmas core c else s1.endMmaq core c
        | none => s1

/-! ### MEMIT (R196) -/

/-- The value MEMIT takes for column j of a row: the exact value, whether its special bits raise invalid, whether it was rounded. -/
def MRow.emit (r : MRow) (j : Nat) : FVal × Bool × Bool :=
  if r.mode = 0 ∨ modeCols r.mode ≤ j then (.zero false, false, false)
  else
    let a := r.acc
    if modeInt r.mode then (FVal.ofRat ((a.c.getD j 0 : Int) : Rat), false, false)
    else let v := a.value j; (v.1, v.2, a.lost.getD j false)

/-- Sub-byte elements put together byte by byte: the address, the bits written, their value, poison. -/
def packBits (bits : Nat) : List ((Int × Nat) × Nat × Bool) → List (Int × Nat × Nat × Bool)
  | [] => []
  | (ab, x, z) :: rest =>
    let own : Int × Nat × Nat × Bool := (ab.1, (2 ^ bits - 1) * 2 ^ ab.2, x % 2 ^ bits * 2 ^ ab.2, z)
    match rest, packBits bits rest with
    | (next, _) :: _, (a, m, y, w) :: more =>
      if next.1 = ab.1 ∧ ab.2 < next.2 then (a, m + own.2.1, y + own.2.2.1, w || z) :: more else own :: (a, m, y, w) :: more
    | _, _ => [own]

/-- Where a byte of an agent's is written. -/
def State.bytePlace (s : State) (ag : Agent) (va : Int) : List (Except (Cause × Nat × Nat × Bool) Part) := s.storeParts ag 1 (va % 2 ^ 64).toNat 1
/-- What a byte to be written holds. -/
def State.oldByte (s : State) (ps : List (Except (Cause × Nat × Nat × Bool) Part)) : Nat :=
  match ps with | .ok p :: _ => s.mem.readLE p.home 1 | _ => 0

/-- The bytes of elements at their addresses: address, length, value, poison. A byte of which elements fill a part keeps its other bits, which `place`
finds. -/
def State.packElems (s : State) (place : Int → List (Except (Cause × Nat × Nat × Bool) Part)) (bits : Nat) (es : List ((Int × Nat) × Nat × Bool)) :
    List (Int × Nat × Nat × Bool) :=
  if 8 ≤ bits then es.map fun e => (e.1.1, bits / 8, e.2)
  else ((packBits bits es).foldl (fun acc e =>
    let old := if e.2.1 = 255 then 0 else match acc.find? fun y => y.1 == e.1 with | some y => y.2.2.1 | none => s.oldByte (place e.1)
    (e.1, 1, e.2.2.1 + (old &&& (255 - e.2.1)), e.2.2.2) :: acc) []).reverse

/-- The walks that writes of packed elements need meet the lines they read (R427). -/
def State.meetDests (s : State) (ag : Agent) (es : List (Int × Nat × Nat × Bool)) : State :=
  if s.mem.latent.isEmpty then s else es.foldl (fun s e => s.meetWalks ag .write (e.1 % 2 ^ 64).toNat e.2.1) s

/-- The write bytes of one element, and its first fault: its parts are independent (R53). -/
def elemBytes (x : Nat) (z : Bool) (ps : List (Except (Cause × Nat × Nat × Bool) Part)) : List (Nat × Byte × Bool) × Option Cause :=
  let r := ps.foldl (fun (acc : Nat × List (Nat × Byte × Bool) × Option Cause) p =>
    match p with
    | .ok p => (acc.1 + p.len, acc.2.1 ++ partBytes z [p] (x / 2 ^ (8 * acc.1)), acc.2.2)
    | .error c => (acc.1 + c.2.2.1, acc.2.1, acc.2.2.or (some c.1))) (0, [], none)
  r.2

/-- The write bytes of packed elements, and the first fault. -/
def State.storeElems (s : State) (ag : Agent) (es : List (Int × Nat × Nat × Bool)) : List (Nat × Byte × Bool) × Option Cause :=
  es.foldl (fun acc e =>
    let w := elemBytes e.2.2.1 e.2.2.2 (s.storeParts ag e.2.1 (e.1 % 2 ^ 64).toNat e.2.1)
    (acc.1 ++ w.1, acc.2.or w.2)) ([], none)

/-- The rows and columns a MEMIT names. -/
def MCmd.emitRows (c : MCmd) : Nat := (c.ctl.extractLsb' 7 5).toNat + 1
def MCmd.emitCols (c : MCmd) : Nat := (c.ctl.extractLsb' 13 10).toNat + 1

/-- What a MEMIT stores, row by row (R196): the rounded value, its poison, its flags. -/
def MCmd.emitVals (c : MCmd) (bank : Bank) (f : Fmt) : List (Nat × Bool × BitVec 6) :=
  let rho (n : Nat) : Nat := ((mixPacked (BitVec.ofNat 64 (c.aux.getD 2 0)) (packKey (c.aux.getD 3 0) (c.aux.getD 4 0) 127
    ((c.aux.getD 1 0 + n) % 2 ^ 32))).extractLsb' 0 16).toNat
  let rowVals := (List.range c.emitRows).map fun r => let x := bank.row r; (List.range c.emitCols).map fun j => (x.emit j, SMap.get false x.poison j)
  (rowVals.flatten.zipIdx).map fun v =>
    let (x, inv, lost) := v.1.1
    let y := roundTo f ((RMode.ofCode (c.aux.getD 0 0) (rho v.2)).getD .rne) x
    (y.1, v.1.2, y.2 ||| (if inv then fIV else 0) ||| (if lost then fNX else 0))

/-- Where it stores them: the bytes of its elements in order, and the first fault. -/
def State.emitElems (s : State) (c : MCmd) (f : Fmt) (vals : List (Nat × Bool × BitVec 6)) : List (Int × Nat × Nat × Bool) :=
  let addrs := (genElems c.base c.layout f.bits (c.emitRows * c.emitCols)).getD []
  s.packElems (s.bytePlace (s.blockAgent c.bk)) f.bits ((addrs.zip vals).map fun e => (e.1, e.2.1, e.2.2.1))
def State.emitWrites (s : State) (c : MCmd) (f : Fmt) (vals : List (Nat × Bool × BitVec 6)) : List (Nat × Byte × Bool) × Option Cause :=
  s.storeElems (s.blockAgent c.bk) (s.emitElems c f vals)

/-- MEMIT_COMPLETE: the rows are rounded and stored (R196). -/
def eventMemitComplete (s : State) : State :=
  let core := s.arg 0; let m := s.mx core
  match m.cmd (s.arg 1) with
  | none => s
  | some c =>
    match if c.kind == .memit && c.st == 3 && c.until' ≤ s.clock then emitFmt (c.ctl.extractLsb' 0 4).toNat else none with
    | none => s
    | some f =>
      let vals := c.emitVals (m.bank c.bank) f
      let w := s.emitWrites c f vals
      let s1 := (s.meetDests (s.blockAgent c.bk) (s.emitElems c f vals)).programWrite w.1
      let s2 := if c.clr then s1.updMx core fun m =>
          m.setBank c.bank ((List.range c.emitRows).foldl (fun b r => b.setRow r MRow.clear) (m.bank c.bank)) else s1
      s2.mxDone core { c with flags := vals.foldl (fun fl v => fl ||| v.2.2) 0, fail := match w.2 with | some e => e.code | none => 0 } 3 c.bank

/-! ### MRD and MWR (R197, R198) -/

/-- The row state word (R198). -/
def MRow.meta (r : MRow) : DWord := BitVec.ofNat 64 (r.mode % 16 * 2 ^ 36 + r.set.toNat * 2 ^ 35 + wrapNat 32 r.x)
/-- The row with a row state word written: a MODE of 12 to 15 is ignored. -/
def MRow.setMeta (r : MRow) (w : DWord) : MRow :=
  let mode := (w.extractLsb' 36 4).toNat
  if 12 ≤ mode then r else { r with mode := mode, set := w.getLsbD 35, x := (w.extractLsb' 0 32).toInt }

/-- The row and bank word a thread addresses (R197). -/
def portPlace (c : MCmd) (t : Nat) : Nat × Nat :=
  ((c.aux.getD 2 0 + t % 32) % 32, c.aux.getD 0 0 % 8 * 64 + (c.aux.getD 1 0 + t / 32) % 64)

/-- ACCUM_PORT_ACCESS: an MRD or MWR at the accumulator port (R197). A row state has no poison: MWR.META takes a poisoned dD by its value, and MRD.META
delivers none (DESIGN CHOICE: R197 names poison for .RAW alone; log entry 128). -/
def eventAccumPortAccess (s : State) : State :=
  let core := s.arg 0; let m := s.mx core
  match m.cmd (s.arg 1) with
  | none => s
  | some c =>
    if !(c.kind == .mrd || c.kind == .mwr) || c.st != 3 || s.clock < c.until' then s
    else
      let bank := m.bank c.bank
      let dest := c.aux.getD 3 0
      if c.kind == .mrd then
        let vw := c.data.flatMap fun d =>
          let (r, w) := portPlace c d.1
          let row := bank.row r
          let x := if c.alt then row.meta else SMap.get 0 row.words w
          let z := !c.alt && SMap.get false row.poison (w / modeWords row.mode)
          ((loHi x z).zipIdx).map fun y => (128 * (dest + y.2) + d.1, y.1)
        (s.updMx core fun m => { m with cmds := m.cmds.filter fun y => y.id != c.id }).applyResult
          { id := c.id, gk := c.gk, cls := .other, mask := maskOf (c.data.map (·.1)), vw := vw, sw := [], flags := 0 }
      else
        let one (b : Bank) (d : Nat × DWord × Bool) : Bank :=
          let (r, w) := portPlace c d.1
          let row := b.row r
          let j := w / modeWords row.mode
          b.setRow r (if c.alt then row.setMeta d.2.1
            else { row with words := SMap.set 0 row.words w d.2.1, lost := SMap.set false row.lost j false, spec := SMap.set 0 row.spec j 0,
                            poison := SMap.set false row.poison j d.2.2 })
        (s.updMx core fun m => m.setBank c.bank (c.data.foldl one bank)).mxDone core c 0 c.bank

/-! ### Restores (R305) and the lease (R187) -/

/-- A slot could not be restored (R305): the task ends FAULTED; commands naming the slot are discarded. -/
def State.restoreFailed (s : State) (core bk slot va : Nat) : State :=
  match s.blk bk with
  | none => s
  | some b =>
    let s1 := s.updMx core fun m => { m with cmds := m.cmds.filter fun c => !c.naming bk slot }
    s1.fault core { Rec.empty with kind := 6, ctx := b.ctx, task := b.task, bid := b.bid, core := core, cause := Cause.spillFault.code, info := slot, va := va }

/-- SLOT_RESTORE: the SAVED slot of a pass that has been chosen returns to the macros (R305); its contents are unspecified if a program has
written the frame (R370). -/
def eventSlotRestore (s : State) : State :=
  let core := s.arg 0; let bk := s.arg 1; let slot := s.arg 2; let m := s.mx core
  let key := 16 * bk + slot
  let wanted := m.cmds.any fun c => c.naming bk slot && c.st == 5
  match SMap.find? m.slots key, s.blk bk with
  | some x, some b =>
    if x.st ≠ 4 || !wanted then s
    else
      match s.makeRoom core (slotUnits x.mode x.ks x.n) (some bk) with
      | none => s
      | some s1 =>
        match s1.openBack bk slotArea.1 slotArea.2 with
        | none => s.restoreFailed core bk slot (s.frameVA b slotArea.1)
        | some (whole, s2) =>
          let s3 := if whole then s2 else s2.spoilSlots core bk
          s3.updMx core fun m =>
            { m with slots := SMap.upd x m.slots key fun x => { x with st := 2, stamp := s.clock }
                     cmds := m.cmds.map fun c => if c.naming bk slot && c.st == 5 then { c with st := if c.kind == .mmas then 2 else 6 } else c }
  | _, _ => s

/-- LEASE_CLAIM_LAPSE: 4,096 clocks after the lease became free (R187). -/
def eventLeaseClaimLapse (s : State) : State :=
  let core := s.arg 0; let m := s.mx core
  if m.claim.isSome && m.holder.isNone && m.freeAt + 4096 ≤ s.clock then s.updMx core fun m => { m with claim := none } else s

/-- Whether the holder's accepted MMAS, MEMIT, MRD and MWR commands have completed. -/
def Matrix.drained (m : Matrix) : Bool :=
  match m.holder with
  | some bk => m.drain && !m.cmds.any fun c => c.bk == bk && (c.kind == .mmas || c.kind == .memit || c.kind == .mrd || c.kind == .mwr)
  | none => false

/-- LEASE_FREE: the lease in DRAIN becomes free (R187). -/
def eventLeaseFree (s : State) : State :=
  let core := s.arg 0
  if (s.mx core).drained then s.updMx core fun m => { m with holder := none, drain := false, budget := 0, freeAt := s.clock } else s

/-- Whether some group with an unwritten Chorus row has a ready path, is decided by the issue logic; this closes every open tile. -/
def State.closeAll (s : State) (core : Nat) : State := s.closeTiles core fun _ => true

end Sys2Proof.Machine
end

