-- ==== Sys2Proof/Machine/Engines.lean ====
section
/-! DEFINITION. The copy, decompression and table-reload commands and their completion counters (R208 to R210, R228 to R234, R276, R394):
CPY, CPYM, DEC, TBLLD, EWAIT and ECNT, and what the engines do with accepted commands. The chain engine is in Machine/Chain.lean. -/
namespace Sys2Proof.Machine
open Sys2Proof Host

/-! ### Accepted commands -/

def State.ecmd (s : State) (id : Nat) : Option EngCmd := s.ecmds.find? fun c => c.id == id
def State.setEcmd (s : State) (c : EngCmd) : State := { s with ecmds := s.ecmds.map fun x => if x.id == c.id then c else x }
def EngCmd.arg (c : EngCmd) (k : Nat) : Nat := c.args.getD k 0

/-- A command is accepted (R208). -/
def Env.accepted (e : Env) (s : State) (kind counter : Nat) (args : List Nat) (left : List (Nat × Nat)) : State :=
  let c : EngCmd := { id := s.seq, kind := kind, gk := e.gk, bk := e.g.blk, mask := e.p.mask, core := e.b.core, counter := counter, args := args, left := left, pieces := [], flags := 0, cause := 0 }
  { s with seq := s.seq + 1, ecmds := s.ecmds ++ [c] }

/-- A command completes (R208): its counter rises, and EWAIT has its flags and failure to deliver. -/
def State.ecmdDone (s : State) (c : EngCmd) : State :=
  { s with ecmds := s.ecmds.filter fun x => x.id != c.id }.updBlk c.bk fun b =>
    { b with
      counters := SMap.upd 0 b.counters c.counter (· + 1)
      dones := if c.flags = 0 && c.cause = 0 then b.dones else b.dones ++ [({ counter := c.counter, flags := c.flags, cause := c.cause, kind := c.kind, grp := c.gk } : Done)] }

/-- Whether the queue of the engine an instruction names is full (R208): 16 copy and decompression commands a core, 8 chain commands. -/
def State.engineFull (s : State) (core : Nat) (i : Instr) : Bool :=
  let n (f : EngCmd → Bool) : Nat := (s.ecmds.filter fun (c : EngCmd) => c.core == core && f c).length
  match i with
  | .cpy _ _ _ _ _ | .cpym _ _ _ _ _ | .dec _ _ _ _ _ => 16 ≤ n fun (c : EngCmd) => c.kind == 4 || c.kind == 5 || c.kind == 6
  | .chain _ _ _ => 8 ≤ n fun (c : EngCmd) => c.kind == 7
  | _ => false

/-! ### EWAIT and ECNT (R209, R210, R242) -/

def Blk.counter (b : Blk) (c : Nat) : Nat := (SMap.get 0 b.counters c).toNat

/-- What EWAIT delivers (R209): the group's flags of the commands counted on c, and the trap of the oldest failure not yet reported. -/
def State.ewaitDone (s : State) (gk c : Nat) : Option Trap × State :=
  match s.grp gk with
  | none => (none, s)
  | some g =>
    match s.blk g.blk with
    | none => (none, s)
    | some b =>
      let mine (d : Done) : Bool := d.counter == c && d.grp == gk
      let fl := (b.dones.filter mine).foldl (fun f d => f ||| d.flags) (0 : BitVec 6)
      let bad := b.dones.find? fun d => d.counter == c && d.cause != 0
      let rest := (b.dones.map fun d => if mine d then { d with flags := 0 } else d)
      let rest := match bad with | some x => rest.erase (if mine x then { x with flags := 0 } else x) | none => rest
      let rest := rest.filter fun d => d.flags != 0 || d.cause != 0
      (bad.map fun d => ⟨d.cause, d.kind * 2 ^ 12 + c * 2 ^ 8⟩,
       (s.updBlk g.blk fun b => { b with dones := rest }).updGrp gk fun g => { g with flags := g.flags ||| fl.setWidth 14 })

/-- EWAIT (R209). -/
def execEwait (stl : BitVec 3) (c a : BitVec 7) (s : State) : Outcome State Fault Refusal :=
  let i : Instr := .ewait stl c a
  issueWith i (fun e =>
    let n := (e.uni a).val.toNat
    if (e.uni a).poison then .next (e.trapAll (trap .poison))
    else if n ≤ e.b.counter c.toNat then
      match s.ewaitDone e.gk c.toNat with
      | (some t, s1) => .next (s1.trapEntry e.gk e.pi t e.p.mask noVa)
      | (none, s1) => .next (e.finish i (e.nextPc i) [] s1)
    else .next (e.park i (.ewait c.toNat n) s)) s

/-- Whether ECNT.CLR under DET has to wait: a command that names the counter is in flight (R242). -/
def State.ecntHeld (s : State) (b : Blk) (bk : Nat) (i : Instr) : Bool :=
  match i with
  | .ecnt _ _ c o => b.det && o == 1 && s.ecmds.any fun x => x.bk == bk && x.counter == c.toNat
  | _ => false

/-- ECNT (R210). Under DET .CLR issues only when no command naming the counter is in flight (R242). -/
def execEcnt (stl : BitVec 3) (d c o : BitVec 7) (s : State) : Outcome State Fault Refusal :=
  let i : Instr := .ecnt stl d c o
  issueEffect i (fun e =>
    if e.b.det && o == 0 then .error (trap .determ)
    else
      let s1 := s.uniformResult e.gk d.toNat [SMap.get 0 e.b.counters c.toNat] false
      .ok (if o == 1 then s1.updBlk e.g.blk fun b => { b with counters := SMap.set 0 b.counters c.toNat 0 } else s1)) s

/-! ### Destinations (R229, R230, R268) -/

/-- The block of a member of a block's cluster instance. -/
def State.member (s : State) (bk m : Nat) : Option (Nat × Blk) :=
  match s.blk bk with
  | none => none
  | some b => if b.clsz = 0 then none else
      List.find? (fun (e : Nat × Blk) => e.2.ctx == b.ctx && e.2.task == b.task && e.2.bid / b.clsz == b.bid / b.clsz && e.2.bid % b.clsz == m) s.blocks

/-- The home of n bytes at the slice offset an aperture address gives, on a cluster member's core (R230, R268). -/
def State.memberHome (s : State) (bk m va n : Nat) : Option Nat :=
  match s.member bk m with
  | none => none
  | some (_, o) =>
    let f := va / 2 ^ 20 % 4096; let off := va % 2 ^ 20
    if !isAperture va ∨ off + n > 2 ^ 20 then none
    else if f < 1152 then
      let bs := s.blocksOn o.ctx o.core
      if (List.range n).all fun i => bs.any fun b => decide (b.fbase ≤ off + i ∧ off + i < b.fbase + b.fsize) then some (slicePA o.core off) else none
    else if off + n ≤ o.fsize then some (slicePA o.core (o.fbase + off)) else none

/-- The home parts of n destination bytes, each by itself (R53): 24 stands for a command that is no CPYM. -/
def State.destParts (s : State) (bk m : Nat) (va : Int) (n : Nat) : List (Except (Cause × Nat × Nat × Bool) Part) :=
  let va := (va % 2 ^ 64).toNat
  if m = 24 then s.storeParts (s.blockAgent bk) n va n
  else match s.memberHome bk m va n with | some h => [.ok ⟨va, h, n, 1, false, true⟩] | none => [.error (.aperture, va, n, true)]

/-- Whether destination bytes lie in the aperture and are allotted on every receiving core (R229). -/
def State.apertureOk (s : State) (bk : Nat) (ms : List Nat) (base : Nat) (es : List (Int × Nat)) : Bool :=
  ms.all fun m => es.all fun e =>
    let va := (e.1 % 2 ^ 64).toNat
    if isAperture va || isAperture base then isAperture va && (s.destParts bk m e.1 e.2).all Except.isOk else true

/-- The elements of a layout record. -/
def layoutCount (rec : Nat) : Nat := (List.range 4).foldl (fun n i => n * (rec / 2 ^ (64 * i) % 2 ^ 32)) 1
/-- The elements a layout generates for a format's width. -/
def layoutElems (base rec bits : Nat) : Option (List (Int × Nat)) := genElems (base : Int) (BitVec.ofNat 256 rec) bits (layoutCount rec)

/-- Bytes arrive at a slice (R230): written, their granules set full under TAG, then, under BAR, an arrival on its way to the barrier word. -/
def State.arrival (s : State) (ws : List (Nat × Byte × Bool)) (tag : Bool) (bar : Option Nat) : State :=
  let s1 := s.programWrite ws
  let s2 := if tag then s1.fillTags (ws.map fun w => w.1 / 16).eraseDups else s1
  match bar with | some h => { s2 with bars := s2.bars ++ [(h, ws.length)] } | none => s2

/-- Packed destination bytes for a member: one arrival at each slice page they lie in; and the first fault. -/
def State.arrivals (s : State) (bk m : Nat) (es : List (Int × Nat × Nat × Bool)) (tag : Bool) (bar : Option Nat) : Option Cause × State :=
  let r := es.foldl (fun (acc : List (Nat × List (Nat × Byte × Bool)) × Option Cause) e =>
    let page := (e.1 % 2 ^ 64).toNat / 2 ^ 20
    let w := elemBytes e.2.2.1 e.2.2.2 (s.destParts bk m e.1 e.2.1)
    (if w.1.isEmpty then acc.1
     else if acc.1.any fun g => g.1 == page then acc.1.map fun g => if g.1 == page then (g.1, g.2 ++ w.1) else g else acc.1 ++ [(page, w.1)], acc.2.or w.2))
    ([], none)
  (r.2, r.1.foldl (init := if m = 24 then s.meetDests (s.blockAgent bk) es else s) (fun s g =>
    let home := match bar with
      | some off => (match s.destParts bk m ((g.1 * 2 ^ 20 + off : Nat) : Int) 8 with | .ok p :: _ => some p.home | _ => none)
      | none => none
    s.arrival g.2 tag home))

/-! ### CPY and CPYM (R228 to R230) -/

/-- Elements in an arrival of up to 512 bytes. -/
def pieceElems (bits : Nat) : Nat := 4096 / bits

/-- The formats a CPY names, with the ILLOP checks of its control word. -/
def copyFmts (ctl : Nat) : Option (Fmt × Fmt) :=
  let sf := ctl / 2 ^ 28 % 16; let df := ctl / 2 ^ 24 % 16; let sgn := ctl / 2 ^ 20 % 2 == 1
  if ctl % 8 ≠ 0 then none
  else match Fmt.ofCode sf sgn, Fmt.ofCode df sgn with
    | some a, some b =>
      if sf ≠ df ∧ (ctl / 2 ^ 21 % 8 = 7 ∨ [7, 13, 14].contains sf ∨ [7, 13, 14].contains df) then none else some (a, b)
    | _, _ => none

/-- CPY and CPYM (R228, R229): the checks and the acceptance. -/
def execCopy (i : Instr) (multi : Bool) (r t : BitVec 1) (c : BitVec 4) (a : BitVec 7) (s : State) : Outcome State Fault Refusal :=
  issueEffect i (fun e => do
    let (ws, z) := e.block a (if multi then 10 else 9)
    if z then throw (trap .poison)
    let mask := (ws.getD 9 0).toNat
    let ctl := (ws.getD 8 0).toNat
    if multi && 2 ^ 24 ≤ mask then throw (trap .illop)
    match copyFmts ctl with
    | none => throw (trap .illop)
    | some (sf, df) =>
      match e.readRecord (word64 ws 4) 32, e.readRecord (word64 ws 6) 32 with
      | .error x, _ => throw x.1
      | _, .error x => throw x.1
      | .ok sl, .ok dl =>
        let src := word64 ws 0; let dst := word64 ws 2
        match layoutElems src sl sf.bits, layoutElems dst dl df.bits with
        | some ss, some ds =>
          if ss.length ≠ ds.length then throw (trap .illop)
          if (multi || r == 1 || t == 1) && !isAperture dst then throw (trap .access)
          let ms := if multi then (List.range 24).filter fun m => mask.testBit m else [24]
          let bytes := ds.map fun d => (d.1, max 1 (df.bits / 8))
          let bar := if r == 1 then [(((dst / 2 ^ 20 * 2 ^ 20 + ctl % 2 ^ 20 : Nat) : Int), 8)] else []
          if multi && e.b.clsz = 0 then throw (trap .task)
          if !s.apertureOk e.g.blk ms dst (bytes ++ bar) then throw (trap .aperture)
          let rm := ctl / 2 ^ 21 % 8
          let mode := if rm = 6 then (e.g.rmode.extractLsb' 0 3).toNat else rm
          let sr := sf != df && mode == 5
          let s1 := if sr then s.updGrp e.gk fun g => { g with srn := SMap.upd 0 g.srn 127 (· + BitVec.ofNat 32 ss.length) } else s
          let pieces := (ss.length + pieceElems df.bits - 1) / pieceElems df.bits
          let key := e.b.task * 2 ^ 16 + (e.g.rmode.extractLsb' 16 16).toNat
          let left := ms.flatMap fun m => (List.range pieces).map fun p => (m, p)
          pure (e.accepted s1 (if multi then 5 else 4) c.toNat
            [src, dst, sl, dl, ctl, mode, e.g.srSeq 127, key, e.b.bid, e.g.gix, t.toNat, r.toNat] left)
        | _, _ => throw (trap .illop)) s

/-- CPY (R228). -/
def execCpy (stl : BitVec 3) (r t : BitVec 1) (c : BitVec 4) (a : BitVec 7) (s : State) : Outcome State Fault Refusal :=
  execCopy (.cpy stl r t c a) false r t c a s
/-- CPYM (R228). -/
def execCpym (stl : BitVec 3) (r t : BitVec 1) (c : BitVec 4) (a : BitVec 7) (s : State) : Outcome State Fault Refusal :=
  execCopy (.cpym stl r t c a) true r t c a s

/-- The elements of one piece as read and converted (R230), with their poison and flags, among which SI is not (R87); or the fault of reading
them. -/
def State.copyRead (s : State) (c : EngCmd) (sf df : Fmt) (p : Nat) : Except Cause (List (Nat × Bool) × BitVec 6 × State) :=
  let n := pieceElems df.bits
  let ss := (layoutElems (c.arg 0) (c.arg 2) sf.bits).getD []
  match s.readElems (s.blockAgent c.bk) sf.bits ((ss.drop (p * n)).take n) with
  | .error e => .error e.1
  | .ok (xs, s1) =>
    let rho (k : Nat) : Nat := ((mixPacked (BitVec.ofNat 64 (c.arg 7)) (packKey (c.arg 8) (c.arg 9) 127 ((c.arg 6 + k) % 2 ^ 32))).extractLsb' 0 16).toNat
    let ys := xs.zipIdx.map fun x =>
      if sf = df then (x.1.1, (0 : BitVec 6), x.1.2)
      else let y := fConvert sf df ((RMode.ofCode (c.arg 5) (rho (p * n + x.2))).getD .rne) x.1.1; (y.1, y.2 &&& 0x1F, x.1.2)
    .ok (ys.map fun y => (y.1, y.2.2), ys.foldl (fun f y => f ||| y.2.1) 0, s1)

/-- The elements of piece p: those a CPYM has read before for another member, else as they are read now (R230: the source is read once). -/
def State.copyPiece (s : State) (c : EngCmd) (sf df : Fmt) (p : Nat) : Except Cause (EngCmd × List (Nat × Bool) × State) :=
  match c.pieces.find? fun x => x.1 == p with
  | some x => .ok (c, x.2, s)
  | none => match s.copyRead c sf df p with
    | .error e => .error e
    | .ok (ys, fl, s1) => .ok ({ c with flags := c.flags ||| fl, pieces := if c.kind = 5 then c.pieces ++ [(p, ys)] else c.pieces }, ys, s1)

/-- COPY_ARRIVAL: one arrival of a CPY or CPYM; a fault ends the command. -/
def eventCopyArrival (s : State) : State :=
  match s.ecmd (s.arg 0) with
  | none => s
  | some c =>
    let at' := (s.arg 1, s.arg 2)
    match if (c.kind == 4 || c.kind == 5) && c.left.contains at' then copyFmts (c.arg 4) else none with
    | none => s
    | some (sf, df) =>
      match s.copyPiece c sf df at'.2 with
      | .error cause =>
        let src := ((((layoutElems (c.arg 0) (c.arg 2) sf.bits).getD []).drop (at'.2 * pieceElems df.bits)).take (pieceElems df.bits)).map fun e => (e.1, max 1 (sf.bits / 8))
        (s.meetList (s.blockAgent c.bk) src).setEcmd { c with left := [], pieces := [], cause := cause.code }
      | .ok (c1, ys, s1) =>
        let n := pieceElems df.bits
        let ds := ((layoutElems (c.arg 1) (c.arg 3) df.bits).getD []).drop (at'.2 * n)
        let es := s1.packElems (fun va => s.destParts c.bk at'.1 va 1) df.bits (ds.zip ys)
        let (bad, s2) := s1.arrivals c.bk at'.1 es (c.arg 10 == 1) (if c.arg 11 = 1 then some (c.arg 4 % 2 ^ 20) else none)
        let left := c.left.erase at'
        match bad with
        | some cause => s2.setEcmd { c1 with left := [], pieces := [], cause := cause.code }
        | none => s2.setEcmd { c1 with left := left, pieces := c1.pieces.filter fun x => left.any fun a => a.2 == x.1 }

/-- COPY_COMPLETE: a CPY, CPYM or DEC with nothing left to arrive completes (R208). -/
def eventCopyComplete (s : State) : State :=
  match s.ecmd (s.arg 0) with
  | none => s
  | some c => if (c.kind == 4 || c.kind == 5 || c.kind == 6) && c.left.isEmpty && s.bars.isEmpty then s.ecmdDone c else s

/-! ### DEC (R231, R276, R401) -/

/-- DEC (R228, R229): the checks and the acceptance. -/
def execDec (stl : BitVec 3) (r t : BitVec 1) (c : BitVec 4) (a : BitVec 7) (s : State) : Outcome State Fault Refusal :=
  issueEffect (.dec stl r t c a) (fun e => do
    let (ws, z) := e.block a 9
    if z then throw (trap .poison)
    let ctl := (ws.getD 8 0).toNat
    let table := (ws.getD 5 0).toNat
    if 2 ^ 20 ≤ ctl ∨ ctl % 8 ≠ 0 ∨ 64 ≤ table then throw (trap .illop)
    let src := word64 ws 0; let dst := word64 ws 2
    if src % 16 ≠ 0 then throw (trap .misalign)
    match e.readRecord (word64 ws 6) 32 with
    | .error x => throw x.1
    | .ok dl =>
      match layoutElems dst dl 8 with
      | none => throw (trap .illop)
      | some ds =>
        if !isAperture dst then throw (trap .access)
        let bar := if r == 1 then [(((dst / 2 ^ 20 * 2 ^ 20 + ctl % 2 ^ 20 : Nat) : Int), 8)] else []
        if !s.apertureOk e.g.blk [24] dst ((ds.map fun d => (d.1, 1)) ++ bar) then throw (trap .aperture)
        -- args: stream position, destination, layout, control, table, chunks, TAG, BAR, the table read at the first chunk
        pure (e.accepted s 6 c.toNat [src, dst, dl, ctl, table, (ws.getD 4 0).toNat, t.toNat, r.toNat, 0]
          ((List.range ((ds.length + 4095) / 4096)).map fun k => (24, k)))) s

/-- Symbols decoded from bits with their poison (R231, R401), `len`, `acc` and `z` the code read so far: none at a code that is unassigned, cut
off or too many bits. A symbol takes the poison of its code's bits. -/
def decodeSyms (codes : List (Nat × Nat × Nat)) (want : Nat) : List (Bool × Bool) → Nat → Nat → Bool → List (Nat × Bool) → Option (List (Nat × Bool))
  | [], len, _, _, out => if len = 0 ∧ out.length = want then some out.reverse else none
  | b :: bs, len, acc, z, out =>
    if want ≤ out.length then none
    else
      let len := len + 1; let acc := 2 * acc + b.1.toNat; let z := z || b.2
      match codes.find? fun x => x.1 == len && x.2.1 == acc with
      | some x => decodeSyms codes want bs 0 0 false ((x.2.2, z) :: out)
      | none => if 16 ≤ len then none else decodeSyms codes want bs len acc z out

/-- Whether a DEC may decode its first chunk: every TBLLD of its context accepted before it has reloaded the code table it names. -/
def State.tableReady (s : State) (c : EngCmd) : Bool :=
  let ctx := (s.blockAgent c.bk).ctx
  (s.ecmds.takeWhile fun x => x.id != c.id).all fun x =>
    !(x.kind == 8 && x.arg 0 == 4 && (s.blockAgent x.bk).ctx == ctx && decide (x.arg 2 ≤ c.arg 4 ∧ c.arg 4 < x.arg 2 + x.arg 3))

/-- One chunk of a DEC: the decoded bytes with their poison, the place of the next chunk; or the failure. -/
def State.decChunk (s : State) (c : EngCmd) (table want : Nat) : Except Cause (List (Nat × Bool) × Nat × State) :=
  let ag := s.blockAgent c.bk
  match s.readVa ag (c.arg 0) 2 with
  | .error e => .error e.1
  | .ok (n, z, s1) =>
    let bytes := (n + 7) / 8
    match s1.readVaMarked ag ((c.arg 0 : Int) + 2) bytes with
    | .error e => .error e.1
    | .ok (x, ws, s2) =>
      match decodeSyms (codesOf table) want ((List.range n).map fun i => (x.testBit i, ws.getD (i / 8) z)) 0 0 false [] with
      | none => .error .access
      | some ys => .ok (ys, (c.arg 0 + 2 + bytes + 15) / 16 * 16, s2)

/-- The slices a DEC decodes into, by core: footprints begin and end at multiples of 4 KiB (R266), so one byte of each 4 KiB tells where it lies. -/
def State.decPorts (s : State) (c : EngCmd) : List Nat :=
  let pages := (((layoutElems (c.arg 1) (c.arg 2) 8).getD []).map fun e => e.1 / 2 ^ 12).eraseDups
  (pages.filterMap fun p => match s.destParts c.bk 24 (p * 2 ^ 12) 1 with | .ok x :: _ => some (coreOfPA x.home) | _ => none).eraseDups

/-- A DEC whose first chunk has been decoded and that has more to come. -/
def EngCmd.decoding (c : EngCmd) : Bool := c.kind == 6 && match c.left with | (_, k) :: _ => k != 0 | [] => false
/-- Whether a DEC whose first chunk has reached a port this one decodes at is still decoding there (R276); of two whose ports a move has made one,
the command issued first goes on (log entry 119). -/
def State.portTaken (s : State) (c : EngCmd) : Bool :=
  s.ecmds.any fun x => x.decoding && (if c.decoding then decide (x.id < c.id) else x.id != c.id)
    && (s.decPorts x).any fun p => (s.decPorts c).contains p

/-- The bytes of chunk k arrive at their places, 512 at a time (R276): the first fault, and the state after. -/
def State.decArrive (s : State) (c : EngCmd) (k : Nat) (ys : List (Nat × Bool)) : Option Cause × State :=
  let ds := (layoutElems (c.arg 1) (c.arg 2) 8).getD []
  let es := (((ds.drop (4096 * k)).take ys.length).zip ys).map fun e => (e.1.1, 1, e.2.1, e.2.2)
  let bar := if c.arg 7 = 1 then some (c.arg 3 % 2 ^ 20) else none
  ((List.range ((ys.length + 511) / 512)).map fun p => (es.drop (512 * p)).take 512).foldl (fun (acc : Option Cause × State) p =>
    let a := acc.2.arrivals c.bk 24 p (c.arg 6 == 1) bar; (acc.1.or a.1, a.2)) (none, s)

/-- DEC_CHUNK_DECODE: the next chunk (R231, R276), of one command at a time at a port. The table is read once, at the first chunk; a chunk count that disagrees with the
element count fails the command there. -/
def eventDecChunkDecode (s : State) : State :=
  match s.ecmd (s.arg 0) with
  | none => s
  | some c =>
    match if c.kind == 6 && s.tableReady c && !s.portTaken c then c.left else [] with
    | [] => s
    | (_, k) :: rest =>
      let ctx := (s.blockAgent c.bk).ctx
      let codes := (tabKind (s.ctx ctx) 4).1 + 256 * c.arg 4
      let s := if k = 0 then ((s.ctx ctx).tabLines codes 256).foldl (fun s l => (s.meetWord (some ctx) l.1 l.2).1) s else s
      let fail (cause : Cause) : State :=
        let ag := s.blockAgent c.bk
        let n := match s.loadNow ag (c.arg 0) 2 with | .ok x => (x.1 + 7) / 8 | .error _ => 0
        (s.meetList ag [((c.arg 0 : Int), 2), ((c.arg 0 + 2 : Nat), n)]).setEcmd { c with left := [], cause := cause.code }
      let table : Except Cause Nat :=
        if k ≠ 0 then .ok (c.arg 8)
        else match s.tabEntry ctx 4 (c.arg 4) with
          | some (x, false) => if codesLoaded x then .ok x else .error .access
          | some (_, true) => .error .poison
          | none => .error .access
      let ds := (layoutElems (c.arg 1) (c.arg 2) 8).getD []
      match table with
      | .error cause => s.setEcmd { c with left := [], cause := cause.code }
      | .ok tb =>
        if k = 0 ∧ c.arg 5 ≠ (ds.length + 4095) / 4096 then s.setEcmd { c with left := [], cause := Cause.access.code }
        else
          let want := min 4096 (ds.length - 4096 * k)
          match s.decChunk c tb want with
          | .error cause => fail cause
          | .ok (ys, next, s1) =>
            let r := s1.decArrive c k ys
            let c1 := { c with args := next :: ((c.args.drop 1).take 7 ++ [tb]) }
            match r.1 with
            | some cause => r.2.setEcmd { c1 with left := [], cause := cause.code }
            | none => r.2.setEcmd { c1 with left := rest }

/-! ### TBLLD (R234, R393, R394) -/

/-- TBLLD (R234). -/
def execTblld (stl : BitVec 3) (k a c : BitVec 7) (s : State) : Outcome State Fault Refusal :=
  issueEffect (.tblld stl k a c) (fun e =>
    let (ws, z) := e.block a 4
    let first := (ws.getD 2 0).toNat; let count := (ws.getD 3 0).toNat
    if z then .error (trap .poison)
    else if count = 0 ∨ 256 < count ∨ (tabKind (s.ctx e.b.ctx) k.toNat).2.1 < first + count then .error (trap .access)
    else .ok (e.accepted s 8 c.toNat [k.toNat, word64 ws 0, first, count, s.clock] [])) s

/-- Whether an image entry keeps the rules of its kind (R393): one that holds nothing (VALID or KIND 0) need only have zeros where they must be (log
entry 123). -/
def entryOk (kind e : Nat) (blocks : BitVec 512) : Bool :=
  match kind with
  | 0 => let x := Net.of e; (e % 2 == 0 && x.zeros) || (x.fieldsOk && (List.range x.layers).all (x.layerOk blocks))
  | 1 => (entryField e 73 1 == 0 && specZeros e) || specLoaded e
  | 2 => (entryField e 262 3 == 0 && texZeros e) || texLoaded e
  | 3 => (entryField e 31 1 == 0 && sampZeros e) || sampLoaded e
  | _ => e == 0 || codesLoaded e

/-- The image of a reload (R234): the entries, with the format blocks read for kind 0; or the failure. -/
def State.tableImage (s : State) (c : EngCmd) : Except Cause (List (Nat × BitVec 512)) × State :=
  let ag := s.blockAgent c.bk
  let bytes := (tabKind (s.ctx ag.ctx) (c.arg 0)).2.2
  match s.readVa ag (c.arg 1) (bytes * c.arg 3) with
  | .error e => (.error e.1, s.meetVa ag (c.arg 1) (bytes * c.arg 3))
  | .ok (_, true, s1) => (.error .poison, s1)
  | .ok (x, false, s1) =>
    let es := (List.range (c.arg 3)).map fun k => x / 2 ^ (8 * bytes * k) % 2 ^ (8 * bytes)
    let nets := if c.arg 0 = 0 then (es.filter fun e => e % 2 == 1).map Net.of else []
    let s2 := nets.foldl (fun (s : State) x => s.meetVa ag x.fmtb (16 * x.layers)) s1
    let rows : Except Cause (List (Nat × BitVec 512)) := es.mapM fun e =>
      if c.arg 0 = 0 ∧ e % 2 = 1 then
        match s2.readBlocks ag (Net.of e) with | .ok b => .ok (e, b) | .error x => .error x
      else .ok (e, 0)
    match rows with
    | .error cause => (.error cause, s2)
    | .ok rs => (if rs.all fun r => entryOk (c.arg 0) r.1 r.2 then .ok rs else .error .access, s2)

/-- Whether a handle of a context is in a command's range. -/
def EngCmd.covers (c : EngCmd) (h : Nat) : Bool := decide (c.arg 2 ≤ h ∧ h < c.arg 2 + c.arg 3)

/-- Entries written by the control processor: lookups read them from then on (R393). -/
def State.writeEntries (s : State) (ctx kind first : Nat) (es : List Nat) : State :=
  let c := s.ctx ctx
  let (off, _, bytes) := tabKind c kind
  let cells := es.zipIdx.flatMap fun e =>
    (c.tabLines (off + bytes * (first + e.2)) bytes).zipIdx.flatMap fun l => leBytes l.1.1 false l.1.2 (e.1 / 2 ^ (512 * l.2))
  let s1 := s.performWrite cells
  { s1 with codeWas := s1.codeWas.filter fun w => !(w.1 == ctx && cells.any fun x => x.1 / 64 == w.2.1) }

/-- The slots of handles a reload covers are dropped (R234). -/
def State.dropHandles (s : State) (ctx : Nat) (c : EngCmd) : State :=
  (s.cores.map (·.1)).foldl (fun s k => s.updMx k fun m => { m with handles := m.handles.filter fun h => !(h.ctx == ctx && c.covers h.handle) }) s

/-- The clocks a reload took, from its acceptance on, are charged to its block's quantum (R234, R361). -/
def State.chargeReload (s : State) (c : EngCmd) : State :=
  s.updBlk c.bk fun b => { b with used := if b.quantum = 0 then b.used else min (b.quantum * 1024) (b.used + (s.clock - c.arg 4)) }

/-- TBLLD_RELOAD (R234, R288, R394): what the path stored before has been performed; lookups accepted before have drained; the entries are written, or none of the range is left valid. -/
def eventTblldReload (s : State) : State :=
  match s.ecmd (s.arg 0) with
  | none => s
  | some c =>
    let ctx := (s.blockAgent c.bk).ctx
    let tile (t : CTile) : Bool := t.ctx == ctx && c.covers t.handle
    let cores := s.cores.map (·.1)
    let mine := c.arg 0 == 0
    if c.kind != 8 || s.uncleared c.gk c.mask c.id then s
    else if mine && cores.any fun k => (s.mx k).tiles.any fun t => tile t && t.st == 0 then
      cores.foldl (fun s k => s.closeTiles k tile) s
    else if mine && cores.any fun k => (s.mx k).tiles.any tile then s
    else if c.arg 0 == 4 && (s.ecmds.takeWhile fun x => x.id != c.id).any fun x =>
        x.kind == 6 && (s.blockAgent x.bk).ctx == ctx && c.covers (x.arg 4) && x.left.any fun l => l.2 == 0 then s
    else
      let s1 := if mine then s.dropHandles ctx c else s
      let keep (cs : SMap (Bool × Option (BitVec 512))) : SMap (Bool × Option (BitVec 512)) := if mine then cs.filter fun e => !c.covers e.1 else cs
      match s1.tableImage c with
      | (.error cause, s1) =>
        let s2 := s1.writeEntries ctx (c.arg 0) (c.arg 2) (List.replicate (c.arg 3) 0)
        ((s2.updCtx ctx fun k => { k with netCopies := keep k.netCopies }).chargeReload c).ecmdDone { c with cause := cause.code }
      | (.ok rs, s2) =>
        let s3 := s2.writeEntries ctx (c.arg 0) (c.arg 2) (rs.map (·.1))
        let add (cs : SMap (Bool × Option (BitVec 512))) : SMap (Bool × Option (BitVec 512)) :=
          if mine then rs.zipIdx.foldl (fun m r => SMap.put m (c.arg 2 + r.2) (true, some r.1.2)) (keep cs) else cs
        ((s3.updCtx ctx fun k => { k with netCopies := add k.netCopies }).chargeReload c).ecmdDone c

end Sys2Proof.Machine
end

