-- ==== Sys2Proof/Machine/Rays.lean ====
section
/-! DEFINITION. Rays (R211 to R217, R312 to R318): TRACE, HITC, HITA and SPAWN, and the traversal of the two-level structure, one node or
record a step, with every geometric quantity exact. -/
namespace Sys2Proof.Machine
open Sys2Proof Host

/-! ### Exact geometry (R313, R316, R317) -/

def f32 (n : Nat) : FVal := Fmt.fp32.value n
/-- The rational of finite FP32 bits. -/
def q32 (n : Nat) : Rat := (f32 n).rat
/-- Words of 32 bits of a record from bit `lo`. -/
def wordsAt (x lo n : Nat) : List Nat := (List.range n).map fun i => x / 2 ^ (lo + 32 * i) % 2 ^ 32

/-- An interval of reals; none stands for an infinite end. -/
structure Span where
  lo : Option Rat
  hi : Option Rat
  empty : Bool
  deriving DecidableEq, Repr

def Span.all : Span := ⟨none, none, false⟩
def Span.none : Span := ⟨Option.none, Option.none, true⟩
/-- The intersection of two intervals. -/
def Span.meet (a b : Span) : Span :=
  let lo := match a.lo, b.lo with | some x, some y => some (max x y) | some x, Option.none => some x | Option.none, y => y
  let hi := match a.hi, b.hi with | some x, some y => some (min x y) | some x, Option.none => some x | Option.none, y => y
  ⟨lo, hi, a.empty || b.empty || (match lo, hi with | some x, some y => decide (y < x) | _, _ => false)⟩
/-- A bound as an end: a lower end of +∞ or an upper of −∞ leaves nothing. -/
def Span.ofEnds (lo hi : FVal) : Span :=
  match lo, hi with
  | .nan _, _ | _, .nan _ | .inf false, _ | _, .inf true => Span.none
  | l, h => ⟨match l with | .inf _ => Option.none | v => some v.rat, match h with | .inf _ => Option.none | v => some v.rat, false⟩

/-- The slab of one axis (R316): the t with o + t·d inside the interval. -/
def slab (o d : Rat) (x : Span) : Span :=
  if x.empty then Span.none
  else if d = 0 then
    if (match x.lo with | some l => decide (l ≤ o) | Option.none => true) && (match x.hi with | some h => decide (o ≤ h) | Option.none => true)
    then Span.all else Span.none
  else
    let f (e : Option Rat) : Option Rat := e.map fun v => (v - o) / d
    if 0 < d then ⟨f x.lo, f x.hi, false⟩ else ⟨f x.hi, f x.lo, false⟩

/-- tmax′ (R213). -/
def Trav.limit (t : Trav) : FVal := match t.best with | some h => h.t | Option.none => f32 t.tmax
/-- The interval [tmin, tmax′]. -/
def Trav.range (t : Trav) : Span := Span.ofEnds (f32 t.tmin) t.limit
/-- The intersection of a box's slabs with [tmin, tmax′] (R316). -/
def Trav.enter (t : Trav) (sp : Space) (box : List Span) : Span :=
  (List.range 3).foldl (fun a i => a.meet (slab (q32 (sp.o.getD i 0)) (q32 (sp.d.getD i 0)) (box.getD i Span.none))) t.range
/-- The entry distance of a non-empty intersection. -/
def Span.first (a : Span) : FVal := match a.lo with | some x => FVal.ofRat x | Option.none => .inf true
/-- a ≤ b among values that are no NaN. -/
def FVal.le (a b : FVal) : Bool := match a, b with
  | .inf true, _ => true | _, .inf false => true | .inf false, _ => false | _, .inf true => false | a, b => decide (a.rat ≤ b.rat)
def FVal.lt (a b : FVal) : Bool := !b.le a

/-- τ (R213): the time clamped to [0, 1], a NaN read as 0. -/
def Trav.tau (t : Trav) : Rat := match f32 t.time with
  | .nan _ => 0 | .inf n => if n then 0 else 1 | v => max 0 (min 1 v.rat)
def lerp (tau a b : Rat) : Rat := (1 - tau) * a + tau * b

def vec3 (l : List Rat) : Rat × Rat × Rat := (l.getD 0 0, l.getD 1 0, l.getD 2 0)
def vsub (a b : Rat × Rat × Rat) : Rat × Rat × Rat := (a.1 - b.1, a.2.1 - b.2.1, a.2.2 - b.2.2)
def vdot (a b : Rat × Rat × Rat) : Rat := a.1 * b.1 + a.2.1 * b.2.1 + a.2.2 * b.2.2
def vcross (a b : Rat × Rat × Rat) : Rat × Rat × Rat :=
  (a.2.1 * b.2.2 - a.2.2 * b.2.1, a.2.2 * b.1 - a.1 * b.2.2, a.1 * b.2.1 - a.2.1 * b.1)
def Space.origin (sp : Space) : Rat × Rat × Rat := vec3 (sp.o.map q32)
def Space.dir (sp : Space) : Rat × Rat × Rat := vec3 (sp.d.map q32)

/-- The exact triangle test (R317): t, u, v and the face. -/
def triHit (sp : Space) (a b c : Rat × Rat × Rat) : Option (Rat × Rat × Rat × Bool) :=
  let e1 := vsub b a; let e2 := vsub c a
  let n := vcross e1 e2
  let nd := vdot n sp.dir; let nn := vdot n n
  if nn = 0 ∨ nd = 0 then none
  else
    let t := vdot n (vsub a sp.origin) / nd
    let d := sp.dir
    let p := vsub (sp.origin.1 + t * d.1, sp.origin.2.1 + t * d.2.1, sp.origin.2.2 + t * d.2.2) a
    let u := vdot (vcross p e2) n / nn
    let v := vdot (vcross e1 p) n / nn
    if 0 ≤ u ∧ 0 ≤ v ∧ u + v ≤ 1 then some (t, u, v, decide (nd < 0)) else none

/-- The ray in an instance's space (R316); none when the instance is not entered. -/
def Space.into (sp : Space) (m : List Nat) (inst user : Nat) (fopq : Bool) : Option Space :=
  let row (i : Nat) (w : Rat) (v : Rat × Rat × Rat) : Nat :=
    let e (j : Nat) : Rat := q32 (m.getD (4 * i + j) 0)
    (roundTo .fp32 .rne (FVal.ofRat (e 0 * v.1 + e 1 * v.2.1 + e 2 * v.2.2 + e 3 * w))).1
  let o := (List.range 3).map fun i => row i 1 sp.origin
  let d := (List.range 3).map fun i => row i 0 sp.dir
  if (o ++ d).any (fun x => !finite32 x) || d.all (fun x => q32 x == 0) then none else some ⟨o, d, true, inst, user, fopq⟩

/-! ### Reading the structure (R312 to R315) -/

/-- n bytes of the structure, with its fetch rights, each line as a traversal cache may read it (R315), or FCAUSE. -/
def State.readStructure (s : State) (ag : Agent) (va n align : Nat) : Except Nat (Nat × State) :=
  if va % align ≠ 0 then .error Cause.misalign.code
  else if isAperture va then .error Cause.access.code
  else match s.resolve ag .read va n with
    | .error e => .error e.1.code
    | .ok ps =>
      if ps.any (·.host) then .error Cause.access.code
      else
        let (_, z, s1) := (s.meetWalks ag .read va n).readHomes (some ag.ctx) ps
        if z then .error Cause.poison.code else .ok ((s1.seenParts ag.ctx (2 ^ 41 + ag.core) ps).1, s1)

/-- The children of an internal node (R312): index, kind, count and address. -/
def nodeChildren (x : Nat) : List (Nat × Nat × Nat × Nat) :=
  let byte (i : Nat) : Nat := x / 2 ^ (192 + 8 * i) % 256
  let units (b : Nat) : Nat := match b / 32 with | 0 => 0 | 1 => 2 | 3 => 2 * (b % 32 + 1) | _ => b % 32 + 1
  let base := x / 2 ^ 128 % 2 ^ 64
  (List.range 8).map fun i => (i, byte i / 32, byte i % 32 + 1, base + 64 * ((List.range i).map fun j => units (byte j)).foldl (· + ·) 0)

/-- The rules of an internal node (R312, R313): FCAUSE of a broken one, 0 for none. -/
def nodeDefect (x : Nat) (bottom : Bool) : Nat :=
  let base := x / 2 ^ 128 % 2 ^ 64
  let byte (i : Nat) : Nat := x / 2 ^ (192 + 8 * i) % 256
  let badKind (b : Nat) : Bool := match b / 32 with
    | 0 | 1 => b % 32 != 0 | 2 | 3 | 4 => !bottom | 5 => bottom | _ => true
  if base % 128 ≠ 0 then Cause.misalign.code
  else if base / 2 ^ 56 ≠ 0 ∨ x / 2 ^ 121 % 128 ≠ 0 ∨ (x / 2 ^ 120 % 2 = 0 ∧ x / 2 ^ 640 ≠ 0)
      || (List.range 3).any (fun a => x / 2 ^ (96 + 8 * a) % 256 == 255 || !finite32 (x / 2 ^ (32 * a) % 2 ^ 32))
      || (List.range 8).any (fun i => badKind (byte i)) then Cause.access.code
  else 0

/-- The box of child i at τ (R313, R316); a child whose bounds cross at either time is never entered. -/
def childBox (x i : Nat) (tau : Rat) : List Span :=
  let motion := x / 2 ^ 120 % 2 = 1
  let q (lo a : Nat) : Nat := x / 2 ^ (lo + 8 * (3 * i + a)) % 256
  (List.range 3).map fun a =>
    let org := q32 (x / 2 ^ (32 * a) % 2 ^ 32)
    let sc := pow2 ((x / 2 ^ (96 + 8 * a) % 256 : Nat) - 127)
    let bound (k : Nat) : Rat := org + (k : Rat) * sc
    if q 448 a < q 256 a ∨ (motion ∧ q 832 a < q 640 a) then Span.none
    else if motion then ⟨some (lerp tau (bound (q 256 a)) (bound (q 640 a))), some (lerp tau (bound (q 448 a)) (bound (q 832 a))), false⟩
    else ⟨some (bound (q 256 a)), some (bound (q 448 a)), false⟩

/-- Insertion by entry distance, ties after. -/
def insertVisit (v : Visit) : List Visit → List Visit
  | [] => [v]
  | w :: r => if v.entry.lt w.entry then v :: w :: r else w :: insertVisit v r

/-- The children of a node to visit, nearest entry first (R213). -/
def Trav.expand (t : Trav) (x : Nat) (v : Visit) : List Visit :=
  let kids := (nodeChildren x).filterMap fun c =>
    if c.2.1 = 0 then none
    else
      let m := t.enter v.space (childBox x c.1 t.tau)
      if m.empty then none
      else some (⟨if c.2.1 = 1 then 1 else 32 * c.2.1 + (c.2.2.1 - 1), c.2.2.2, v.space, m.first, v.depth + (if c.2.1 = 1 then 1 else 0)⟩ : Visit)
  kids.foldl (fun l k => insertVisit k l) []

/-! ### One step of a traversal -/

def Trav.failWith (t : Trav) (cause : Nat) : Trav := { t with todo := [], cand := none, fault := cause }

/-- (instance, primitive) order (R213). -/
def Hit.pairBefore (a b : Hit) : Bool := decide (a.space.inst < b.space.inst ∨ (a.space.inst = b.space.inst ∧ a.prim < b.prim))

/-- Whether a primitive hit counts (R213): tmin ≤ t < tmax′, or the t of the closest hit with a lower pair. -/
def Trav.counts (t : Trav) (h : Hit) : Bool :=
  (f32 t.tmin).le h.t && (h.t.lt t.limit || (match t.best with | some b => h.t.le b.t && b.t.le h.t && h.pairBefore b && h.t.lt (f32 t.tmax) | none => false))

/-- A hit is accepted (R213): .FIRST ends the traversal. -/
def Trav.accept (t : Trav) (h : Hit) : Trav :=
  let t := { t with best := some h, cand := none }
  if t.flags.testBit 1 then { t with todo := [] } else t

/-- A triangle record (R314, R317). -/
def Trav.triangle (t : Trav) (sp : Space) (x : Nat) (motion : Bool) : Trav :=
  if x / 2 ^ 353 % 128 ≠ 0 ∨ x / 2 ^ 360 % 2 ^ 152 ≠ 0 ∨ (motion ∧ x / 2 ^ 800 ≠ 0) then t.failWith Cause.access.code
  else
    let v0 := wordsAt x 0 9; let v1 := wordsAt x 512 9
    if v0.any (fun w => !finite32 w) || (motion && v1.any fun w => !finite32 w) then t
    else
      let c (i : Nat) : Rat := if motion then lerp t.tau (q32 (v0.getD i 0)) (q32 (v1.getD i 0)) else q32 (v0.getD i 0)
      match triHit sp (c 0, c 1, c 2) (c 3, c 4, c 5) (c 6, c 7, c 8) with
      | none => t
      | some (d, u, v, front) =>
        let h : Hit := ⟨1, FVal.ofRat d, FVal.ofRat u, FVal.ofRat v, front, x / 2 ^ 288 % 2 ^ 32, x / 2 ^ 320 % 2 ^ 32, sp⟩
        if !t.counts h || (t.flags.testBit 2 && !front) || (t.flags.testBit 3 && front) then t
        else if t.flags.testBit 0 || sp.fopq || x / 2 ^ 352 % 2 == 1 then t.accept h
        else { t with cand := some h }

/-- A procedural record (R314, R316). -/
def Trav.procedural (t : Trav) (sp : Space) (x : Nat) : Trav :=
  if x / 2 ^ 353 % 128 ≠ 0 ∨ x / 2 ^ 360 % 2 ^ 152 ≠ 0 ∨ x / 2 ^ 192 % 2 ^ 96 ≠ 0 then t.failWith Cause.access.code
  else if t.flags.testBit 4 then t
  else
    let lo := wordsAt x 0 3; let hi := wordsAt x 96 3
    let box := (List.range 3).map fun a =>
      let l := f32 (lo.getD a 0); let h := f32 (hi.getD a 0)
      if h.lt l then Span.none else Span.ofEnds l h
    let m := t.enter sp box
    let h : Hit := ⟨2, m.first, .zero false, .zero false, false, x / 2 ^ 288 % 2 ^ 32, x / 2 ^ 320 % 2 ^ 32, sp⟩
    if m.empty || !t.counts h then t else { t with cand := some h }

/-- An instance record (R213, R314 to R316). -/
def Trav.instanceRec (t : Trav) (v : Visit) (x : Nat) : Trav :=
  let m := wordsAt x 0 12
  let broot := x / 2 ^ 384 % 2 ^ 64
  if v.addr < t.root ∨ t.root + 2 ^ 38 ≤ v.addr then t.failWith Cause.access.code
  else if broot % 128 ≠ 0 then t.failWith Cause.misalign.code
  else if x / 2 ^ 496 ≠ 0 ∨ x / 2 ^ 489 % 128 ≠ 0 ∨ broot / 2 ^ 56 ≠ 0 || m.any (fun w => !finite32 w) then t.failWith Cause.access.code
  else if x / 2 ^ 480 % 256 &&& t.mask = 0 then t
  else match v.space.into m ((v.addr - t.root) / 64) (x / 2 ^ 448 % 2 ^ 32) (x / 2 ^ 488 % 2 == 1) with
    | none => t
    | some sp => { t with todo := ⟨1, broot, sp, .inf true, v.depth + 1⟩ :: t.todo }

/-- One node or record is visited. -/
def State.travStep (s : State) (ag : Agent) (t : Trav) : Trav × State :=
  match t.todo with
  | [] => (t, s)
  | v :: rest =>
    let t := { t with todo := rest }
    if !v.entry.le t.limit then (t, s)
    else if 32 ≤ v.kind then
      let size := if v.kind / 32 = 3 then 128 else 64
      let recs := (List.range (v.kind % 32 + 1)).map fun k => (⟨v.kind / 32, v.addr + size * k, v.space, .inf true, v.depth⟩ : Visit)
      ({ t with todo := recs ++ rest }, s)
    else if v.kind = 1 then
      if 64 < v.depth then (t.failWith Cause.access.code, s)
      else match s.readStructure ag v.addr 128 128 with
        | .error c => (t.failWith c, s)
        | .ok (x, s1) =>
          match nodeDefect x v.space.bottom with
          | 0 => ({ t with todo := t.expand x v ++ rest }, s1)
          | c => (t.failWith c, s1)
    else
      match s.readStructure ag v.addr (if v.kind = 3 then 128 else 64) 64 with
      | .error c => (t.failWith c, s)
      | .ok (x, s1) =>
        (match v.kind with
          | 2 => t.triangle v.space x false | 3 => t.triangle v.space x true
          | 4 => t.procedural v.space x | _ => t.instanceRec v x, s1)

/-! ### Reports (R212, R213, R215) -/

def bits32 (v : FVal) : Nat := (roundTo .fp32 .rne v).1

/-- The KIND a due report has (R212), and its hit. -/
def Trav.outcome (t : Trav) : Nat × Option Hit :=
  if t.empty then (4, none)
  else if t.fault ≠ 0 then (5, none)
  else match t.cand with
    | some h => (h.kind, some h)
    | none => match t.best with | some h => (3, some h) | none => (0, none)

/-- The result span of a report. -/
def Trav.words (t : Trav) : List Nat :=
  let (k, h) := t.outcome
  let front := match h with | some x => x.kind == 1 && x.front | none => false
  let status := k + (if front then 16 else 0) + t.popBits + (if k = 5 then t.fault * 2 ^ 24 else 0)
  match h with
  | some x => [status, bits32 x.t, x.space.inst, x.prim, bits32 x.u, bits32 x.v]
  | none => if k = 5 then [status, 0, 0, 0, 0, 0] else [status, 0x7F800000, 0, 0, 0, 0]

/-- The words HITA reads (R215) for SEL 0 to 2; none where the spec states no value. -/
def Trav.attr (t : Trav) (sel : Nat) : Option (List Nat) :=
  let h := t.outcome.2
  match sel with
  | 2 => if t.last = 4 then none else some [t.time]
  | _ =>
    match h with
    | some x => some (if sel = 0 then x.space.o ++ x.space.d else [x.space.user, x.geom])
    | none => if t.last = 5 then none else some (List.replicate (if sel = 0 then 6 else 2) 0)

/-- The values HITA delivers to a thread. -/
def State.hitaWords (s : State) (g : Grp) (b : Blk) (th sel : Nat) : List RegVal × State :=
  let n := match sel with | 0 => 6 | 1 => 2 | 3 => 8 | _ => 1
  let key := 96 * g.gix + th
  let nat (x : Nat) : RegVal := ⟨BitVec.ofNat 32 x, false⟩
  match sel, SMap.find? g.travs th with
  | 4, _ => ([nat (SMap.get 0 b.dropped key)], s)
  | 5, _ => ([nat (SMap.get [] b.stackKinds key).length], s)
  | 3, some t => (if t.weight.isEmpty then List.replicate 8 RegVal.zero else t.weight.map fun w => ⟨w.1, w.2⟩, s)
  | _, none => (List.replicate n RegVal.zero, s)
  | _, some t =>
    match t.attr sel with
    | some ws => (ws.map nat, s)
    | none => let (x, s1) := s.draw; ((List.range n).map fun i => ⟨x.extractLsb' (32 * i) 32, false⟩, s1)

/-- A HITA's values go on their way to a thread's registers: those settled at its issue, or those of the report. -/
def State.hitaAnswer (s : State) (gk th op sel dest : Nat) (known : List (Word × Bool)) : State :=
  match s.grp gk with
  | none => s
  | some g =>
    match s.blk g.blk with
    | none => s
    | some b =>
      let (ws, s1) := if known.isEmpty then s.hitaWords g b th sel else (known.map fun w => ⟨w.1, w.2⟩, s)
      let r : Result := { id := op, gk := gk, cls := .engine, mask := BitVec.ofNat 96 (2 ^ th), vw := ws.zipIdx.map fun w => (128 * (dest + w.2) + th, w.1), sw := [], flags := 0 }
      { s1 with results := s1.results ++ [r] }

/-- A due report is made: the result span, for a POP the ray span, and the HITAs that waited for it. -/
def State.travReport (s : State) (gk th : Nat) (t : Trav) : State :=
  let ws := t.words
  let t1 := { t with due := false, last := t.outcome.1, pop := [], hita := [] }
  let s1 := s.updGrp gk fun g => { g with travs := SMap.put g.travs th t1 }
  let r : Result :=
    { id := t.op, gk := gk, cls := .engine, mask := BitVec.ofNat 96 (2 ^ th), sw := [], flags := 0
      vw := (t.pop.map fun p => (128 * p.1 + th, (⟨p.2.1, p.2.2⟩ : RegVal))) ++ ws.zipIdx.map fun w => (128 * (t.dest + w.2) + th, ⟨BitVec.ofNat 32 w.1, false⟩) }
  t.hita.foldl (fun s h => s.hitaAnswer gk th h.1 h.2.1 h.2.2.1 h.2.2.2) (s1.applyResult r)

/-- One step towards the report a thread's traversal owes, once what its path stored before has been performed (R288); the report when it is
reached. -/
def State.travAdvance (s : State) (gk th : Nat) : State :=
  match s.grp gk with
  | none => s
  | some g =>
    match SMap.find? g.travs th with
    | none => s
    | some t =>
      if !t.due then s
      else if t.empty || t.fault != 0 || t.cand.isSome || t.todo.isEmpty then s.travReport gk th t
      else if s.uncleared gk (BitVec.ofNat 96 (2 ^ th)) t.op then s
      else
        let (t1, s1) := s.travStep (s.blockAgent g.blk) t
        s1.updGrp gk fun g => { g with travs := SMap.put g.travs th t1 }

/-- TRAVERSAL_REPORT: the traversal of a thread goes one node or record on, or reports. -/
def eventTraversalReport (s : State) : State := s.travAdvance (s.arg 0) (s.arg 1)

/-! ### TRACE (R213, R217) -/

/-- The home of entry k of a thread's spawn stack (R267). -/
def spawnHome (b : Blk) (gix th k : Nat) : Nat := b.spawnBase + ((96 * gix + th) * b.spawn + k) * 64

/-- Whether a ray cannot hit (R213): it misses without reading the structure. -/
def deadRay (o d : List Nat) (tmin tmax : Nat) : Bool :=
  (o ++ d).any (fun x => !finite32 x) || d.all (fun x => q32 x == 0) || (f32 tmin).isNan || (f32 tmax).isNan || (f32 tmax).lt (f32 tmin)

/-- A traversal as it starts. -/
def Trav.start (root mask flags op dest : Nat) (span : List Nat) (weight : List (Word × Bool)) : Trav :=
  let o := span.take 3; let d := (span.drop 3).take 3
  let tmin := span.getD 6 0; let tmax := span.getD 7 0
  { root := root, mask := mask, flags := flags, tmin := tmin, tmax := tmax, time := span.getD 8 0
    todo := if deadRay o d tmin tmax then [] else [⟨1, root, ⟨o, d, false, 0, 0, false⟩, .inf true, 1⟩]
    best := none, cand := none, due := true, op := op, dest := dest, pop := [], fault := 0, empty := false, popBits := 0, weight := weight
    hita := [], last := 0 }

/-- A POP of one thread: its traversal, and the state without the entry. -/
def State.popTrav (s : State) (g : Grp) (b : Blk) (th root mask flags op dest ray : Nat) : Trav × State :=
  let key := 96 * g.gix + th
  let kinds := SMap.get [] b.stackKinds key
  let base := Trav.start root mask flags op dest [] []
  match kinds.getLast? with
  | none => ({ base with empty := true, todo := [] }, s)
  | some kind =>
    let home := spawnHome b g.gix th (kinds.length - 1)
    let s := s.meetLine (home / 64) 2 (some b.ctx)
    let z := s.mem.anyPoison home 64
    let (x, s1) := if z then (let (y, s1) := s.draw; (y.toNat, s1)) else (s.mem.readLE home 64, s)
    let ws := wordsAt x 0 16
    let span := ws.take 6 ++ [0] ++ (ws.drop 6).take 2
    let weight := ((ws.drop 8).take 8).map fun w => (BitVec.ofNat 32 w, z)
    let t := Trav.start root mask flags op dest span weight
    let t := { t with popBits := 32 + 64 * kind, pop := span.zipIdx.map fun w => (ray + w.2, BitVec.ofNat 32 w.1, z) }
    (if z then t.failWith Cause.poison.code else t,
     s1.updBlk g.blk fun b => { b with stackKinds := SMap.set [] b.stackKinds key kinds.dropLast })

/-- A traversal abandoned with its report still due (R213): it reports no more, so the registers that waited for it hold free values (DESIGN
CHOICE, log entry 54), for a POP the ray span the entry's. -/
def State.settle (s : State) (gk th : Nat) : State :=
  match (s.grp gk).bind fun g => SMap.find? g.travs th with
  | none => s
  | some t =>
    if t.due then
      let (x, s1) := s.draw
      let t1 := { t with due := false, last := 5, pop := [], hita := [], todo := [], cand := none, best := none }
      let r : Result :=
        { id := t.op, gk := gk, cls := .engine, mask := BitVec.ofNat 96 (2 ^ th), sw := [], flags := 0
          vw := (t.pop.map fun p => (128 * p.1 + th, (⟨p.2.1, p.2.2⟩ : RegVal)))
            ++ (List.range 6).map fun w => (128 * (t.dest + w) + th, ⟨x.extractLsb' (32 * w) 32, false⟩) }
      let s2 := (s1.updGrp gk fun g => { g with travs := SMap.put g.travs th t1 }).applyResult r
      t.hita.foldl (fun s h => s.hitaAnswer gk th h.1 h.2.1 h.2.2.1 h.2.2.2) s2
    else s

/-- TRACE (R213, R217). -/
def execTrace (stl : BitVec 3) (d a b : BitVec 7) (pop : BitVec 1) (flags : BitVec 7) (mask : BitVec 8) (s : State) :
    Outcome State Fault Refusal :=
  let i : Instr := .trace stl d a b pop flags mask
  issueWith i (fun e =>
    let span (t : Nat) : List RegVal := (List.range 9).map fun k => e.v (e.g.num a + k) t
    let check (t : Nat) : Option (Trap × Nat) :=
      let r := e.pair b t
      match e.deferred i t with
      | some tr => some (tr, noVa)
      | none => if r.2 || (pop == 0 && (span t).any (·.poison)) then some (trap .poison, noVa)
                else if r.1.toNat % 128 ≠ 0 then some (trap .misalign, r.1.toNat) else none
    let fails : Fails := (threadsOf e.p.mask).filterMap fun t => (check t).map fun x => (t, x.1, x.2)
    let ts := (threadsOf e.p.mask).filter fun t => (check t).isNone
    let op := s.seq
    let dest := e.g.num d; let ray := e.g.num a
    let regs := (List.range 6).map (dest + ·) ++ (if pop = 1 then (List.range 9).map (ray + ·) else [])
    let marks := regs.map fun n => (⟨.v n, maskOf ts, op, .engine⟩ : Pend)
    let s1 := ts.foldl (fun s t => s.settle e.gk t) s
    let s2 := { s1.updGrp e.gk fun g => let g := e.seeFails i fails g; { g with pend := if ts.isEmpty then g.pend else g.pend ++ marks } with seq := s1.seq + 1 }
    let one (s : State) (t : Nat) : State :=
      let root := (e.pair b t).1.toNat
      let weight := match SMap.find? e.g.travs t with | some x => x.weight | none => []
      let (tv, s1) := if pop = 1 then s.popTrav e.g e.b t root mask.toNat flags.toNat op dest ray
        else (Trav.start root mask.toNat flags.toNat op dest ((span t).map (·.val.toNat)) weight, s)
      s1.updGrp e.gk fun g => { g with travs := SMap.put g.travs t tv }
    .next (e.finish i (e.nextPc i) fails (ts.foldl one s2))) s

/-! ### HITC (R214) -/

/-- A waiting traversal after a decision: `tv` is the procedural t. -/
def Trav.decide (t : Trav) (sel tv : Nat) : Trav :=
  match t.cand with
  | none => t
  | some h =>
    let t1 := { t with cand := none }
    let taken : Trav :=
      if h.kind = 1 then t1.accept h
      else
        let v := f32 tv
        if v.isNan || !(f32 t.tmin).le v || !v.lt t.limit then t1 else t1.accept { h with t := v }
    match sel with
    | 0 => taken | 1 => t1 | 2 => { taken with todo := [] } | _ => { t1 with todo := [] }

/-- HITC (R214). -/
def execHitc (stl : BitVec 3) (d a : BitVec 7) (sel : BitVec 4) (s : State) : Outcome State Fault Refusal :=
  let i : Instr := .hitc stl d a sel
  issueWith i (fun e =>
    let waiting (t : Nat) : Option Trav := match SMap.find? e.g.travs t with | some x => if !x.due && x.cand.isSome then some x else none | none => none
    let check (t : Nat) : Option Trap :=
      match e.deferred i t with
      | some tr => some tr
      | none =>
        let proc := match waiting t with | some x => (match x.cand with | some h => h.kind == 2 | none => false) | none => false
        if proc && (sel == 0 || sel == 2) && (e.vec a t).poison then some (trap .poison) else none
    let fails : Fails := (threadsOf e.p.mask).filterMap fun t => (check t).map fun x => (t, x, noVa)
    let ts := (threadsOf e.p.mask).filter fun t => (check t).isNone && (waiting t).isSome
    let op := s.seq
    let dest := e.g.num d
    let marks := (List.range 6).map fun k => (⟨.v (dest + k), maskOf ts, op, .engine⟩ : Pend)
    let s1 := { s.updGrp e.gk fun g => let g := e.seeFails i fails g; { g with pend := if ts.isEmpty then g.pend else g.pend ++ marks } with seq := s.seq + 1 }
    let one (s : State) (t : Nat) : State :=
      match waiting t with
      | none => s
      | some x => s.updGrp e.gk fun g => { g with travs := SMap.put g.travs t { x.decide sel.toNat (e.vec a t).val.toNat with due := true, op := op, dest := dest } }
    .next (e.finish i (e.nextPc i) fails (ts.foldl one s1))) s

/-! ### HITA (R215) -/

/-- Registers of an attribute. -/
def hitaRegs (sel : Nat) : Nat := match sel with | 0 => 6 | 1 => 2 | 3 => 8 | _ => 1

/-- HITA (R215): while a report is due it is answered when that is made. Pushes and pops take effect in issue order (R217), so DEPTH, DROP and
WGT are settled at issue. -/
def execHita (stl : BitVec 3) (d : BitVec 7) (sel : BitVec 4) (s : State) : Outcome State Fault Refusal :=
  let i : Instr := .hita stl d sel
  issueWith i (fun e =>
    let ts := threadsOf e.p.mask
    let op := s.seq
    let dest := if sel = 3 then 8 * e.g.num d else e.g.num d
    let marks := (List.range (hitaRegs sel.toNat)).map fun k => (⟨.v (dest + k), e.p.mask, op, .engine⟩ : Pend)
    let s1 := { s.updGrp e.gk fun g => let g := e.seeChorus i g; { g with pend := g.pend ++ marks } with seq := s.seq + 1 }
    let one (s : State) (t : Nat) : State :=
      match SMap.find? e.g.travs t with
      | some x =>
        let known := if sel.toNat < 3 then [] else (s.hitaWords e.g e.b t sel.toNat).1.map fun w => (w.val, w.poison)
        if x.due then s.updGrp e.gk fun g => { g with travs := SMap.put g.travs t { x with hita := x.hita ++ [(op, sel.toNat, dest, known)] } }
        else s.hitaAnswer e.gk t op sel.toNat dest []
      | none => s.hitaAnswer e.gk t op sel.toNat dest []
    .next (e.finish i (e.nextPc i) [] (ts.foldl one s1))) s

/-! ### SPAWN (R216) -/

/-- SPAWN (R216): the pushes now, the predicate after three clocks. -/
def execSpawn (stl : BitVec 3) (k : BitVec 1) (p : BitVec 3) (a b : BitVec 7) (sel : BitVec 4) (s : State) : Outcome State Fault Refusal :=
  let i : Instr := .spawn stl k p a b sel
  issueWith i (fun e =>
    let regs (t : Nat) : List RegVal := ((List.range 6) ++ [7, 8]).map (fun j => e.v (e.g.num a + j) t) ++ (List.range 8).map fun j => e.span b 8 j t
    let bad (t : Nat) : Bool := (regs t).any (·.poison) || (e.v (e.g.num a + 6) t).poison
    let depth (t : Nat) : Nat := (SMap.get [] e.b.stackKinds (96 * e.g.gix + t)).length
    let ok (t : Nat) : Bool := decide (depth t < min e.b.spawn 4)
    let push (s : State) (t : Nat) : State :=
      if bad t || (e.deferred i t).isSome then s
      else
        let key := 96 * e.g.gix + t
        if ok t then
          let x := (regs t).foldr (fun (r : RegVal) (n : Nat) => r.val.toNat + 2 ^ 32 * n) 0
          (s.performWrite (leBytes (spawnHome e.b e.g.gix t (depth t)) false 64 x)).updBlk e.g.blk fun b =>
            { b with stackKinds := SMap.set [] b.stackKinds key (SMap.get [] b.stackKinds key ++ [sel.toNat]) }
        else s.updBlk e.g.blk fun b => { b with dropped := SMap.set 0 b.dropped key (min (SMap.get 0 b.dropped key + 1) 65535) }
    issueLane i (fun _ t =>
      if bad t then { err := some (trap .poison) } else { pw := if k = 1 then [] else [(p.toNat, ok t)] })
      ((threadsOf e.p.mask).foldl push s)) s

end Sys2Proof.Machine
end

