-- ==== Sys2Proof/Machine/Chain.lean ====
section
/-! DEFINITION. The chain engine (R233, R327 to R334): descriptors and their checks, stages, terminal reductions, and XACC values (R79,
R80). -/
namespace Sys2Proof.Machine
open Sys2Proof Host

/-! ### XACC (R79, R80) -/

/-- The exact sum of FP32 terms: A in units of 2^−149, and the NAN, PINF and NINF bits. -/
structure Xacc where
  a : Int
  nan : Bool
  pinf : Bool
  ninf : Bool
  deriving DecidableEq, Repr

def Xacc.zero : Xacc := ⟨0, false, false, false⟩
/-- An FP32 term added (R79). -/
def Xacc.add (x : Xacc) (n : Nat) : Xacc :=
  match f32 n with
  | .nan _ => { x with nan := true }
  | .inf false => { x with pinf := true }
  | .inf true => { x with ninf := true }
  | v => { x with a := signedOf 320 (wrapNat 320 (x.a + (v.rat * pow2 149).floor)) }
/-- The 64-byte image (R79). -/
def Xacc.image (x : Xacc) : Nat := wrapNat 320 x.a + x.nan.toNat * 2 ^ 320 + x.pinf.toNat * 2 ^ 321 + x.ninf.toNat * 2 ^ 322
/-- Rounding of an XACC divided by n (R80, R333). -/
def Xacc.round (x : Xacc) (fmt : Fmt) (mode : RMode) (n : Nat) : Nat × Flags :=
  if x.nan || (x.pinf && x.ninf) then (fmt.qnan, fIV)
  else if x.pinf then roundTo fmt mode (.inf false)
  else if x.ninf then roundTo fmt mode (.inf true)
  else roundTo fmt mode (FVal.ofRat ((x.a : Rat) * pow2 (-149) / n))

/-! ### Descriptors (R327 to R330) -/

/-- A chain command as captured at issue: the descriptor, the four layout records, the rounding codes with DYN resolved, and what SR
needs. -/
structure Chain where
  d : Nat
  l : List Nat
  orm : Nat
  rrm : Nat
  srn : Nat
  key : Nat
  bid : Nat
  gix : Nat
  deriving DecidableEq, Repr

def Chain.f (c : Chain) (lo n : Nat) : Nat := entryField c.d lo n
def Chain.ctrl (c : Chain) (lo n : Nat) : Nat := c.f (768 + lo) n
def Chain.nin (c : Chain) : Nat := c.ctrl 33 2
def Chain.oen (c : Chain) : Bool := c.ctrl 32 1 == 1
def Chain.red (c : Chain) : Nat := c.ctrl 35 3
def Chain.rlen (c : Chain) : Nat := c.ctrl 0 24 + 1
def Chain.stages (c : Chain) : List Nat := (List.range (c.ctrl 29 3 + 1)).map fun i => c.f (1024 + 32 * i) 32
/-- Format code and signedness of stream i; 3 is the output. -/
def Chain.fmtCode (c : Chain) (i : Nat) : Nat := c.ctrl (60 - 4 * i) 4
def Chain.sgn (c : Chain) (i : Nat) : Bool := c.ctrl (44 + i) 1 == 1
def Chain.fmt (c : Chain) (i : Nat) : Fmt := (Fmt.ofCode (c.fmtCode i) (c.sgn i)).getD .fp32
/-- Base address of stream i. -/
def Chain.base (c : Chain) (i : Nat) : Nat := c.f (64 * i) 64
def Chain.used (c : Chain) (i : Nat) : Bool := if i = 3 then c.oen else i < c.nin
/-- Bytes of a reduction's result (R333). -/
def redBytes (red : Nat) : Nat := match red with | 0 => 0 | 6 => 64 | 7 => 16 | _ => 4

/-- Operands an opcode takes (R331): 0 for an opcode not listed. -/
def chainArity (op : Nat) : Nat :=
  if op = 5 then 3
  else if op = 2 ∨ op = 3 ∨ op = 4 ∨ op = 6 ∨ op = 7 ∨ op = 8 then 2
  else if op = 1 ∨ (9 ≤ op ∧ op ≤ 12) ∨ (0x10 ≤ op ∧ op ≤ 0x1B) then 1 else 0

/-- The operand selectors of a stage word. -/
def stageSels (w : Nat) : List Nat := [w / 2 ^ 20 % 16, w / 2 ^ 16 % 16, w / 2 ^ 12 % 16]

/-- The rules of a stage word (R329, R330). -/
def Chain.stageOk (c : Chain) (w : Nat) : Bool :=
  let n := chainArity (w / 2 ^ 26)
  let sels := stageSels w
  n != 0 && w % 2 ^ 12 == 0 && (sels.take n).all (fun s => s ≤ 12 && (3 ≤ s || s < c.nin)) && (sels.drop n).all (· == 0)

/-- A stream's format and, when it is unused, its fields (R328, R329). -/
def Chain.streamOk (c : Chain) (i : Nat) : Bool :=
  if c.used i then !([1, 7, 13, 14, 15].contains (c.fmtCode i)) && (!c.sgn i || (8 ≤ c.fmtCode i && c.fmtCode i ≤ 12))
  else c.base i == 0 && c.f (256 + 64 * i) 64 == 0 && c.fmtCode i == 0 && !c.sgn i

/-- The rules a descriptor shows by itself (R329, R47): SR is no mode of a reduction, nor of an output of FP32, which is not converted. -/
def Chain.legal (c : Chain) : Bool :=
  c.f 704 64 == 0 && c.f 832 64 == 0 && c.f 1280 256 == 0 && c.ctrl 24 5 == 0 && c.nin != 0 && (c.oen || c.red != 0)
    && (List.range 4).all c.streamOk && (c.red != 0 || c.f 640 64 == 0)
    && c.stages.all c.stageOk && (List.range 8).all (fun i => i ≤ c.ctrl 29 3 || c.f (1024 + 32 * i) 32 == 0)
    && c.ctrl 41 3 != 7 && c.ctrl 38 3 != 7 && c.ctrl 38 3 != 5 && (c.ctrl 41 3 != 5 || c.fmtCode 3 != 0)

/-- The elements of a stream in generation order. -/
def Chain.elems (c : Chain) (i : Nat) : Option (List (Int × Nat)) := layoutElems (c.base i) (c.l.getD i 0) (c.fmt i).bits

/-- The count rules (R329): one count N for every used stream, at most 2^32 − 1, a multiple of RLEN. -/
def Chain.countOk (c : Chain) : Bool :=
  let used := (List.range 4).filter c.used
  let n := layoutCount (c.l.getD 0 0)
  used.all (fun i => (c.elems i).isSome && layoutCount (c.l.getD i 0) == n) && n < 2 ^ 32 && n % c.rlen == 0

/-- Whether a row parameter is read (R329): P0 is selector 3, P1 selector 4. -/
def Chain.reads (c : Chain) (p : Nat) : Bool :=
  c.stages.any (fun w => ((stageSels w).take (chainArity (w / 2 ^ 26))).contains (3 + p))
    || (if p = 0 then (c.red == 4 || c.red == 5) && c.f 512 64 != 0 else c.red == 7)

/-- CHAIN (R233, R329). -/
def execChain (stl : BitVec 3) (k : BitVec 4) (a : BitVec 7) (s : State) : Outcome State Fault Refusal :=
  issueWith (.chain stl k a) (fun e =>
    let body : Except (Trap × Nat) State := do
      let (ws, z) := e.block a 2
      if z then throw (trap .poison, noVa)
      let va := word64 ws 0
      if va % 64 ≠ 0 then throw (trap .misalign, va)
      match s.loadNow (e.g.agent e.b) va 192 with
      | .error x => throw (trap x.1, x.2)
      | .ok (_, true) => throw (trap .poison, va)
      | .ok (d, false) =>
        let dyn (m : Nat) : Nat := if m = 6 then (e.g.rmode.extractLsb' 0 3).toNat else m
        let c0 : Chain :=
          { d := d, l := [], orm := 0, rrm := 0, srn := e.g.srSeq 127, key := e.b.task * 2 ^ 16 + (e.g.rmode.extractLsb' 16 16).toNat
            bid := e.b.bid, gix := e.g.gix }
        if !c0.legal then throw (trap .illop, noVa)
        let noSR (m : Nat) : Nat := if m = 5 then 0 else m
        let c1 := { c0 with orm := if c0.fmtCode 3 = 0 then noSR (dyn (c0.ctrl 41 3)) else dyn (c0.ctrl 41 3), rrm := noSR (dyn (c0.ctrl 38 3)) }
        let ls ← (List.range 4).mapM fun i => if c1.used i then e.readRecord (c1.f (256 + 64 * i) 64) 32 else pure 0
        let c := { c1 with l := ls }
        if !c.countOk then throw (trap .illop, noVa)
        if c.f 512 64 % 4 ≠ 0 ∨ c.f 576 64 % 4 ≠ 0 ∨ (c.red ≠ 0 ∧ c.f 640 64 % redBytes c.red ≠ 0) then throw (trap .misalign, noVa)
        let s1 := if c.oen && c.orm == 5 then s.updGrp e.gk fun g => { g with srn := SMap.upd 0 g.srn 127 (· + BitVec.ofNat 32 (layoutCount (ls.getD 0 0))) } else s
        pure (e.accepted s1 7 k.toNat ([c.d, c.orm, c.rrm, c.srn, c.key, c.bid, c.gix] ++ ls) [(0, 0)])
    match body with
    | .error x => .next (e.trapAll x.1 x.2)
    | .ok s1 => .next (e.finish (.chain stl k a) (e.nextPc (.chain stl k a)) [] s1)) s

/-- The command an accepted chain command holds. -/
def EngCmd.chain (c : EngCmd) : Chain := ⟨c.arg 0, c.args.drop 7, c.arg 1, c.arg 2, c.arg 3, c.arg 4, c.arg 5, c.arg 6⟩

/-! ### Stages (R331, R332) -/

/-- The exact quotient of R331's DIV, rounded once. -/
def chainDiv (a b : Nat) : Nat × Flags :=
  let x := f32 a; let y := f32 b
  let neg := x.negative != y.negative
  let si := siOf .fp32 [a, b]
  let iv : Flags := if x.isSNan || y.isSNan then fIV else 0
  match x, y with
  | .nan _, _ | _, .nan _ => (Fmt.fp32.qnan, iv ||| si)
  | .inf _, .inf _ | .zero _, .zero _ => (Fmt.fp32.qnan, fIV ||| si)
  | .inf _, _ => (f32Inf neg, si)
  | _, .inf _ | .zero _, _ => (f32Zero neg, si)
  | _, .zero _ => (f32Inf neg, fDZ ||| si)
  | .num p, .num q => let r := roundTo .fp32 .rne (.num (p / q)); (r.1, r.2 ||| si)

/-- One stage's operation (R331). -/
def chainOp (op a b c : Nat) : Nat × Flags :=
  let fn (f : SpecFn) : Nat × Flags := let r := f.eval (BitVec.ofNat 32 a); (r.1.toNat, r.2)
  match op with
  | 0x01 => (a, 0) | 0x02 => fAdd .fp32 .rne a b | 0x03 => fSub .fp32 .rne a b | 0x04 => fMul .fp32 .rne a b
  | 0x05 => fFma .fp32 .rne a b c | 0x06 => chainDiv a b | 0x07 => fMinMax .fp32 false a b | 0x08 => fMinMax .fp32 true a b
  | 0x09 => (a % 2 ^ 31, 0) | 0x0A => (if a < 2 ^ 31 then a + 2 ^ 31 else a - 2 ^ 31, 0)
  | 0x0B => if (f32 a).isNan then (Fmt.fp32.qnan, if (f32 a).isSNan then fIV else 0) else fMinMax .fp32 true a 0
  | 0x0C => fn .exp | 0x10 => fn .rcp | 0x11 => fn .rsq | 0x12 => fn .sqrt | 0x13 => fn .exp2 | 0x14 => fn .log2 | 0x15 => fn .sinpi
  | 0x16 => fn .cospi | 0x17 => fn .tanh | 0x18 => fn .sigm | 0x19 => fn .erf | 0x1A => fn .gelu | _ => fn .silu

/-- A value with its poison. -/
abbrev CVal := Nat × Bool

/-- The stages of one element: t0 and the flags raised (R332). -/
def Chain.eval (c : Chain) (ins : List CVal) (p0 p1 : CVal) : CVal × Flags :=
  let r := c.stages.foldl (fun (acc : List CVal × Flags) w =>
    let sel (k : Nat) : CVal :=
      if k < 3 then ins.getD k (0, false) else if k = 3 then p0 else if k = 4 then p1
      else if k ≤ 8 then (c.f (896 + 32 * (k - 5)) 32, false) else acc.1.getD (k - 9) (0, false)
    let xs := ((stageSels w).take (chainArity (w / 2 ^ 26))).map sel
    let x (i : Nat) : Nat := (xs.getD i (0, false)).1
    let y := chainOp (w / 2 ^ 26) (x 0) (x 1) (x 2)
    (acc.1.set (w / 2 ^ 24 % 4) (y.1, xs.any (·.2)), acc.2 ||| y.2)) (List.replicate 4 (0, false), 0)
  (r.1.getD 0 (0, false), r.2)

/-! ### Reductions (R333) -/

/-- Σ (c − μ)² over n (R333). -/
def squares (mode : RMode) (cs : List Nat) (mu n : Nat) : Nat × Flags :=
  let m := f32 mu
  let ds := cs.map fun c => exactSum false [f32 c, m.negate]
  let snan := m.isSNan || cs.any fun c => (f32 c).isSNan
  if ds.any fun d => d.1.isNan then (Fmt.fp32.qnan, if snan || ds.any (·.2) then fIV else 0)
  else if ds.any fun d => match d.1 with | .inf _ => true | _ => false then (f32Inf false, 0)
  else roundTo .fp32 mode (FVal.ofRat ((ds.map fun d => d.1.rat * d.1.rat).foldl (· + ·) 0 / n))

/-- A row's result and its flags (R333); SI for a subnormal contribution or μ (R332). -/
def Chain.reduce (c : Chain) (cs : List Nat) (p0 p1 : Nat) : Nat × Flags :=
  let mode := (RMode.ofCode c.rrm 0).getD .rne
  let acc := cs.foldl Xacc.add Xacc.zero
  let mu := if c.f 512 64 = 0 then 0 else p0
  let si := siOf .fp32 (if c.red = 4 ∨ c.red = 5 then mu :: cs else cs)
  let r : Nat × Flags := match c.red with
    | 1 => acc.round .fp32 mode 1
    | 2 => acc.round .fp32 mode c.rlen
    | 3 => cs.foldl (fun m x => let y := fMinMax .fp32 true m.1 x; (y.1, m.2 ||| y.2)) (Fmt.fp32.qnan, 0)
    | 4 => squares mode cs mu 1
    | 5 => squares mode cs mu c.rlen
    | 6 => (acc.image, 0)
    | 7 =>
      let f := signedOf 32 p1
      cs.foldl (fun t x =>
        let v : FVal := match f32 x with | .num q => .num (q * pow2 f) | y => y
        let y := roundTo (.int 64 true) mode v
        (wrapNat 128 ((t.1 : Int) + signedOf 64 y.1), t.2 ||| y.2)) (0, 0)
    | _ => (0, 0)
  (r.1, r.2 ||| si)

/-! ### Running a command (R332 to R334) -/

/-- A row parameter, when it is read. -/
def State.rowParam (s : State) (ag : Agent) (c : Chain) (p r : Nat) : Except Cause (CVal × State) :=
  if c.reads p then
    match s.readVa ag ((c.f (512 + 64 * p) 64 + 4 * r : Nat) : Int) 4 with
    | .error e => .error e.1 | .ok (x, z, s1) => .ok ((x, z), s1)
  else .ok ((0, false), s)

/-- The used input streams' elements at place n as FP32 values, with the flags of converting them. -/
def State.chainInputs (s : State) (ag : Agent) (c : Chain) (n : Nat) : Except Cause (List CVal × Flags × State) :=
  (List.range c.nin).foldlM (fun (acc : List CVal × Flags × State) i =>
    match acc.2.2.readElems ag (c.fmt i).bits ((((c.elems i).getD []).drop n).take 1) with
    | .error e => .error e.1
    | .ok (xs, s1) =>
      let x := xs.headD (0, false)
      let y := fConvert (c.fmt i) .fp32 .rne x.1
      .ok (acc.1 ++ [(y.1, x.2)], acc.2.1 ||| y.2, s1)) ([], 0, s)

/-- An output element's value and flags: t0 rounded, SI for a subnormal one (R332). -/
def Chain.output (c : Chain) (n t0 : Nat) : Nat × Flags :=
  let rho := ((mixPacked (BitVec.ofNat 64 c.key) (packKey c.bid c.gix 127 ((c.srn + n) % 2 ^ 32))).extractLsb' 0 16).toNat
  fConvert .fp32 (c.fmt 3) ((RMode.ofCode c.orm rho).getD .rne) t0

/-- What goes before in a state that a failure leaves as it is. -/
def orFail {α : Type} (s : State) (x : Except Cause α) : Except (Cause × State) α :=
  match x with | .error c => .error (c, s) | .ok y => .ok y

/-- One element of a command: read, evaluated, its output written (R332); a failed write's other parts are written (R53). -/
def State.chainElem (s : State) (ag : Agent) (c : Chain) (n : Nat) (p0 p1 : CVal) : Except (Cause × State) (CVal × Flags × State) :=
  match s.chainInputs ag c n with
  | .error cause =>
    .error (cause, s.meetList ag ((List.range c.nin).flatMap fun i =>
      ((((c.elems i).getD []).drop n).take 1).map fun e => (e.1, max 1 ((c.fmt i).bits / 8))))
  | .ok (ins, fl, s1) =>
    let t := c.eval ins p0 p1
    let fl := fl ||| t.2
    if c.oen then
      let y := c.output n t.1.1
      let es := s1.packElems (s1.bytePlace ag) (c.fmt 3).bits (((((c.elems 3).getD []).drop n).take 1).map fun a => (a, y.1, t.1.2 || p0.2 || p1.2))
      let w := s1.storeElems ag es
      let s1 := s1.meetDests ag es
      match w.2 with
      | some cause => .error (cause, s1.programWrite w.1)
      | none => .ok (t.1, fl ||| y.2, s1.programWrite w.1)
    else .ok (t.1, fl, s1)

/-- A row's result is written after its last element (R333, R334): its parts are independent (R53). -/
def State.chainResult (s : State) (ag : Agent) (c : Chain) (r : Nat) (cs : List CVal) (p0 p1 : CVal) : Except (Cause × State) (Flags × State) :=
  if c.red = 0 then .ok (0, s)
  else
    let (y, f) := c.reduce (cs.map (·.1)) p0.1 p1.1
    let n := redBytes c.red
    let w := elemBytes y (p0.2 || p1.2 || cs.any (·.2)) (s.storeParts ag n (c.f 640 64 + n * r) n)
    let s := s.meetWalks ag .write (c.f 640 64 + n * r) n
    match w.2 with
    | some cause => .error (cause, s.programWrite w.1)
    | none => .ok (f, s.programWrite w.1)

/-- The parameters of a row, read at its first element (R329), and those of the row under way. -/
def State.chainParams (s : State) (ag : Agent) (c : Chain) (k : EngCmd) (r i : Nat) : Except Cause (CVal × CVal × State) :=
  if i = 0 then
    match s.rowParam ag c 0 r with
    | .error e => .error e
    | .ok (p0, s1) => match s1.rowParam ag c 1 r with | .error e => .error e | .ok (p1, s2) => .ok (p0, p1, s2)
  else match k.pieces.find? fun x => x.1 == 1 with
    | some (_, [p0, p1]) => .ok (p0, p1, s)
    | _ => .ok ((0, false), (0, false), s)

/-- The next element of a command, with the result of its row after the last: the command after it, and the state; none in `left` once it is
done or has failed. -/
def State.chainNext (s : State) (k : EngCmd) : EngCmd × State :=
  match k.left with
  | [] => (k, s)
  | (r, i) :: _ =>
    let c := k.chain
    let ag := s.blockAgent k.bk
    let one : Except (Cause × State) (EngCmd × State) := do
      let (p0, p1, s1) ← orFail s (s.chainParams ag c k r i)
      let (t, fl, s2) ← s1.chainElem ag c (r * c.rlen + i) p0 p1
      let cs := (if i = 0 then [] else ((k.pieces.find? fun x => x.1 == 0).map (·.2)).getD []) ++ [t]
      if i + 1 < c.rlen then
        pure ({ k with left := [(r, i + 1)], pieces := [(0, if c.red = 0 then [] else cs), (1, [p0, p1])], flags := k.flags ||| fl }, s2)
      else
        let (f, s3) ← s2.chainResult ag c r cs p0 p1
        let more := (r + 1) * c.rlen < layoutCount (c.l.getD 0 0)
        pure ({ k with left := if more then [(r + 1, 0)] else [], pieces := [(0, [])], flags := k.flags ||| fl ||| f }, s3)
    match one with
    | .ok x => x
    | .error e => ({ k with left := [], cause := e.1.code }, e.2)

/-- Several elements of a command. -/
def State.chainRun (s : State) (k : EngCmd) : Nat → EngCmd × State
  | 0 => (k, s)
  | n + 1 => if k.left.isEmpty then (k, s) else let x := s.chainNext k; x.2.chainRun x.1 n

/-- CHAIN_COMPLETE [command, n]: a command that has started, or whose predecessors have, goes on by up to n elements; when none is left, or one
has failed, it completes (R232, R329, R334). -/
def eventChainComplete (s : State) : State :=
  match s.ecmd (s.arg 0) with
  | none => s
  | some k =>
    let waits := (s.ecmds.takeWhile fun x => x.id != k.id).any fun x => x.kind == 7 && x.core == k.core && x.pieces.isEmpty
    if k.kind != 7 || waits then s
    else
      let x := s.chainRun k (max 1 (s.arg 1))
      if x.1.left.isEmpty then x.2.ecmdDone x.1 else x.2.setEcmd x.1

end Sys2Proof.Machine
end

