-- ==== Sys2Proof/Machine/Fetch.lean ====
section
/-! DEFINITION. Instruction fetch (R36 to R38). -/
namespace Sys2Proof.Machine
open Sys2Proof

/-- The home of an instruction word (R37). -/
def State.fetchHome (s : State) (ctx core : Nat) (pc : DWord) : Except Cause Nat :=
  let va := pc.toNat
  if va / 2 ^ 56 ≠ 0 || isAperture va then .error .access
  else match s.translate ctx core va fun l => l.x with
    | .error (c, _) => .error c
    | .ok l => if !l.x then .error .access else match l.home va with | some h => .ok h | none => .error .access

/-- The word at a home as memory holds it, or, where its block was written while a task of the context ran, as the block stood before one of
the writes: which is open at every fetch (R38). -/
def State.codeWord (s : State) (ctx who home : Nat) : Nat := s.seenLE ctx who 64 home 4

/-- An instruction word; from a poisoned line a free value. -/
def State.fetchWord (s : State) (ctx core who : Nat) (pc : DWord) : Except Cause Word :=
  match s.fetchHome ctx core pc with
  | .error c => .error c
  | .ok h => .ok (if s.mem.anyPoison h 4 then (Config.freeValue s.free).extractLsb' 0 32 else BitVec.ofNat 32 (s.codeWord ctx who h))

/-- The instruction at a PC, fetched by a path (R36, R37): words the decoder refuses stand for an instruction that traps ILLOP (R34, R50). -/
def State.fetch (s : State) (ctx core who : Nat) (pc : DWord) : Except Cause Instr :=
  match s.fetchWord ctx core who pc with
  | .error c => .error c
  | .ok w =>
    match if twoWords w then s.fetchWord ctx core who (pc + 4) else .ok 0 with
    | .error c => .error c
    | .ok x =>
      match decodeBytes (bytesOfWord w ++ bytesOfWord x) with
      | .ok (i, _) => .ok i
      | .error _ => .ok (.unassignedOpcode w)

end Sys2Proof.Machine
end

