-- ==== Sys2Proof/Machine/Film.lean ====
section
/-! DEFINITION. Film (R220, R221, R267, R324, R325): FILMADD, the outboxes, the dies' film buffers with the overflow areas, and the
application of records in key order. -/
namespace Sys2Proof.Machine
open Sys2Proof Host

/-! ### Film descriptors (R324) -/

def State.filmDesc (s : State) (ctx film : Nat) : BitVec 512 := SMap.get 0 (s.ctx ctx).films film
/-- The task a film is bound to. -/
def filmBound (d : BitVec 512) : Option Nat := if d.getLsbD 129 then some (d.extractLsb' 160 32).toNat else none

/-- A film is bound to a task (R220). -/
def State.bindFilm (s : State) (ctx film task : Nat) : State :=
  let d := s.filmDesc ctx film
  if d.getLsbD 129 then s
  else s.updCtx ctx fun c => { c with films := SMap.put c.films film (d ||| BitVec.ofNat 512 (2 ^ 129 + task * 2 ^ 160)) }

/-- Records in a block's outbox. -/
def State.outbox (s : State) (bk : Nat) : List FilmRec := s.films.filter fun r => r.bk == bk && r.place == 0

/-- FILMADD (R220): each accepted thread's record enters the outbox. -/
def execFilmadd (stl : BitVec 3) (a b : BitVec 7) (film : BitVec 3) (nch : BitVec 2) (s : State) : Outcome State Fault Refusal :=
  let i : Instr := .filmadd stl a b film nch
  issueWith i (fun e =>
    let n := nch.toNat + 1
    let f := film.toNat
    let d := s.filmDesc e.b.ctx f
    let vals (t : Nat) : List RegVal := (List.range n).map fun k => e.v (e.g.num a + k) t
    let pix (t : Nat) : RegVal := e.v (e.g.num b) t
    let wt (t : Nat) : RegVal := e.v (e.g.num b + 1) t
    let check (t : Nat) : Option Trap :=
      match e.deferred i t with
      | some tr => some tr
      | none =>
        if (vals t).any (·.poison) || (pix t).poison || (wt t).poison then some (trap .poison)
        else if !d.getLsbD 128 || (d.extractLsb' 96 32).toNat ≤ (pix t).val.toNat then some (trap .access)
        else match filmBound d with | some k => if k = e.b.task then none else some (trap .access) | none => none
    let fails : Fails := (threadsOf e.p.mask).filterMap fun t => (check t).map fun x => (t, x, noVa)
    let ts := (threadsOf e.p.mask).filter fun t => (check t).isNone
    let row (t : Nat) : FilmRec :=
      { ctx := e.b.ctx, film := f, task := e.b.task, bk := e.g.blk, bid := e.b.bid, gix := e.g.gix, thread := t
        seq := (SMap.get 0 e.g.fseq t).toNat, pix := (pix t).val.toNat, vals := (vals t).map (·.val.toNat), weight := (wt t).val.toNat
        die := e.b.core / 144, place := 0 }
    let s1 := s.updGrp e.gk fun g => let g := e.seeFails i fails g; { g with fseq := bumpSeq g.fseq ts }
    let s2 := if ts.isEmpty then s1 else s1.bindFilm e.b.ctx f e.b.task
    .next (e.finish i (e.nextPc i) fails { s2 with films := s2.films ++ ts.map row })) s

/-! ### Draining (R221, R267) -/

/-- Records the film buffer of a die holds: 8 MiB of records of 64 bytes. -/
def filmCapacity : Nat := 131072

/-- A fault of the film engine (R325): the bound task ends FAULTED, with a KIND 7 record. -/
def State.filmFault (s : State) (ctx task film : Nat) (cause : Cause) (va : Nat) : State :=
  s.fault 0 { Rec.empty with kind := 7, ctx := ctx, task := task, cause := cause.code, info := film, va := va }

/-- The lowest block of a task that has not retired. -/
def State.lowestBlock (s : State) (ctx task : Nat) : Option Nat :=
  ((s.taskBlocks ctx task).map (·.2.bid)).foldl (fun b n => match b with | none => some n | some m => some (min m n)) none

/-- The earliest record of the outbox leaves it for another place. -/
def moveFirst (bk place : Nat) : List FilmRec → List FilmRec
  | [] => []
  | r :: rest => if r.bk == bk && r.place == 0 then { r with place := place } :: rest else r :: moveFirst bk place rest

/-- FILM_OUTBOX_DRAIN: the earliest record of a block's outbox enters the die's buffer, or, while that is full and the block is the lowest
that runs, the overflow area (R221). -/
def eventFilmOutboxDrain (s : State) : State :=
  let bk := s.arg 0
  match s.outbox bk with
  | [] => s
  | r :: _ =>
    let inBuffer := (s.films.filter fun x => x.die == r.die && x.place == 1).length
    if inBuffer < filmCapacity then { s with films := moveFirst bk 1 s.films }
    else
      let d := s.filmDesc r.ctx r.film
      let spilled := (s.films.filter fun x => x.ctx == r.ctx && x.film == r.film && x.place == 2).length
      if s.lowestBlock r.ctx r.task != some r.bid || (d.extractLsb' 256 32).toNat ≤ spilled then s
      else
        let va := (d.extractLsb' 192 64).toNat + 64 * spilled
        if va % 64 ≠ 0 then s.filmFault r.ctx r.task r.film .misalign va
        else match s.plainParts r.ctx .write va 64 with
          | .error e => s.filmFault r.ctx r.task r.film e.1 e.2
          | .ok ps =>
            -- what the spilled image holds is not for programs (R325)
            let (x, s1) := s.draw
            { s1.performWrite (partBytes false ps x.toNat) with films := moveFirst bk 2 s1.films }

/-! ### Application (R221, R96) -/

/-- key_of of a record (R55). -/
def FilmRec.key (r : FilmRec) : Nat := packKey r.bid r.gix r.thread r.seq

/-- The record of a film with the lowest key among those whose blocks have retired with every block before them. -/
def State.nextFilm (s : State) (ctx film : Nat) : Option FilmRec :=
  let ready (r : FilmRec) : Bool := r.ctx == ctx && r.film == film && r.place != 0 &&
    (match s.task ctx r.task with | some t => decide (r.bid < t.pfx) | none => false)
  (s.films.filter ready).foldl (fun b r => match b with | none => some r | some x => if r.key < x.key then some r else some x) none

/-- A compensated pair takes a value (R96): the pair in 64 bits. -/
def addPair (x v : Nat) : Nat :=
  let r := neumaierAdd (x % 2 ^ 32) (x / 2 ^ 32 % 2 ^ 32) v
  r.1 + 2 ^ 32 * r.2

/-- FILM_RECORD_APPLY: a film's next record is added into its pixel (R221, R325). -/
def eventFilmRecordApply (s : State) : State :=
  let ctx := s.arg 0; let film := s.arg 1
  match s.nextFilm ctx film with
  | none => s
  | some r =>
    let base := ((s.filmDesc ctx film).extractLsb' 0 64).toNat
    let va := base + 64 * r.pix
    let s0 := { s with films := s.films.erase r }
    if base % 64 ≠ 0 then s0.filmFault ctx r.task film .misalign va
    else match s.plainParts ctx .atomic va 40 with
      | .error e => s0.filmFault ctx r.task film e.1 e.2
      | .ok ps =>
        let (x, z, s1) := s0.readHomes (some ctx) ps
        let pair (k : Nat) : Nat := x / 2 ^ (64 * k) % 2 ^ 64
        let words := (List.range 5).map fun k =>
          if k = 4 then addPair (pair 4) r.weight
          else match r.vals[k]? with | some v => addPair (pair k) v | none => pair k
        let changed := partBytes z ps (words.foldr (fun w n => w + 2 ^ 64 * n) 0)
        let touched (i : Nat) : Bool := i / 8 == 4 || decide (i / 8 < r.vals.length)
        s1.performWrite ((changed.zipIdx.filter fun w => touched w.2).map (·.1))

end Sys2Proof.Machine
end

