-- ==== Sys2Proof/Machine/Fabric.lean ====
section
/-! DEFINITION. The fabric (R238 to R242, R413, R414): PUT, PUTF, FAAR, CASR, WCNT, WWAIT and FFENCE, what they do at a window of this
package, and what comes from other packages. -/
namespace Sys2Proof.Machine
open Sys2Proof Host

/-- The number of packages a pod may have (R238). -/
def podLimit : Nat := 288
/-- Whether a package number may be named. -/
def State.inPod (s : State) (pkg : Nat) : Bool := decide (pkg < podLimit ∧ pkg < s.dev.podcnt)
/-- A window the context holds on this package. -/
def State.window (s : State) (ctx win : Nat) : Option Window :=
  match SMap.find? s.windows win with | some w => if w.ctx = ctx then some w else none | none => none
def State.updWindow (s : State) (win : Nat) (f : Window → Window) : State :=
  match SMap.find? s.windows win with | some w => { s with windows := SMap.put s.windows win (f w) } | none => s

/-! ### Issue (R238, R239) -/

/-- A fabric operation is issued. -/
def State.sendFab (s : State) (o : FabOp) : State := { s with seq := s.seq + 1, fab := s.fab ++ [o] }
def Env.fabOp (e : Env) (kind win pkg : Nat) : FabOp :=
  { id := e.s.seq, kind := kind, gk := e.gk, mask := e.p.mask, since := e.s.clock, ctx := e.b.ctx, core := e.b.core, bk := e.g.blk, win := win, pkg := pkg, src := 0, off := 0
    len := 0, a := 0, b := 0, dest := 0, stage := 0, left := [], cause := 0 }

/-- The checks of R238: poison, the window and the package. -/
def Env.fabCheck (e : Env) (poison : Bool) (win pkg : Nat) : Option Trap :=
  if poison then some (trap .poison)
  else if (e.s.window e.b.ctx win).isNone || !e.s.inPod pkg then some (trap .fabric) else none

/-- The flits of a put (R281, R414): they end where the window offset is a multiple of 256, so that no unit of 8 bytes lies in two. -/
def flitCount (off len : Nat) : Nat := max 1 ((off + len + 255) / 256 - off / 256)
/-- Where flit k begins in the put, and its length. -/
def flitSpan (off len k : Nat) : Nat × Nat :=
  let lo := max off (256 * (off / 256 + k)); let hi := min (off + len) (256 * (off / 256 + k + 1))
  (lo - off, hi - lo)

/-- PUT and PUTF (R238, R239, R240). A length above 2^24 is no length the block may hold. -/
def execPutOp (i : Instr) (flag : Bool) (a : BitVec 7) (win : BitVec 8) (s : State) : Outcome State Fault Refusal :=
  issueEffect i (fun e =>
    let (ws, z) := e.block a (if flag then 9 else 6)
    let pkg := (ws.getD 4 0).toNat; let len := (ws.getD 5 0).toNat
    match e.fabCheck z win.toNat pkg with
    | some t => .error t
    | none =>
      if 2 ^ 24 < len then .error (trap .illop)
      else if flag && word64 ws 6 % 4 != 0 then .error (trap .misalign)
      else
        let o := { e.fabOp (if flag then 1 else 0) win.toNat pkg with
                   src := word64 ws 0, off := word64 ws 2, len := len, a := word64 ws 6, b := (ws.getD 8 0).toNat
                   left := List.range (flitCount (word64 ws 2) len) }
        .ok ((s.updWindow win.toNat fun w => { w with issued := (w.issued + len) % 2 ^ 64 }).sendFab o)) s

/-- PUT (R239). -/
def execPut (stl : BitVec 3) (a : BitVec 7) (win : BitVec 8) (s : State) : Outcome State Fault Refusal := execPutOp (.put stl a win) false a win s
/-- PUTF (R239). -/
def execPutf (stl : BitVec 3) (a : BitVec 7) (win : BitVec 8) (s : State) : Outcome State Fault Refusal := execPutOp (.putf stl a win) true a win s

/-- FAAR and CASR (R238, R239, R242): the destination pair is pending until the reply. -/
def execFabAtomic (i : Instr) (cas : Bool) (d a : BitVec 7) (win : BitVec 8) (s : State) : Outcome State Fault Refusal :=
  issueEffect i (fun e =>
    if e.b.det then .error (trap .determ)
    else
      let (ws, z) := e.block a (if cas then 8 else 6)
      let pkg := (ws.getD 2 0).toNat
      match e.fabCheck z win.toNat pkg with
      | some t => .error t
      | none =>
        if word64 ws 0 % 8 ≠ 0 then .error (trap .misalign)
        else
          let o := { e.fabOp (if cas then 3 else 2) win.toNat pkg with
                     off := word64 ws 0, len := 8, a := word64 ws 4, b := word64 ws 6, dest := d.toNat, left := [0] }
          let marks := [0, 1].map fun k => (⟨.s (d.toNat + k), ~~~0, o.id, .other⟩ : Pend)
          .ok (((s.updGrp e.gk fun g => { g with pend := g.pend ++ marks }).mark (e.acquire o.id e.p.mask)).sendFab o)) s

/-- FAAR (R239). -/
def execFaar (stl : BitVec 3) (d a : BitVec 7) (win : BitVec 8) (s : State) : Outcome State Fault Refusal :=
  execFabAtomic (.faar stl d a win) false d a win s
/-- CASR (R239). -/
def execCasr (stl : BitVec 3) (d a : BitVec 7) (win : BitVec 8) (s : State) : Outcome State Fault Refusal :=
  execFabAtomic (.casr stl d a win) true d a win s

/-! ### Counters and waits (R240, R241) -/

/-- Counter sel of a window: 0 ISSUED, 1 ACKED, 2 DELIV. -/
def Window.count (w : Window) (sel : Nat) : Nat := match sel with | 0 => w.issued | 1 => w.acked | _ => w.deliv

/-- WCNT (R240, R242). -/
def execWcnt (stl : BitVec 3) (d a x : BitVec 7) (s : State) : Outcome State Fault Refusal :=
  issueEffect (.wcnt stl d a x) (fun e =>
    if e.b.det then .error (trap .determ)
    else if (e.uni a).poison then .error (trap .poison)
    else match s.window e.b.ctx (e.uni a).val.toNat with
      | none => .error (trap .fabric)
      | some w =>
        let n := w.count x.toNat
        .ok (s.uniformResult e.gk d.toNat [BitVec.ofNat 32 n, BitVec.ofNat 32 (n / 2 ^ 32)] false)) s

/-- The oldest unreported failure a wait covers is reported (R241): the trap, and the state without it. -/
def State.fabReport (s : State) (gk : Nat) (covers : Nat × Nat × Nat → Bool) : Option Trap × State :=
  match s.grp gk with
  | none => (none, s)
  | some g =>
    match g.fabricFail.find? covers with
    | none => (none, s)
    | some f => (some (trapI .fabric (f.1 * 256 + f.2.2)), s.updGrp gk fun g => { g with fabricFail := g.fabricFail.erase f })

/-- What a wait on the fabric does once it holds: on, or the trap of a failure it covers. -/
def Env.fabGo (e : Env) (i : Instr) (rel : Bool) (covers : Nat × Nat × Nat → Bool) : State :=
  match e.s.fabReport e.gk covers with
  | (some t, s1) => s1.trapEntry e.gk e.pi t e.p.mask noVa
  | (none, s1) => e.finish i (e.nextPc i) [] (if rel then s1.fence e.gk e.p.mask 2 else s1)

/-- Whether a window's counter has reached a threshold. -/
def State.wwaitMet (s : State) (sel win thr : Nat) : Bool :=
  match SMap.find? s.windows win with | some w => decide (thr ≤ w.count (sel + 1)) | none => false

/-- WWAIT (R240). -/
def execWwait (stl : BitVec 3) (x a b : BitVec 7) (s : State) : Outcome State Fault Refusal :=
  let i : Instr := .wwait stl x a b
  issueWith i (fun e =>
    let win := (e.uni a).val.toNat
    let thr := e.upair b
    if (e.uni a).poison || thr.2 then .next (e.trapAll (trap .poison))
    else if (s.window e.b.ctx win).isNone then .next (e.trapAll (trap .fabric))
    else if s.wwaitMet x.toNat win thr.1.toNat then .next (e.fabGo i false fun f => f.1 == win)
    else .next (e.park i (.wwait x.toNat win thr.1.toNat) s)) s

/-- Whether an FFENCE's package names another. -/
def fencePkg (pkg p : Nat) : Bool := pkg == 2 ^ 32 - 1 || pkg == p

/-- FFENCE (R240). -/
def execFfence (stl : BitVec 3) (a : BitVec 7) (s : State) : Outcome State Fault Refusal :=
  let i : Instr := .ffence stl a
  issueWith i (fun e =>
    let pkg := (e.uni a).val.toNat
    if (e.uni a).poison then .next (e.trapAll (trap .poison))
    else if pkg ≠ 2 ^ 32 - 1 && !s.inPod pkg then .next (e.trapAll (trap .fabric))
    else
      let ids := (s.fab.filter fun o => o.gk == e.gk && fencePkg pkg o.pkg).map (·.id)
      if ids.isEmpty then .next (e.fabGo i true fun f => fencePkg pkg f.2.1) else .next (e.park i (.ffence ids pkg) s)) s

/-! ### At the target (R414) -/

def State.fabFind (s : State) (id : Nat) : Option FabOp := s.fab.find? fun o => o.id == id
def State.setFab (s : State) (o : FabOp) : State := { s with fab := s.fab.map fun x => if x.id == o.id then o else x }

/-- Bytes of a window of this package for a fabric access of n bytes (R414): their home parts, or the cause of the refusal. -/
def State.windowParts (s : State) (w : Window) (off n : Nat) (atomic : Bool) : Except Cause (List Part) :=
  if w.len < off + n then .error .access
  else match s.resolve (homeAgent w.ctx) .atomic (w.base + off) n with
    | .error e => .error e.1
    | .ok ps =>
      if ps.any fun p => p.host || p.aper then .error .access
      else if ps.any fun p => p.ord == 2 then .error (if atomic then .atomKind else .access) else .ok ps

/-- Where a put of `len` bytes at `off` of a window of this package goes, and its flag, or the cause for which it is refused as a whole (R241,
R414). -/
def State.putTarget (s : State) (win off len : Nat) (flag : Option Nat) : Except Cause (List Part × List Part) :=
  match SMap.find? s.windows win with
  | none => .error .fabric
  | some w =>
    if !w.putok then .error .fabric
    else match (if len = 0 then (if w.len < off then .error .access else .ok []) else s.windowParts w off len false) with
      | .error c => .error c
      | .ok ps => match flag with
        | none => .ok (ps, [])
        | some f => match s.windowParts w f 4 false with | .error c => .error c | .ok fs => .ok (ps, fs)

/-- The parts of n bytes from byte `off` of an access on. -/
def cutParts : List Part → Nat → Nat → List Part
  | [], _, _ => []
  | p :: ps, off, n =>
    if n = 0 then []
    else if p.len ≤ off then cutParts ps (off - p.len) n
    else
      let m := min n (p.len - off)
      { p with va := p.va + off, home := p.home + off, len := m } :: cutParts ps 0 (n - m)

/-- Bytes and the poison of each at resolved parts. -/
def markedBytes (zs : List Bool) (ps : List Part) (x : Nat) : List (Nat × Byte × Bool) :=
  ((partBytes false ps x).zipIdx).map fun w => (w.1.1, w.1.2.1, zs.getD w.2 false)

/-- Bytes delivered into a window (R414, R240, R428). -/
def State.deliverBytes (s : State) (win n : Nat) (ps : List Part) (x : Nat) (zs : List Bool) : State :=
  (s.programWrite (markedBytes zs ps x)).updWindow win fun w => { w with deliv := (w.deliv + n) % 2 ^ 64 }

/-- A fabric atomic at a window of this package (R239, R414): its old value and the state, or the cause of the refusal. -/
def State.fabAtomic (s : State) (win off kind a b : Nat) : Except Cause (Nat × Bool × State) :=
  match SMap.find? s.windows win with
  | none => .error .fabric
  | some w =>
    if !w.atomok then .error .fabric
    else match s.windowParts w off 8 true with
      | .error c => .error c
      | .ok ps =>
        let (old, z, s1) := s.readHomes (some w.ctx) ps
        let new := if kind = 2 then (old + a) % 2 ^ 64 else if old = a then b else old
        .ok (old, z, s1.programWrite (partBytes z ps new))

/-- Whether traffic into a window waits at the link dies: its context is suspended (R381). -/
def State.linkHeld (s : State) (win : Nat) : Bool :=
  match SMap.find? s.windows win with
  | some w => (s.ctx w.ctx).desc.getLsbD 1 || s.dev.busy == some (4, w.ctx, true)
  | none => false

/-- The port a flit to a target takes (R414): port (target + flit) mod 18 is tried first, then the next; none where no port is live. -/
def Dev.portFor (d : Dev) (target flit : Nat) : Option Nat :=
  ((List.range 18).map fun j => (target + flit + j) % 18).find? fun p => d.ports.getLsbD p

/-- Whether an operation of this package can set out for its target: over some port where that is another package, into a window that does not
wait where it is this one; the source of a put is not in a saved footprint (R381). What the path stored before has been performed; an
atomic, which is a release, follows all its accesses (R239). -/
def State.fabReady (s : State) (o : FabOp) (flit : Nat) : Bool :=
  (if o.pkg == s.dev.pkgid then !s.linkHeld o.win else (s.dev.portFor o.pkg flit).isSome)
    && (2 ≤ o.kind || (match s.blk o.bk with | some b => !b.suspended | none => true))
    && !(if o.kind ≤ 1 then s.uncleared o.gk o.mask o.id else s.unsettled o.gk o.mask o.id)

/-- An operation of this package fails (R241): it is acknowledged with its cause. -/
def FabOp.failed (o : FabOp) (c : Cause) : FabOp := { o with left := [], stage := 2, cause := c.code }

/-- The whole source of a put. -/
def State.sourceParts (s : State) (o : FabOp) : Except Cause (List Part) :=
  if o.len = 0 then .ok []
  else match s.resolve (s.blockAgent o.bk) .read o.src o.len with | .error e => .error e.1 | .ok ps => .ok ps

/-- A put judged whole before its first flit is written (R241): source, target and flag, the last two where its target is this package. One found
good stays so. -/
def State.putJudge (s : State) (o : FabOp) : Except Cause (List Part × List Part × List Part) :=
  if o.stage ≠ 0 then .ok (o.srcs, o.dsts, o.flag)
  else match s.sourceParts o with
    | .error c => .error c
    | .ok ps =>
      if o.pkg == s.dev.pkgid then
        match s.putTarget o.win o.off o.len (if o.kind = 1 then some o.a else none) with | .error c => .error c | .ok x => .ok (ps, x.1, x.2)
      else .ok (ps, [], [])

/-- n bytes of a put's source from byte `at'` on, where they are mapped now, or were when the put was judged. -/
def State.readSource (s : State) (o : FabOp) (src : List Part) (at' n : Nat) : Nat × List Bool × State :=
  let ag := s.blockAgent o.bk
  if n = 0 then (0, [], s)
  else s.readMarked (some ag.ctx) (match s.resolve ag .read (o.src + at') n with | .ok ps => ps | .error _ => cutParts src at' n)

/-- A flit of a put of this package is read (R239) and delivered here, or leaves by a port for another package. -/
def State.sendFlit (s : State) (o : FabOp) (k : Nat) : State :=
  let (at', n) := flitSpan o.off o.len k
  match s.putJudge o with
  | .error c => s.setFab (o.failed c)
  | .ok (src, dst, fl) =>
    let (x, zs, s1) := s.readSource o src at' n
    let left := o.left.erase k
    let own := o.pkg == s.dev.pkgid
    (if own then s1.deliverBytes o.win n (cutParts dst at' n) x zs else s1).setFab
      { o with left := left, stage := if own && left.isEmpty && o.kind == 0 then 2 else 1, srcs := src, dsts := dst, flag := fl }

/-- What arrives of a put of another package belongs to: the record it has, or the one its first arrival makes, for which the put is judged whole. -/
def State.putInOf (s : State) (id win off len : Nat) (flag : Option Nat) : PutIn :=
  match s.dev.putsIn.find? fun p => p.id == id with
  | some p => p
  | none => match s.putTarget win off len flag with
    | .ok (ps, fs) => ⟨id, win, false, len, flag.isSome, ps, fs⟩
    | .error _ => ⟨id, win, true, len, flag.isSome, [], []⟩
/-- The record of a put after an arrival; it goes when nothing is still to come. -/
def State.setPutIn (s : State) (p : PutIn) : State :=
  let rest := s.dev.putsIn.filter fun x => x.id != p.id
  { s with dev := { s.dev with putsIn := if p.left = 0 && !p.flagged then rest else rest ++ [p] } }

/-- A flit from another package: window, offset and length of the put, offset and length of the flit, its bytes, the poison of each, the number of
the put, and for a PUTF its flag's offset plus 1. -/
def State.flitIn (s : State) (a : List Nat) : State :=
  let x (k : Nat) : Nat := a.getD k 0
  let p := s.putInOf (x 7) (x 0) (x 1) (x 2) (if x 8 = 0 then none else some (x 8 - 1))
  if x 2 < x 3 + x 4 then s
  else
    (if p.refused then s else s.deliverBytes (x 0) (x 4) (cutParts p.dst (x 3) (x 4)) (x 5) ((List.range (x 4)).map fun i => (x 6).testBit i)).setPutIn
      { p with left := p.left - x 4 }

/-- A PUTF's flag from another package: window, offset, value, the number of the put, and the put's offset and length: it is written once the put's
data are here, unless the put is refused. -/
def State.flagIn (s : State) (a : List Nat) : State :=
  let x (k : Nat) : Nat := a.getD k 0
  let p := s.putInOf (x 3) (x 0) (x 4) (x 5) (some (x 1))
  if p.left ≠ 0 then s
  else (if p.refused then s else s.programWrite (partBytes false p.flag (x 2 % 2 ^ 32))).setPutIn { p with flagged := false }

/-- What comes from another package acts, or waits at the link dies while the window's context is suspended (R381). Kinds: 0 a flit, 1 a flag,
2 an atomic (window, offset, kind, operands). -/
def State.linkIn (s : State) (kind : Nat) (a : List Nat) : State :=
  let x (k : Nat) : Nat := a.getD k 0
  if s.linkHeld (x 0) then { s with dev := { s.dev with linkWait := s.dev.linkWait ++ [(kind, a)] } }
  else match kind with
    | 0 => s.flitIn a
    | 1 => s.flagIn a
    | _ => match s.fabAtomic (x 0) (x 1) (x 2) (x 3) (x 4) with | .ok (_, _, s1) => s1 | .error _ => s

/-- What waited at the link dies goes on, the k-th of it. -/
def State.linkGo (s : State) (kind k : Nat) : State :=
  match s.dev.linkWait[k]? with
  | some (j, a) => if j != kind || s.linkHeld (a.getD 0 0) then s else { s with dev := { s.dev with linkWait := s.dev.linkWait.eraseIdx k } }.linkIn kind a
  | none => s

/-- PUT_DELIVERY: a flit of a put of this package (0, operation, flit), one from another package (1, then as `flitIn`), or one that has waited
at the link dies (2, place). -/
def eventPutDelivery (s : State) : State :=
  match s.arg 0 with
  | 0 =>
    match s.fabFind (s.arg 1) with
    | some o => if o.kind ≤ 1 && o.left.contains (s.arg 2) && s.fabReady o (s.arg 2) then s.sendFlit o (s.arg 2) else s
    | none => s
  | 1 => s.linkIn 0 (s.subject.drop 1)
  | _ => s.linkGo 0 (s.arg 1)

/-- PUTF_FLAG_WRITE: the flag of a PUTF of this package whose data have all been delivered here (0, operation) (R239), one from another package
(1, then as `flagIn`), or one that has waited (2, place). -/
def eventPutfFlagWrite (s : State) : State :=
  match s.arg 0 with
  | 0 =>
    match s.fabFind (s.arg 1) with
    | some o => if o.kind == 1 && o.pkg == s.dev.pkgid && o.stage == 1 && o.left.isEmpty && !s.linkHeld o.win
                then (s.programWrite (partBytes false o.flag o.b)).setFab { o with stage := 2 } else s
    | none => s
  | 1 => s.linkIn 1 (s.subject.drop 1)
  | _ => s.linkGo 1 (s.arg 1)

/-- The reply of a FAAR or CASR (R239, R241): the pair is written, the acquire is complete; after a failure with an unspecified value, poisoned. -/
def State.fabReply (s : State) (o : FabOp) (old : Nat) (poison : Bool) (cause : Nat) : State :=
  let (x, s) := if cause = 0 then (old, s) else (let (y, s1) := s.draw; (y.toNat % 2 ^ 64, s1))
  let z := poison || cause != 0
  let r : Result :=
    { id := o.id, gk := o.gk, cls := .other, mask := ~~~0, vw := [], flags := 0
      sw := [(o.dest, ⟨BitVec.ofNat 32 x, z⟩), (o.dest + 1, ⟨BitVec.ofNat 32 (x / 2 ^ 32), z⟩)] }
  ({ s with results := s.results ++ [r] }.setFab { o with left := [], stage := 2, cause := cause }).unmark o.id

/-- An atomic of this package at its own window, or on its way to another package. -/
def State.sendAtomic (s : State) (o : FabOp) : State :=
  if o.pkg != s.dev.pkgid then s.setFab { o with stage := 1, left := [] }
  else match s.fabAtomic o.win o.off o.kind o.a o.b with
    | .error c => s.fabReply o 0 false c.code
    | .ok (old, z, s1) => s1.fabReply o old z 0

/-- FABRIC_ATOMIC_AT_TARGET: an atomic of this package sets out, and acts at once if the window is its own (0, operation); one from another
package (1, window, offset, kind, operands); one that has waited (2, place); or a reply from another package (3, operation, old value,
poison, cause). -/
def eventFabricAtomicAtTarget (s : State) : State :=
  match s.arg 0 with
  | 0 =>
    match s.fabFind (s.arg 1) with
    | none => s
    | some o => if o.kind < 2 || o.stage != 0 || !s.fabReady o 0 then s else s.sendAtomic o
  | 1 => s.linkIn 2 (s.subject.drop 1)
  | 2 => s.linkGo 2 (s.arg 1)
  | _ =>
    match s.fabFind (s.arg 1) with
    | none => s
    | some o => if o.kind < 2 || o.pkg == s.dev.pkgid || o.stage != 1 then s
                else s.fabReply o (s.arg 2 % 2 ^ 64) (s.arg 3 == 1) (s.arg 4)

/-- An acknowledged operation leaves (R240, R241): ACKED, and a failure for the group. -/
def State.fabAcked (s : State) (o : FabOp) : State :=
  let s1 := { s with fab := s.fab.filter fun x => x.id != o.id }
  let s2 := if o.kind ≤ 1 then s1.updWindow o.win fun w => { w with acked := (w.acked + o.len) % 2 ^ 64 } else s1
  if o.cause = 0 then s2 else s2.updGrp o.gk fun g => { g with fabricFail := g.fabricFail ++ [(o.win, o.pkg, o.cause)] }

/-- PUT_ACK: the acknowledgement of an operation that is done here (0, operation), or of a put by another package (1, operation, cause). -/
def eventPutAck (s : State) : State :=
  match s.fabFind (s.arg 1) with
  | none => s
  | some o =>
    if s.arg 0 = 0 then (if o.stage == 2 then s.fabAcked o else s)
    else if o.pkg == s.dev.pkgid || 2 ≤ o.kind || o.stage != 1 || (s.arg 2 == 0 && !o.left.isEmpty) then s else s.fabAcked { o with cause := s.arg 2 }

/-- Whether 700,000 core clocks have gone by since an operation for another package issued (R414). -/
def State.fabLate (s : State) (o : FabOp) : Bool := o.pkg != s.dev.pkgid && o.stage != 2 && decide (o.since + 700000 ≤ s.clock)

/-- FABRIC_DELIVERY_TIMEOUT: no port has reached the target within 700,000 core clocks (R414). -/
def eventFabricDeliveryTimeout (s : State) : State :=
  match s.fabFind (s.arg 0) with
  | none => s
  | some o => if !s.fabLate o then s
              else if o.kind ≤ 1 then s.setFab (o.failed .fabric) else s.fabReply o 0 false Cause.fabric.code

end Sys2Proof.Machine
end

