-- ==== Sys2Proof/Machine/Debug.lean ====
section
/-! DEFINITION. Debug (R440 to R448): features and contexts open, holds and their table, RUN, HALT, REGRD, REGWR, tokens; trace records
(R449 to R451); BKPT (R115); snapshots and clearing of the counters (R453 to R455). -/
namespace Sys2Proof.Machine
open Sys2Proof Host

/-- Whether a feature is open for a context (R440, R442). -/
def Dev.openFor (d : Dev) (feature ctx : Nat) : Bool := d.opened.getLsbD feature && d.ctxopen.getLsbD ctx

/-! ### Trace (R449 to R451) -/

/-- A trace record of a path (R450), made when its kind is enabled and its context open; SEQ counts dropped ones too. -/
def State.traceRec (s : State) (gk pi : Nat) (pc : DWord) (mask : Mask) (kind aux : Nat) : State :=
  match s.grp gk with
  | none => s
  | some g =>
    match s.blk g.blk with
    | none => s
    | some b =>
      if s.dev.tren && s.dev.openFor 3 b.ctx && s.dev.trkinds.testBit kind then
        let c := s.core b.core
        let r := BitVec.ofNat 512 (pc.toNat % 2 ^ 56 * 2 ^ 456 + mask.toNat * 2 ^ 360 + c.traceSeq % 2 ^ 32 * 2 ^ 328 + aux % 2 ^ 32 * 2 ^ 296
          + s.cycleOf b.core % 2 ^ 32 * 2 ^ 264 + b.bid % 2 ^ 32 * 2 ^ 232 + b.task % 2 ^ 16 * 2 ^ 216 + b.core % 2 ^ 12 * 2 ^ 204 + b.ctx % 64 * 2 ^ 198
          + g.gix % 16 * 2 ^ 194 + g.slot % 32 * 2 ^ 189 + pi % 8 * 2 ^ 186 + kind % 64 * 2 ^ 180)
        { s.setCore b.core { c with traceSeq := c.traceSeq + 1 } with dev := { s.dev with tracing := s.dev.tracing ++ [r] } }
      else s

/-- Whether the trace buffer is full (R449): TRPROD − TRCONS, modulo 2^32. -/
def Dev.traceFull (d : Dev) : Bool := (d.trprod + (2 ^ 32 - d.trcons)) % 2 ^ 32 == 2 ^ d.trlog2

/-- The trace unit writes the earliest record to HBM, or drops it while the buffer is full (R449). -/
def State.traceWrite (s : State) : State :=
  let d := s.dev
  match d.tracing with
  | [] => s
  | r :: rest =>
    if d.traceFull then { s with dev := { d with tracing := rest, trdrop := min (d.trdrop + 1) (2 ^ 32 - 1) } }
    else
      let s1 := { s with dev := { d with tracing := rest, trprod := (d.trprod + 1) % 2 ^ 32 } }
      match hbmLinear (d.trbase + 64 * (d.trprod % 2 ^ d.trlog2)) with
      | some a => s1.performWrite (leBytes a false 64 r.toNat)
      | none => s1

/-- Whether an instruction is a lane branch; a uniform branch (R105, R106). -/
def isLaneBranch (i : Instr) : Bool := match i with | .brc _ _ _ _ _ | .brx _ _ | .callx _ _ _ | .ret _ _ => true | _ => false
def isUniformBranch (i : Instr) : Bool := match i with | .br _ _ | .brq _ _ _ _ _ | .call _ _ | .jmps _ _ => true | _ => false

/-- Whether a branch that does not split is taken: some thread's condition holds (R105, R106). -/
def Env.takes (e : Env) (i : Instr) : Bool :=
  match i with
  | .brc _ _ k n p => (threadsOf e.p.mask).any fun t => e.pred k n p t
  | .brq _ _ k n p => e.upred k n p
  | _ => true

/-- Added to its STOPTAG it marks a stop that PRESUME does not resume (R436). -/
def controlTag : Nat := 2 ^ 64

/-- The cause of the record a stop's STOPTAG names. -/
def State.stopCause (s : State) (core tag : Nat) : Option Nat :=
  (((s.core core).coalescer.map (·.2) ++ s.records ++ s.stopRecs.map (·.2)).find? fun (r : Rec) => r.tag == tag).map (·.cause)

/-- The cause of a trap, after which the path stands so. -/
def State.causeOf (s : State) (g : Grp) (p : Path) : Nat :=
  match p.wait with
  | .handler c _ _ => c
  | .escalated t => (s.stopCause ((s.blk g.blk).map (·.core) |>.getD 0) t).getD (g.trapCause.toNat % 256)
  | _ => g.trapCause.toNat % 256

/-- Whether a path has trapped since it stood as p0: it entered the handler, waits to, or was escalated (R260, R262). -/
def Path.trapped (p p0 : Path) : Bool :=
  let queued (q : Path) : Bool := match q.wait with | .handler _ _ _ => true | .escalated t => decide (t < controlTag) | _ => false
  p0.st != .free && p.st != .free && p.mask &&& ~~~p0.mask == 0 && !queued p0 && ((p.hnd && !p0.hnd) || queued p)

/-- The trace records of what happened to a group's paths, but for the one at `skip` (R450): traps, and merges. -/
def State.tracePaths (s : State) (gk : Nat) (g0 g : Grp) (skip : Option Nat) : State :=
  (List.range 8).foldl (fun s i =>
    let p0 := g0.path i; let p := g.path i
    if skip == some i then s
    else if p.trapped p0 then s.traceRec gk i p0.pc p.mask 4 (s.causeOf g p)
    else if p0.st != .free && p.st != .free && p.pc == p0.pc && p.mask != p0.mask
      && (List.range 8).any (fun j => j != i && p.mask == p0.mask ||| (g0.path j).mask && (g.path j).st == .free) then s.traceRec gk i p.pc p.mask 2 2
    else s) s

/-- The trace records of a change of the machine (R450): a group placed, evicted or returned has one of its own, of the lowest entry its table
holds (log entry 112). -/
def State.traceChange (s s0 : State) (skip : Option (Nat × Nat)) : State :=
  if !s.dev.tren then s
  else s.groups.foldl (fun s (e : Nat × Grp) =>
    let i := ((List.range 8).find? fun i => (e.2.path i).st != .free).getD 0
    let one (kind : Nat) : State := s.traceRec e.1 i (e.2.path i).pc (e.2.path i).mask kind 0
    match s0.grp e.1 with
    | none => one 9
    | some g0 =>
      if g0.resident && !e.2.resident then one 10
      else if !g0.resident && e.2.resident then one 11
      else s.tracePaths e.1 g0 e.2 (skip.bind fun k => if k.1 = e.1 then some k.2 else none)) s

/-- The trace records of an issued instruction (R450): what became of the path that issued it, and of others. -/
def State.traceIssue (s : State) (i : Instr) (gk pi : Nat) (s0 : State) : State :=
  let p0 := ((s0.grp gk).map fun g => g.path pi).getD Path.free
  let s := s.traceChange s0 (some (gk, pi))
  match s.grp gk with
  | none => s
  | some g =>
    let p := g.path pi
    let parts := (g.paths.filter fun q => q.st != .free && q.mask &&& p0.mask != 0 && q.mask &&& ~~~p0.mask == 0).length
      + (g.spilled.filter fun e => e.2.mask &&& p0.mask != 0 && e.2.mask &&& ~~~p0.mask == 0).length
    if p.st == .free then s.traceRec gk pi p0.pc p0.mask 8 0
    else if p.trapped p0 then s.traceRec gk pi p0.pc p.mask 4 (s.causeOf g p)
    else if isLaneBranch i && 1 < parts then s.traceRec gk pi p0.pc p0.mask 1 parts
    else if (isLaneBranch i || isUniformBranch i) && (s0.env.any fun e => e.takes i) then s.traceRec gk pi p0.pc p0.mask 3 p.pc.toNat
    else s

/-! ### Holds (R444 to R446) -/


/-- A path is held (R445): STOPPED with reason 17, an entry of the stop table, vector 64. `src` and `cmp` as in the entry. -/
def State.hold (s : State) (gk pi src cmp : Nat) : State :=
  match s.grp gk with
  | none => s
  | some g =>
    match s.blk g.blk with
    | none => s
    | some b =>
      let p := g.path pi
      let image := BitVec.ofNat 256 (p.pc.toNat % 2 ^ 56 * 2 ^ 200 + p.mask.toNat * 2 ^ 104 + b.bid % 2 ^ 32 * 2 ^ 72 + b.task % 2 ^ 16 * 2 ^ 56
        + b.core % 2 ^ 12 * 2 ^ 44 + b.ctx % 64 * 2 ^ 38 + g.gix % 16 * 2 ^ 34 + g.slot % 32 * 2 ^ 29 + pi % 8 * 2 ^ 26 + src % 8 * 2 ^ 23
        + cmp % 8 * 2 ^ 20 + 1)
      let s1 := s.traceRec gk pi p.pc p.mask 5 src
      let s2 := { s1 with seq := s1.seq + 1, dev := s1.dev.place ⟨s1.seq, gk, image⟩ }
      (s2.updPath gk pi fun q => { q with st := .stopped, wait := .debug s1.seq, step := 0 }).msix 64

/-- The comparator a path's PC meets, if one is live for its context and task (R444). -/
def Dev.compHit (d : Dev) (b : Blk) (p : Path) : Option Nat :=
  (List.range 8).find? fun i =>
    let c := SMap.get 0 d.comps i
    c.getLsbD 48 && c.extractLsb' 72 56 == p.pc.setWidth 56 && (c.extractLsb' 66 6).toNat == b.ctx
      && (c.getLsbD 49 || (c.extractLsb' 50 16).toNat == b.task) && d.openFor 0 b.ctx

/-- Paths a comparator begins to match where they stand are not stopped by it: a path stops when its PC takes the value (R444). -/
def State.spareMet (s s0 : State) : State :=
  if s.dev.comps.isEmpty then s
  else { s with groups := s.groups.map fun (e : Nat × Grp) => (e.1, match s.blk e.2.blk with
    | none => e.2
    | some b => { e.2 with paths := e.2.paths.map fun p =>
        if p.st != .free && (s0.dev.compHit b p).isNone && (s.dev.compHit b p).isSome then { p with exempt := true } else p }) }

/-- Whether a LIVE path must be held before it issues: SRC and comparator. -/
def Env.mustHold (e : Env) : Option (Nat × Nat) :=
  if e.p.step = 3 then some (3, 0) else if e.p.step = 2 then some (2, 0)
  else if e.p.exempt then none else (e.s.dev.compHit e.b e.p).map fun c => (0, c)

/-- BKPT (R115, R445). -/
def execBkpt (stl : BitVec 3) (code : BitVec 14) (s : State) : Outcome State Fault Refusal :=
  issueWith (.bkpt stl code) (fun e =>
    .next (if s.dev.bkpten && s.dev.openFor 0 e.b.ctx then s.hold e.gk e.pi 1 0 else e.trapAll (trapI .bkpt code.toNat))) s

/-- The held path of a stop goes on (R446): from BKPT at PC + 4; `step` for mode 1. -/
def Path.resumeHeld (id : Nat) (bkpt step : Bool) (p : Path) : Path :=
  if p.wait == .debug id then
    { p with st := .live, wait := .none, pc := if bkpt then p.pc + 4 else p.pc, exempt := true, step := if step then 1 else 0 }
  else p

/-- RUN of an entry (R446); a stop that waits takes the entry freed. -/
def State.runEntry (s : State) (i : Nat) (step : Bool) : State :=
  match SMap.find? s.dev.stops i with
  | none => s
  | some x =>
    let f := Path.resumeHeld x.id ((x.image.extractLsb' 23 3).toNat == 1) step
    let d := s.dev.dropStops (· == x)
    let pi := (x.image.extractLsb' 26 3).toNat
    let pc := (x.image.extractLsb' 200 56).setWidth 64; let m := x.image.extractLsb' 104 96
    let s1 := ({ s with dev := d }).updGrp x.gk fun g => { g with
      paths := g.paths.map f, spilled := g.spilled.map fun (e : Nat × Path) => (e.1, f e.2), progress := 0, issued := false }
    s1.traceRec x.gk pi pc m 6 0

/-! ### The debug commands (R442, R443, R445 to R447, R455) -/

/-- The results of a command: 0 OK, 1 BADCTX, 2 BADSTATE, 3 BADARG, 4 CLOSED. -/
def State.dbgDone (s : State) (r : Nat) : State := { s with dev := { s.dev with dbusy := none, dresult := r } }
/-- Whether a debug command is in progress where none is accepted (R459, R462). -/
def State.dbusyOff (s : State) : Bool := s.dev.dbusy.isSome && (s.dev.axolotl || s.fatal)
/-- A debug command has its effect, but in Axolotl mode and in the fatal state ends with BADSTATE (R459, R462; log entry 111). -/
def State.dbgOpen (s : State) (f : State → State) : State := if s.dbusyOff then s.dbgDone 2 else f s
/-- Whether the debug command in progress has the code. -/
def State.dbg (s : State) (code : Nat) : Bool := s.dev.dbusy == some code

/-- The bytes of the token area and of a field of it (R441), by the word of 8 bytes. -/
def Dev.tokenBytes (d : Dev) (off n : Nat) : List Byte :=
  (List.range n).map fun i => (SMap.get 0 d.token ((off + i) / 8)).extractLsb' (8 * ((off + i) % 8)) 8
def bytesNat (l : List Byte) : Nat := l.foldr (fun b n => b.toNat + 256 * n) 0
/-- A bit field of the token. -/
def Dev.tokenField (d : Dev) (lo n : Nat) : Nat := bytesNat (d.tokenBytes 0 128) / 2 ^ lo % 2 ^ n

/-- The SHA-256 of bytes (R441, R442). -/
def sha256 (bs : List Byte) : Nat := Config.digest 0 (bs.map fun (b : Byte) => b.toNat) % 2 ^ 256
/-- The 32 bytes of the package's identity public key, the lowest first (R21). -/
def identityKey : List Byte := (List.range 32).map fun i => BitVec.ofNat 8 (Config.identity 0 / 2 ^ (8 * i))

/-- The first check of R442 a token fails: IDENT is the SHA-256 of this package's identity key, and SIGNER's is the digest in the fuses; SIG is
judged by an open function of Config. -/
def Dev.tokenReason (d : Dev) : Nat :=
  let feat := d.tokenField 96 7
  let allowed := match d.kept.lcs with | 0 => 0x3F | 1 => d.kept.prodmax % 64 | 2 => 0x3F | _ => 0
  if d.tokenField 0 32 ≠ 0x54474244 ∨ d.tokenField 32 64 ≠ 0 ∨ d.tokenField 103 25 ≠ 0 ∨ d.tokenField 192 64 ≠ 0 then 1
  else if d.tokenField 256 256 ≠ sha256 identityKey then 2
  else if d.tokenField 512 256 ≠ d.nonce.toNat then 3
  else if sha256 (d.tokenBytes 96 32) ≠ d.kept.authority then 4
  else if !Config.verifies 2 (d.tokenBytes 0 128) (d.tokenBytes 128 7856) then 5
  else if d.kept.lcs = 3 ∨ feat % 128 &&& (127 - allowed) ≠ 0 then 6 else 0

/-- VERIFY (R442). -/
def State.verify (s : State) : State :=
  if s.dbg 1 then
    let d := s.dev
    match d.tokenReason with
    | 0 => (State.spareMet { s with dev := { d with opened := d.opened ||| BitVec.ofNat 7 (d.tokenField 96 7), ctxopen := d.ctxopen ||| BitVec.ofNat 64 (d.tokenField 128 64) } } s).dbgDone 0
    | r => ({ s with dev := { d with tokrej := min (d.tokrej + 1) 65535, lastrej := r } }).dbgDone 0
  else s

/-- CLOSE (R442, R443): closing STOPS resumes every held path. -/
def State.close (s : State) : State :=
  if s.dbg 2 then
    let d := s.dev
    let m := (d.dcarg 0).setWidth 7
    let s1 := { s with dev := { d with opened := d.opened &&& ~~~m } }
    let s2 := if m.getLsbD 0 then (List.range (64 + d.stopWait.length)).foldl (fun s i => s.runEntry (i % 64) false) s1 else s1
    s2.dbgDone 0
  else s

/-- HALT (R445): every path of the group is to stop. -/
def State.halt (s : State) : State :=
  if s.dbg 3 then
    match List.find? (fun (e : Nat × Grp) => e.2.resident && (match s.blk e.2.blk with | some b => b.core == (s.dev.dcarg 0).toNat | none => false)
        && e.2.slot == (s.dev.dcarg 1).toNat && e.2.alive != 0) s.groups with
    | none => s.dbgDone 3
    | some (gk, g) =>
      if s.dev.openFor 0 ((s.blk g.blk).map (·.ctx) |>.getD 64) then
        let f (p : Path) : Path := if p.st == .live || p.st == .parked then { p with step := 3 } else p
        (s.setGrp gk { g with paths := g.paths.map f, spilled := g.spilled.map fun e => (e.1, f e.2) }).dbgDone 0
      else s.dbgDone 4
  else s

/-- The context of a stop. -/
def Stop.ctx (x : Stop) : Nat := (x.image.extractLsb' 38 6).toNat

/-- RUN (R446). -/
def State.run (s : State) : State :=
  if s.dbg 4 then
    match SMap.find? s.dev.stops (s.dev.dcarg 0).toNat with
    | none => s.dbgDone 2
    | some x => if !s.dev.openFor 0 x.ctx then s.dbgDone 4
      else if 2 ≤ (s.dev.dcarg 1).toNat then s.dbgDone 3
      else (s.runEntry (s.dev.dcarg 0).toNat ((s.dev.dcarg 1) == 1)).dbgDone 0
  else s

/-- The entry, group, thread, class and register a REGRD or REGWR names, or its RESULT (R447). -/
def State.regArgs (s : State) (feature : Nat) : Except Nat (Nat × Grp × Nat × Nat × Nat) :=
  match SMap.find? s.dev.stops (s.dev.dcarg 0).toNat with
  | none => .error 2
  | some x =>
    let a := (s.dev.dcarg 1).toNat
    let t := a / 2 ^ 16 % 256; let cls := a / 256 % 256; let r := a % 256
    match s.grp x.gk with
    | none => .error 2
    | some g =>
      match s.blk g.blk with
      | none => .error 2
      | some b =>
        if !s.dev.openFor feature x.ctx then .error 4
        else if 2 ≤ cls ∨ (cls = 0 ∧ (96 ≤ t ∨ !allotted g b r)) ∨ (cls = 1 ∧ 64 ≤ r) then .error 3
        else if g.pend.any fun p => p.reg == (if cls = 0 then .v r else .s r) && (cls == 1 || p.mask.getLsbD t) then .error 2
        else .ok (x.gk, g, t, cls, r)

/-- REGRD (R447). -/
def State.regrd (s : State) : State :=
  if s.dbg 5 then
    match s.regArgs 1 with
    | .error r => s.dbgDone r
    | .ok (_, g, t, cls, r) =>
      let x := if cls = 0 then (match s.blk g.blk with | some b => rdV g b r t | none => RegVal.zero) else SMap.get RegVal.zero g.s r
      ({ s with dev := { s.dev with data := BitVec.ofNat 64 (x.val.toNat + x.poison.toNat * 2 ^ 32) } }).dbgDone 0
  else s

/-- REGWR (R447). -/
def State.regwr (s : State) : State :=
  if s.dbg 6 then
    match s.regArgs 2 with
    | .error r => s.dbgDone r
    | .ok (gk, _, t, cls, r) =>
      let x : RegVal := ⟨(s.dev.dcarg 2).setWidth 32, (s.dev.dcarg 2).getLsbD 32⟩
      let s1 := s.savedWrites gk (if cls = 0 then [(128 * r + t, x)] else [])
      (if cls = 0 then s1.wrV gk r t x else s1.updGrp gk fun g => { g with s := SMap.set RegVal.zero g.s r x }).dbgDone 0
  else s

/-! ### Counters (R452 to R455) -/

/-- Word n of a core's live counters (R453): SLOTS is the clocks since the last clearing, EMPTY what no other leaf has. -/
def State.counter (s : State) (core n : Nat) : Nat :=
  let c := s.core core
  let slots := s.clock - c.countsFrom
  if n = 0 then c.snapseq
  else if n = 1 then slots
  else if n = 10 then slots - (c.counts.filter fun e => e.1 < 18).foldl (fun t e => t + e.2) 0
  else SMap.get 0 c.counts n

/-- SNAP (R455). -/
def State.snapAll (s : State) : State :=
  if s.dbg 7 then
    ((List.range 1152).foldl (fun s k =>
      let words := (List.range 22).foldl (fun m i => SMap.set 0 m (i + 1) (s.counter k (i + 1))) []
      s.updCore k fun c => { c with snap := words, snapseq := c.snapseq + 1 }) s).dbgDone 0
  else s

/-- CNTCLR (R443): every word of the live counters, SNAPSEQ with them; the snapshot stays (log entry 110). -/
def State.cntClear (s : State) : State :=
  if s.dbg 8 then
    ((List.range 1152).foldl (fun s k => s.updCore k fun c => { c with counts := [], countsFrom := s.clock, snapseq := 0 }) s).dbgDone 0
  else s

end Sys2Proof.Machine
end

