-- ==== Sys2Proof/Machine/System.lean ====
section
/-! DEFINITION. Special registers (R110, R113, R117, R119), WAITBLK (R117), RACQ and RREL (R118). -/
namespace Sys2Proof.Machine
open Sys2Proof Host

/-- The value of a special register as a thread reads it (R110); 127 stands for the uniform form. -/
def Env.special (e : Env) (n t : Nat) : Word :=
  let nat (x : Nat) : Word := BitVec.ofNat 32 x
  match n with
  | 0x00 => nat t | 0x01 => nat (t % 32) | 0x02 => nat (t / 32) | 0x03 => nat e.g.gix | 0x04 => nat e.b.bid | 0x05 => nat e.b.nblk
  | 0x06 => nat (if e.b.clsz = 0 then 0 else e.b.bid % e.b.clsz) | 0x07 => nat e.b.clsz | 0x08 => nat e.b.task | 0x09 => nat e.pi
  | 0x0A => e.p.mask.extractLsb' 0 32 | 0x0B => e.p.mask.extractLsb' 32 32 | 0x0C => e.p.mask.extractLsb' 64 32
  | 0x0D => e.g.flags.setWidth 32
  | 0x0E => e.g.trapMask.extractLsb' 0 32 | 0x0F => e.g.trapMask.extractLsb' 32 32 | 0x10 => e.g.trapMask.extractLsb' 64 32
  | 0x11 => e.g.trapCause | 0x12 => e.g.trapPc.extractLsb' 0 32 | 0x13 => e.g.bankc
  | 0x14 => nat e.b.core | 0x15 => nat (e.b.core / 144) | 0x16 => nat (e.s.cycleOf e.b.core)
  | 0x17 => if e.b.det then nat e.g.retpfx else nat (match e.s.task e.b.ctx e.b.task with | some x => x.pfx | none => 0)
  | 0x18 => leaseStatus (e.s.mx e.b.core) e.g.blk
  | 0x19 => ((e.s.ctx e.b.ctx).desc.extractLsb' 496 8).setWidth 32
  | 0x1A => nat e.g.partn | 0x1B => e.g.rmode | 0x1C => e.g.cycleh | 0x1D => e.g.trapPc.extractLsb' 32 32
  | _ => SMap.get 0 e.g.x (n - 0x1E)

/-- The numbers that trap DETERM under DET (R119, R206). -/
def determSpecial (n : Nat) : Bool := [0x09, 0x14, 0x15, 0x16, 0x18, 0x1C].contains n

/-- A read of CYCLE latches the high half (R110). -/
def State.latchCycle (s : State) (gk core n : Nat) : State :=
  if n = 0x16 then s.updGrp gk fun g => { g with cycleh := BitVec.ofNat 32 (s.cycleOf core / 2 ^ 32) } else s

/-- SREAD, lane form (R110). -/
def execSread (stl : BitVec 3) (d n : BitVec 7) (s : State) : Outcome State Fault Refusal :=
  let i : Instr := .sread stl d n
  issueWith i (fun e =>
    if e.b.det && determSpecial n.toNat then .next (e.trapAll (trap .determ))
    else issueLane i (fun e t => { vw := [(e.g.num d, ⟨e.special n.toNat t, false⟩)] }) (s.latchCycle e.gk e.b.core n.toNat)) s
/-- SREAD, uniform form (R110). -/
def execSreadU (stl : BitVec 3) (d n : BitVec 7) (s : State) : Outcome State Fault Refusal :=
  let i : Instr := .sreadU stl d n
  issueWith i (fun e =>
    if e.b.det && determSpecial n.toNat then .next (e.trapAll (trap .determ))
    else issueUniform i (fun e => { sw := [(d.toNat, ⟨e.special n.toNat 127, false⟩)] }) (s.latchCycle e.gk e.b.core n.toNat)) s

/-- SWRITE (R110, R113): takes effect when it retires. -/
def execSwrite (stl : BitVec 3) (n a : BitVec 7) (s : State) : Outcome State Fault Refusal :=
  issueUniform (.swrite stl n a) (fun e =>
    if (e.uni a).poison then { err := some (trap .poison) } else { spec := some (n.toNat, (e.uni a).val) }) s

/-- The special register an SWRITE writes when it retires (R84, R86, R110). -/
def Grp.writeSpecial (g : Grp) (n : Nat) (x : Word) : Grp :=
  match n with
  | 0x0D => { g with flags := flagsWritten x }
  | 0x13 => { g with bankc := x }
  | 0x1A => if [2, 4, 8, 16, 32].contains x.toNat then { g with partn := x.toNat } else g
  | 0x1B => { g with rmode := rmodeWritten g.rmode x }
  | _ => g

/-! ### WAITBLK (R117) -/

/-- The retired prefix of a block's task. -/
def State.prefixOf (s : State) (b : Blk) : Nat := match s.task b.ctx b.task with | some t => t.pfx | none => 0

/-- WAITBLK (R117). -/
def execWaitblk (stl : BitVec 3) (a : BitVec 7) (s : State) : Outcome State Fault Refusal :=
  let i : Instr := .waitblk stl a
  issueWith i (fun e =>
    let n := (e.uni a).val.toNat
    if !e.b.det then .next (e.trapAll (trap .task))
    else if (e.uni a).poison then .next (e.trapAll (trap .poison))
    else if e.b.bid < n then .next (e.trapAll (trap .task))
    else if n ≤ s.prefixOf e.b then .next (e.finish i (e.nextPc i) [] (s.updGrp e.gk fun g => { g with retpfx := max g.retpfx n }))
    else .next (e.park i (.waitblk n) s)) s

/-! ### The extended set (R118) -/

/-- RACQ (R118). -/
def execRacq (stl : BitVec 3) (s : State) : Outcome State Fault Refusal :=
  let i : Instr := .racq stl
  issueWith i (fun e =>
    if e.b.xregs = 0 then .next (e.trapAll (trap .regBounds))
    else if e.b.holder == some e.g.gix then .next (e.finish i (e.nextPc i) [] s)
    else .next ((e.park i .racq s).grantSet e.g.blk)) s

/-- RREL (R118). -/
def execRrel (stl : BitVec 3) (s : State) : Outcome State Fault Refusal :=
  let i : Instr := .rrel stl
  issueEffect i (fun e => .ok (if e.b.holder == some e.g.gix then s.releaseSet e.g.blk e.gk e.g.gix e.p.mask else s)) s

end Sys2Proof.Machine
end

