-- ==== Sys2Proof/Machine/Spectral.lean ====
section
/-! DEFINITION. Spectral packets and polarisation (R137 to R144); WLUT and WCMF, which read the context's tables, are in
Machine/Textures.lean. -/
namespace Sys2Proof.Machine
open Sys2Proof Host

/-- Slot i of the spectral register k + c of a field (R81): c counts the registers of a pair or Stokes group. -/
def Env.slot (e : Env) (f : BitVec 7) (c i t : Nat) : RegVal := e.span f 8 (8 * c + i) t

/-- A spectral result: for each register of the destination group its eight slots, each with its flags. -/
def packetRes (e : Env) (d : BitVec 7) (ws : List (Nat × (RegVal × Flags))) : TRes :=
  { vw := ws.map fun w => (8 * e.g.num d + w.1, w.2.1), fl := ws.foldl (fun f w => f ||| w.2.2) 0 }

/-- Eight slots, each from its index. -/
def slots8 (c : Nat) (f : Nat → RegVal × Flags) : List (Nat × (RegVal × Flags)) := (List.range 8).map fun i => (8 * c + i, f i)

/-- A slot-wise FP32 operation on A and B (R138). -/
def slotBin (d a b : BitVec 7) (f : RMode → Nat → Nat → Nat × Flags) (e : Env) (t : Nat) : TRes :=
  packetRes e d (slots8 0 fun i =>
    let x := e.slot a 0 i t; let y := e.slot b 0 i t
    let r := f (arithMode e.g) x.val.toNat y.val.toNat
    (⟨w32 r.1, x.poison || y.poison⟩, r.2))

/-- WADD (R138). -/
def execWadd (stl : BitVec 3) (d a b : BitVec 7) (s : State) : Outcome State Fault Refusal :=
  issueLane (.wadd stl d a b) (slotBin d a b (fAdd .fp32)) s
/-- WSUB (R138). -/
def execWsub (stl : BitVec 3) (d a b : BitVec 7) (s : State) : Outcome State Fault Refusal :=
  issueLane (.wsub stl d a b) (slotBin d a b (fSub .fp32)) s
/-- WMUL (R138). -/
def execWmul (stl : BitVec 3) (d a b : BitVec 7) (s : State) : Outcome State Fault Refusal :=
  issueLane (.wmul stl d a b) (slotBin d a b (fMul .fp32)) s
/-- WMIN (R138). -/
def execWmin (stl : BitVec 3) (d a b : BitVec 7) (s : State) : Outcome State Fault Refusal :=
  issueLane (.wmin stl d a b) (slotBin d a b (fun _ => fMinMax .fp32 false)) s
/-- WMAX (R138). -/
def execWmax (stl : BitVec 3) (d a b : BitVec 7) (s : State) : Outcome State Fault Refusal :=
  issueLane (.wmax stl d a b) (slotBin d a b (fun _ => fMinMax .fp32 true)) s
/-- WFMA (R138): D is the third source. -/
def execWfma (stl : BitVec 3) (d a b : BitVec 7) (s : State) : Outcome State Fault Refusal :=
  issueLane (.wfma stl d a b) (fun e t => packetRes e d (slots8 0 fun i =>
    part32 (arithMode e.g) [(false, [e.slot a 0 i t, e.slot b 0 i t]), (false, [e.slot d 0 i t])])) s
/-- WSCL (R138): every slot times b. -/
def execWscl (stl : BitVec 3) (d a b : BitVec 7) (s : State) : Outcome State Fault Refusal :=
  issueLane (.wscl stl d a b) (fun e t => packetRes e d (slots8 0 fun i =>
    part32 (arithMode e.g) [(false, [e.slot a 0 i t, e.vec b t])])) s
/-- WBCST (R138): the bits of vA in every slot. -/
def execWbcst (stl : BitVec 3) (d a : BitVec 7) (s : State) : Outcome State Fault Refusal :=
  issueLane (.wbcst stl d a) (fun e t => packetRes e d (slots8 0 fun _ => (e.vec a t, 0))) s
/-- WSUM (R138): the exact sum of the slots, rounded once. -/
def execWsum (stl : BitVec 3) (d a : BitVec 7) (s : State) : Outcome State Fault Refusal :=
  issueLane (.wsum stl d a) (fun e t =>
    let r := part32 (arithMode e.g) ((List.range 8).map fun i => (false, [e.slot a 0 i t]))
    { vw := [(e.g.num d, r.1)], fl := r.2 }) s
/-- WEXP (R138): e to each slot. -/
def execWexp (stl : BitVec 3) (d a : BitVec 7) (s : State) : Outcome State Fault Refusal :=
  issueLane (.wexp stl d a) (fun e t => packetRes e d (slots8 0 fun i =>
    let x := e.slot a 0 i t; let r := SpecFn.exp.eval x.val
    (⟨r.1, x.poison⟩, r.2))) s
/-- The wavelength of slot i of a hero packet at offset ξ (R139). -/
def heroSlot (xi : Rat) (i : Nat) : Word :=
  let y := xi + (i : Rat) / 8
  w32 (roundTo .fp32 .rtz (.ofRat (360 + 470 * (y - y.floor)))).1
/-- WHERO (R139). -/
def execWhero (stl : BitVec 3) (d a : BitVec 7) (s : State) : Outcome State Fault Refusal :=
  issueLane (.whero stl d a) (fun e t =>
    let x := e.vec a t
    match Fmt.fp32.value x.val.toNat with
    | .nan _ | .inf _ => packetRes e d (slots8 0 fun _ => (⟨w32 Fmt.fp32.qnan, x.poison⟩, fIV))
    | v => packetRes e d (slots8 0 fun i => (⟨heroSlot v.rat i, x.poison⟩, 0))) s
/-- WROTS (R142): the frame of a Stokes group turned by πt. The factors' own inexactness raises no flag (log entry 11), and a
faithful factor of 2t makes the choice that COSPI or SINPI makes for the operand t (DESIGN CHOICE, log entry 126). -/
def execWrots (stl : BitVec 3) (d a b : BitVec 7) (s : State) : Outcome State Fault Refusal :=
  issueLane (.wrots stl d a b) (fun e t =>
    let x := e.vec b t; let m := arithMode e.g
    let keep (c : Nat) := slots8 c fun i => negElem false (e.slot a c i t)
    let turn : List (Nat × (RegVal × Flags)) :=
      match Fmt.fp32.value x.val.toNat with
      | .nan _ | .inf _ =>
        let bad (c : Nat) := slots8 c fun i =>
          ((⟨w32 Fmt.fp32.qnan, (e.slot a 1 i t).poison || (e.slot a 2 i t).poison || x.poison⟩, fIV) : RegVal × Flags)
        bad 1 ++ bad 2
      | v =>
        let c := (cosPi 6 x.val (2 * v.rat)).1
        let sn := if v.rat = 0 then f32Zero (v == .zero true) else (sinPi 5 x.val (2 * v.rat)).1
        let cr : RegVal := ⟨w32 c, x.poison⟩; let sr : RegVal := ⟨w32 sn, x.poison⟩
        let si := siOf .fp32 [x.val.toNat]
        let elem (ts : List (Bool × List RegVal)) : RegVal × Flags :=
          let r := sumRound .fp32 m (ts.map fun t => ⟨t.1, t.2.map fun y => Fmt.fp32.value y.val.toNat⟩)
          (⟨w32 r.1, ts.any fun t => t.2.any (·.poison)⟩, r.2 ||| si)
        let sub (i : Nat) := siOf .fp32 [(e.slot a 1 i t).val.toNat, (e.slot a 2 i t).val.toNat]
        (slots8 1 fun i =>
          let r := elem [(false, [e.slot a 1 i t, cr]), (false, [e.slot a 2 i t, sr])]; (r.1, r.2 ||| sub i)) ++
        (slots8 2 fun i =>
          let r := elem [(false, [e.slot a 2 i t, cr]), (true, [e.slot a 1 i t, sr])]; (r.1, r.2 ||| sub i))
    packetRes e d (keep 0 ++ turn ++ keep 3)) s
/-- WMUEL (R143): the four-parameter Mueller matrix of B on the Stokes vector of A. -/
def execWmuel (stl : BitVec 3) (d a b : BitVec 7) (s : State) : Outcome State Fault Refusal :=
  issueLane (.wmuel stl d a b) (fun e t =>
    let m := arithMode e.g
    let S (c i : Nat) := e.slot a c i t
    let M (c i : Nat) := e.slot b c i t
    packetRes e d (
      (slots8 0 fun i => part32 m [(false, [M 0 i, S 0 i]), (false, [M 1 i, S 1 i])]) ++
      (slots8 1 fun i => part32 m [(false, [M 1 i, S 0 i]), (false, [M 0 i, S 1 i])]) ++
      (slots8 2 fun i => part32 m [(false, [M 2 i, S 2 i]), (false, [M 3 i, S 3 i])]) ++
      (slots8 3 fun i => part32 m [(true, [M 3 i, S 2 i]), (false, [M 2 i, S 3 i])]))) s
/-- WFRES (R144): the Mueller parameters of reflection, slot by slot. -/
def execWfres (stl : BitVec 3) (d a b : BitVec 7) (s : State) : Outcome State Fault Refusal :=
  issueLane (.wfres stl d a b) (fun e t =>
    let mu := e.vec b t
    packetRes e d ((List.range 8).flatMap fun i =>
      let eta := e.slot a 0 i t; let ka := e.slot a 1 i t
      let z := eta.poison || ka.poison || mu.poison
      let r := fresnelSlot eta.val ka.val mu.val
      (List.range 4).map fun c => (8 * c + i, (⟨r.1.getD c 0, z⟩, r.2)))) s

end Sys2Proof.Machine
end

