-- ==== Sys2Proof/Machine/Textures.lean ====
section
/-! DEFINITION. Lookups: spectral tables (WLUT and WCMF, R140, R141, R398) and textures (TEX and WTEX, R218, R219, R323, R399, R400).
Values are formed exactly and rounded once. -/
namespace Sys2Proof.Machine
open Sys2Proof Host

/-! ### WLUT and WCMF (R140, R141) -/

/-- A table value read as it stands: a NaN is the canonical one, and raises IV if it is signalling (R75; log entry 51). -/
def plainValue (v : Nat) : Nat × Flags := match f32 v with | .nan s => (Fmt.fp32.qnan, if s then fIV else 0) | _ => (v, 0)

/-- A table value at a wavelength: the FP32 bits, the flags, and the bins it reads. -/
def SpecTab.at (x : SpecTab) (lam : Nat) : Nat × Flags × List Nat :=
  let n := x.vals.length
  let v (j : Nat) : Nat := x.vals.getD j 0
  let si : Flags := siOf .fp32 [lam]
  let plain (j : Nat) : Nat × Flags × List Nat := ((plainValue (v j)).1, (plainValue (v j)).2 ||| si, [j])
  let stop (j : Nat) : Nat × Flags × List Nat := if x.edge = 1 then plain j else (0, si, [])
  match f32 lam with
  | .nan _ => (Fmt.fp32.qnan, fIV, [])
  | l =>
    if n = 1 then plain 0
    else match l with
      | .inf neg => if neg then stop 0 else stop (n - 1)
      | l =>
        let u := (l.rat - q32 x.l0) / q32 x.dl
        if u < 0 then stop 0
        else if ((n - 1 : Nat) : Rat) < u then stop (n - 1)
        else
          let j := min u.floor.toNat (n - 2)
          let f := u - j
          let a := f32 (v j); let b := f32 (v (j + 1))
          let (d, i1) := exactSum false [b, a.negate]
          let (p, i2) := (FVal.ofRat f).mul d
          let (s, i3) := exactSum false [a, p]
          let (y, fl) := roundTo .fp32 .rne (match s with | .nan _ => .nan false | w => w)
          (y, fl ||| si ||| (if i1 || i2 || i3 || a.isSNan || b.isSNan then fIV else 0), [j, j + 1])

/-- Whether a line read for these bins of a slot is poisoned. -/
def State.binPoison (s : State) (ctx idx : Nat) (bins : List Nat) : Bool :=
  let c := s.ctx ctx
  let home (off : Nat) : Nat := c.tabHome ((tabKind c 1).1 + 1024 * idx + off)
  s.mem.poisoned (home 0) || bins.any fun j => s.mem.poisoned (home (64 + 4 * j))

/-- WLUT (R140). -/
def execWlut (stl : BitVec 3) (d a b : BitVec 7) (s : State) : Outcome State Fault Refusal :=
  issueVariable (.wlut stl d a b) .other (fun e t =>
    let idx := (e.vec b t)
    match e.s.specTable e.b.ctx idx.val.toNat with
    | none => { err := some (trap .access) }
    | some (x, _) =>
      let ys := (List.range 8).map fun i => x.at (e.slot a 0 i t).val.toNat
      let z := idx.poison || e.s.binPoison e.b.ctx idx.val.toNat (ys.flatMap (·.2.2))
      packetRes e d (slots8 0 fun i =>
        let y := ys.getD i (0, 0, [])
        (⟨BitVec.ofNat 32 y.1, z || (e.slot a 0 i t).poison⟩, y.2.1))) s

/-- WCMF (R141). -/
def execWcmf (stl : BitVec 3) (d a b : BitVec 7) (s : State) : Outcome State Fault Refusal :=
  issueVariable (.wcmf stl d a b) .other (fun e t =>
    let x3 := (SMap.get 0 e.g.x 3).toNat
    match (List.range 4).mapM fun c => e.s.specTable e.b.ctx (x3 + c) with
    | none => { err := some (trap .access) }
    | some ts =>
      let rs := ts.map fun x => (List.range 8).map fun i => x.1.at (e.slot b 0 i t).val.toNat
      let z := (List.range 4).any fun c => e.s.binPoison e.b.ctx (x3 + c) ((rs.getD c []).flatMap (·.2.2))
      let src := (List.range 8).any fun i => (e.slot a 0 i t).poison || (e.slot b 0 i t).poison
      packetRes e d (slots8 0 fun c =>
        if 4 ≤ c then (⟨0, z⟩, 0)
        else
          let r := rs.getD c []
          let terms := (List.range 8).map fun i => (⟨false, [f32 (e.slot a 0 i t).val.toNat, f32 (r.getD i (0, 0, [])).1]⟩ : Term)
          let (y, fl) := sumRound .fp32 (arithMode e.g) terms
          (⟨BitVec.ofNat 32 y, z || src⟩, fl ||| r.foldl (fun f x => f ||| x.2.1) 0))) s

/-! ### Axes (R323, R400) -/

/-- The texels of an axis with their weights, none standing for a texel of +0; no list where the lookup gives a NaN. -/
abbrev Taps := Option (List (Option Nat × Rat))

/-- An index resolved by an edge mode (R400). -/
def edgeIndex (mode n : Nat) (i : Int) : Option Nat :=
  if 0 ≤ i ∧ i < n then some i.toNat
  else match mode with
    | 0 => some (if i < 0 then 0 else n - 1)
    | 1 => some (i % n).toNat
    | 2 => let m := (i % (2 * n)).toNat; some (if m < n then m else 2 * n - 1 - m)
    | _ => none

/-- The weight of an axis (R219): RNE to a multiple of 2^−16. -/
def axisWeight (f : Rat) : Rat := ((roundMag .rne false (f * 65536)).1 : Rat) / 65536

/-- The taps of an axis of extent n at s (R323). -/
def axisTaps (mode n : Nat) (filtered : Bool) (s : FVal) : Taps :=
  match s with
  | .nan _ => none
  | .inf neg => match mode with
    | 0 => some [(some (if neg then 0 else n - 1), 1)]
    | 3 => some [(none, 1)]
    | _ => none
  | v =>
    let q := v.rat
    if filtered then
      let j := q.floor
      let w := axisWeight (q - j)
      some ([(edgeIndex mode n j, 1 - w), (edgeIndex mode n (j + 1), w)].filter fun x => x.2 != 0)
    else some [(edgeIndex mode n (q + 1 / 2).floor, 1)]

/-- s on a spatial axis: c × n − ½. -/
def spatialS (c : Nat) (n : Nat) : FVal := match f32 c with
  | .nan x => .nan x | .inf neg => .inf neg | v => FVal.ofRat (v.rat * n - 1 / 2)

/-! ### Texels (R399) -/

/-- A descriptor with its sampler, at a level. -/
structure Tex where
  e : Nat
  linear : Bool
  level : Nat
  deriving DecidableEq, Repr

def Tex.f (x : Tex) (lo n : Nat) : Nat := entryField x.e lo n
def Tex.kind (x : Tex) : Nat := x.f 262 3
def Tex.fmt (x : Tex) : Fmt := (Fmt.ofCode (x.f 268 4) (x.f 267 1 == 1)).getD .fp32
def Tex.extent (x : Tex) (axis k : Nat) : Nat := max 1 ((x.f (336 - 16 * axis) 16 + 1) / 2 ^ k)
def Tex.edge (x : Tex) (axis : Nat) : Nat := x.f (286 - 2 * axis) 2
def Tex.filtered (x : Tex) (axis : Nat) : Bool := x.linear && x.f (276 + axis) 1 == 1
def Tex.bins (x : Tex) : Nat := x.f 296 8 + 1
def Tex.channels (x : Tex) : Nat := x.f 265 2 + 1
/-- Elements and bytes of a texel. -/
def Tex.elems (x : Tex) : Nat := match x.kind with | 1 => x.channels | 2 => 3 | _ => x.bins
def Tex.texelBytes (x : Tex) : Nat := x.elems * (x.fmt.bits / 8)
/-- LOFF of a level. -/
def Tex.levelOff (x : Tex) (k : Nat) : Nat :=
  (List.range k).foldl (fun n j => n + (x.extent 0 j * x.extent 1 j * x.extent 2 j * x.texelBytes + 255) / 256 * 256) 0
/-- The address of element m of a texel. -/
def Tex.addr (x : Tex) (iu iv iw m : Nat) : Nat :=
  let k := x.level
  x.f 448 64 + x.levelOff k + ((iw * x.extent 1 k + iv) * x.extent 0 k + iu) * x.texelBytes + m * (x.fmt.bits / 8)

/-- The exact value of a texel element, each line as a texel cache may read it (R323), with its poison; none where the read faults. -/
def State.texel (s : State) (ag : Agent) (x : Tex) (iu iv iw m : Nat) : Option (FVal × Bool) :=
  match s.resolve ag .read (x.addr iu iv iw m) (x.fmt.bits / 8) with
  | .ok ps => let (n, z) := s.seenParts ag.ctx (2 ^ 40 + ag.core) ps; some (x.fmt.value n, z)
  | .error _ => none

/-- The taps of the three spatial axes. -/
def Tex.taps (x : Tex) (c : List Nat) : List Taps :=
  (List.range 3).map fun a => axisTaps (x.edge a) (x.extent a x.level) (x.filtered a) (spatialS (c.getD a 0) (x.extent a x.level))

/-- Σ weights × texel over the spatial taps and those along λ (R219), rounded once: none where a read faults. `pick` gives the element. -/
def State.filter (s : State) (ag : Agent) (x : Tex) (us vs ws ls : List (Option Nat × Rat)) : Option (Nat × Bool) :=
  let combos := us.flatMap fun u => vs.flatMap fun v => ws.flatMap fun w => ls.map fun l => (u, v, w, l)
  let one (c : (Option Nat × Rat) × (Option Nat × Rat) × (Option Nat × Rat) × (Option Nat × Rat)) : Option (FVal × Bool) :=
    let k := c.1.2 * c.2.1.2 * c.2.2.1.2 * c.2.2.2.2
    match c.1.1, c.2.1.1, c.2.2.1.1, c.2.2.2.1 with
    | some iu, some iv, some iw, some m => (s.texel ag x iu iv iw m).map fun v => (((FVal.num k).mul v.1).1, v.2)
    | _, _, _, _ => some (.zero false, false)
  match combos.mapM one with
  | none => none
  | some vs => some ((roundTo .fp32 .rne (match (exactSum false (vs.map (·.1))).1 with | .nan _ => .nan false | v => v)).1, vs.any (·.2))

/-- A loaded descriptor of an accepted kind with a loaded sampler (R218). -/
def State.texOf (s : State) (ctx desc samp : Nat) (kinds : List Nat) : Option (Tex × Nat) :=
  match s.tabEntry ctx 2 desc, s.tabEntry ctx 3 samp with
  | some (d, _), some (p, _) =>
    if texLoaded d && sampLoaded p && kinds.contains (entryField d 262 3) then some (⟨d, p % 2 == 1, 0⟩, p) else none
  | _, _ => none

/-- The level TEX selects (R400). -/
def texLevel (x : Tex) (samp lod : Nat) : Nat :=
  if entryField samp 1 2 = 0 then 0
  else match f32 lod with
    | .nan _ => 0
    | .inf neg => if neg then 0 else x.f 272 4
    | v => (max 0 (min ((x.f 272 4 : Nat) : Int) (v.rat + q32 (entryField samp 32 32) + 1 / 2).floor)).toNat

/-! ### TEX and WTEX (R218, R219): the checks are made at issue; the texels are read when the result comes (R288) -/

/-- The texel bytes a lookup reads: address and number. -/
def Tex.reads (x : Tex) (sp : List Taps) (ls : Taps) : List (Nat × Nat) :=
  match sp, ls with
  | [some us, some vs, some ws], some l =>
    us.flatMap fun u => vs.flatMap fun v => ws.flatMap fun w => l.filterMap fun m =>
      match u.1, v.1, w.1, m.1 with
      | some iu, some iv, some iw, some k => some (x.addr iu iv iw k, x.fmt.bits / 8)
      | _, _, _, _ => none
  | _, _ => []

/-- What an element of a lookup delivers: its bits and whether a NaN input reached it. -/
def State.lookup (s : State) (ag : Agent) (x : Tex) (sp : List Taps) (ls : Taps) : Option (Nat × Bool × Bool) :=
  match sp, ls with
  | [some us, some vs, some ws], some l => (s.filter ag x us vs ws l).map fun r => (r.1, r.2, false)
  | _, _ => some (Fmt.fp32.qnan, false, true)

/-- Whether a lookup gives the canonical NaN: an axis resolves to none. -/
def tapsInvalid (sp : List Taps) (ls : Taps) : Bool := sp.any (·.isNone) || ls.isNone

/-- The taps along λ of a spectral kind. -/
def Tex.lamTaps (x : Tex) (lam : Nat) : Taps :=
  let sl : FVal := match f32 lam with
    | .nan b => .nan b | .inf neg => .inf neg | v => FVal.ofRat ((v.rat - q32 (x.f 416 32)) / q32 (x.f 384 32))
  axisTaps (x.edge 3) x.bins (x.filtered 3) sl

/-- c0·λ² + c1·λ + c2 at an infinite λ (R219 gives no value there): its limit, which the highest coefficient that is not 0 decides (DESIGN CHOICE, log
entry 52). -/
def sigmoidAtInf (neg : Bool) (c0 c1 : FVal) (c2 : Nat) : Nat :=
  let inf (minus : Bool) : Nat := if minus then 0xFF800000 else 0x7F800000
  if (f32 c2).isNan then Fmt.fp32.qnan
  else match c0, c1 with
  | .nan _, _ | _, .nan _ => Fmt.fp32.qnan
  | .zero _, .zero _ => c2
  | .zero _, b => inf (b.negative != neg)
  | a, _ => inf a.negative

/-- A slot of WTEX at a wavelength: bits, poison, whether IV is raised. -/
def State.wtexSlot (s : State) (ag : Agent) (x : Tex) (sp : List Taps) (lam : Nat) : Option (Nat × Bool × Bool) :=
  if x.kind = 2 then
    match (List.range 3).mapM fun m => s.lookup ag x sp (some [(some m, 1)]) with
    | none => none
    | some cs =>
      let z := cs.any (·.2.1)
      let l := f32 lam
      if l.isNan || cs.any (·.2.2) then some (Fmt.fp32.qnan, z, true)
      else
        let c (i : Nat) : FVal := f32 (cs.getD i (0, false, false)).1
        let y : Nat := match l with
          | .inf neg => sigmoidAtInf neg (c 0) (c 1) (cs.getD 2 (0, false, false)).1
          | l => (sumRound .fp32 .rne [⟨false, [c 0, l, l]⟩, ⟨false, [c 1, l]⟩, ⟨false, [c 2]⟩]).1
        some ((SpecFn.sigm.eval (BitVec.ofNat 32 y)).1.toNat, z, false)
  else s.lookup ag x sp (x.lamTaps lam)

/-- The descriptor of a lookup at its level, and its taps along λ: one for each channel of TEX, each coefficient of a sigmoid, each wavelength. -/
def Look.tex (k : Look) : Tex := ⟨k.e, k.linear, k.level⟩
def Look.lamTaps (k : Look) : List Taps :=
  let x := k.tex
  if k.lams.isEmpty then (List.range x.channels).map fun m => some [(some m, 1)]
  else if x.kind = 2 then (List.range 3).map fun m => some [(some m, 1)]
  else k.lams.map x.lamTaps
/-- The texel bytes a lookup reads. -/
def Look.reads (k : Look) : List (Nat × Nat) := k.lamTaps.flatMap fun l => k.tex.reads (k.tex.taps k.c) l
/-- Whether a lookup raises IV (R219): a NaN reaches one of its elements. -/
def Look.invalid (k : Look) : Bool :=
  (k.lamTaps.any fun l => tapsInvalid (k.tex.taps k.c) l) || (k.tex.kind == 2 && k.lams.any fun l => (f32 l).isNan)
/-- How many registers a lookup delivers. -/
def Look.width (k : Look) : Nat := if k.lams.isEmpty then 4 else 8

/-- The elements of a lookup as its texels stand: bits and poison; none where a read faults. -/
def State.lookSlots (s : State) (ag : Agent) (k : Look) : Option (List (Nat × Bool)) :=
  let sp := k.tex.taps k.c
  if k.lams.isEmpty then (k.lamTaps.mapM fun l => s.lookup ag k.tex sp l).map fun ys => ys.map fun y => (y.1, y.2.1)
  else (k.lams.mapM fun l => s.wtexSlot ag k.tex sp l).map fun ys => ys.map fun y => (y.1, y.2.1)

/-- What a lookup writes (vector keys 128 × register + thread): a poisoned texel poisons every register (R90, R430); poisoned values, a channel the
descriptor does not have, and the elements of a lookup a read of which faults though none did at issue, are free (log entry 53). -/
def State.lookWrites (s : State) (ag : Agent) (x : BitVec 512) (k : Look) : List (Nat × RegVal) :=
  let ys := s.lookSlots ag k
  let z := match ys with | some l => l.any (·.2) | none => false
  (List.range k.width).map fun i =>
    (128 * (k.dest + i) + k.thread,
      match ys.bind fun l => l[i]? with
      | some y => ⟨if z then x.extractLsb' (32 * i) 32 else BitVec.ofNat 32 y.1, z⟩
      | none => ⟨x.extractLsb' (32 * i) 32, z⟩)

/-- The reads of a result's lookups meet their lines, and its values follow (R288, R427). -/
def State.lookResult (s : State) (r : Result) : State × Result :=
  match s.grp r.gk with
  | none => (s, r)
  | some g =>
    match s.blk g.blk with
    | none => (s, r)
    | some b =>
      let ag := g.agent b
      let s1 := (r.looks.flatMap Look.reads).foldl (fun (s : State) a => s.meetVa ag a.1 a.2) s
      r.looks.foldl (fun x k =>
        (x.1.draw.2, { x.2 with vw := x.2.vw.filter (fun w => !(w.1 % 128 == k.thread)) ++ x.1.lookWrites ag x.1.draw.1 k })) (s1, r)

/-- What a lookup does at issue: its thread traps where a texel read faults; else its registers are pending. -/
def Env.lookRes (e : Env) (k : Look) : TRes :=
  if k.reads.all fun a => match e.s.resolve (e.g.agent e.b) .read a.1 a.2 with | .ok _ => true | .error _ => false
  then { vw := (List.range k.width).map fun i => (k.dest + i, RegVal.zero), fl := if k.invalid then fIV else 0 }
  else { err := some (trap .access) }

/-- The lookup TEX makes for a thread. -/
def Env.texLook (e : Env) (d a : BitVec 7) (desc samp : BitVec 8) (t : Nat) : Option Look :=
  let c := (List.range 4).map fun k => (e.v (e.g.num a + k) t).val.toNat
  (e.s.texOf e.b.ctx desc.toNat samp.toNat [1]).map fun x => ⟨t, x.1.e, x.1.linear, texLevel x.1 x.2 (c.getD 3 0), c, [], e.g.num d⟩

/-- TEX (R218). A channel the descriptor does not have delivers a free value. -/
def execTex (stl : BitVec 3) (d a : BitVec 7) (desc samp : BitVec 8) (s : State) : Outcome State Fault Refusal :=
  issueLookup (.tex stl d a desc samp) .engine (fun e t => e.texLook d a desc samp t) (fun e t =>
    if (List.range 4).any fun k => (e.v (e.g.num a + k) t).poison then { err := some (trap .poison) }
    else match e.texLook d a desc samp t with
      | none => { err := some (trap .access) }
      | some k => e.lookRes k) s

/-- The lookup WTEX makes for a thread. -/
def Env.wtexLook (e : Env) (d a b : BitVec 7) (desc samp : BitVec 8) (t : Nat) : Option Look :=
  (e.s.texOf e.b.ctx desc.toNat samp.toNat [2, 3, 4]).map fun x =>
    ⟨t, x.1.e, x.1.linear, 0, (List.range 3).map fun k => (e.v (e.g.num a + k) t).val.toNat,
      (List.range 8).map fun i => (e.slot b 0 i t).val.toNat, 8 * e.g.num d⟩

/-- WTEX (R218). -/
def execWtex (stl : BitVec 3) (d a b : BitVec 7) (desc samp : BitVec 8) (s : State) : Outcome State Fault Refusal :=
  issueLookup (.wtex stl d a b desc samp) .engine (fun e t => e.wtexLook d a b desc samp t) (fun e t =>
    if ((List.range 3).any fun k => (e.v (e.g.num a + k) t).poison) || (List.range 8).any (fun i => (e.slot b 0 i t).poison)
    then { err := some (trap .poison) }
    else match e.wtexLook d a b desc samp t with
      | none => { err := some (trap .access) }
      | some k => e.lookRes k) s

end Sys2Proof.Machine
end

