-- ==== Sys2Proof/Machine/Paths.lean ====
section
/-! DEFINITION. What happens to groups and paths between issues: results that become readable (R29, R466), countdowns and units (R25,
R28), promotion (R26), merges (R246), the return of spilled paths (R248), polls (R161), monitor waits (R171), the other waits of R249,
the hang detector (R251). Each event names what it acts on in `State.subject`; one that is not due changes nothing. -/
namespace Sys2Proof.Machine
open Sys2Proof Host

/-! ### Fixed-latency results (R29, R88, R113, R466) -/

/-- The writes of a fixed-latency result, an SWRITE's register among them. -/
def State.applyFix (s : State) (gk : Nat) (f : FixRes) : State :=
  (s.wrVs gk f.vw).updGrp gk fun g =>
    let g := { g with
      s := SMap.setAll RegVal.zero g.s f.sw, p := setPreds g.p f.pw, q := SMap.setAll false g.q f.qw, x := SMap.setAll 0 g.x f.xw }
    let g := { g with damaged := g.damaged.filter fun r => match r with
      | .p n => f.pw.all fun w => w.1 / 128 != n
      | .q n => f.qw.all fun w => w.1 != n
      | .x n => f.xw.all fun w => w.1 != n
      | _ => true }
    match f.spec with | some (n, x) => g.writeSpecial n x | none => g

/-- Instructions retire: their results stand, and their flags are ORed in after every SWRITE among them (R88). -/
def State.retire (s : State) (gk : Nat) (fs : List FixRes) : State :=
  (fs.foldl (fun s f => s.applyFix gk f) s).updGrp gk fun g =>
    { g with fixed := g.fixed.filter fun f => !fs.contains f
             flags := if g.alive == 0 then g.flags else fs.foldl (fun fl f => fl ||| f.flags.setWidth 14) g.flags }

/-- The earliest clock at which a result of the group becomes readable. -/
def Grp.firstReady (g : Grp) : Option Nat :=
  g.fixed.foldl (fun n f => match n with | none => some f.ready | some m => some (min m f.ready)) none

/-- FIXED_LATENCY_RESULT [group]: what becomes readable in the earliest clock that has come. -/
def eventFixedLatencyResult (s : State) : State :=
  let gk := s.arg 0
  match s.grp gk with
  | none => s
  | some g =>
    match g.firstReady with
    | none => s
    | some n => if n ≤ s.clock then s.retire gk (g.fixed.filter fun f => f.ready == n) else s

/-- Every pending fixed-latency write of a group is let through (R31). -/
def State.retireAll (s : State) (gk : Nat) : State := match s.grp gk with | some g => s.retire gk g.fixed | none => s

/-- Whether a result on its way may be written: a texture lookup reads its texels after the path's earlier stores and after every access that
happens before it (R288). -/
def State.mayWrite (s : State) (r : Result) : Bool := r.looks.isEmpty || !s.uncleared r.gk r.mask r.id

/-- VARIABLE_RESULT_WRITE [place]: a result on its way is written (R32), a texture lookup's texels read first. -/
def eventVariableResultWrite (s : State) : State :=
  match s.results[s.arg 0]? with
  | none => s
  | some r =>
    if !s.mayWrite r then s
    else let x := { s with results := s.results.eraseIdx (s.arg 0) }.lookResult r; x.1.applyResult x.2

/-! ### Countdowns, units, promotion, grants -/

/-- STALL_COUNTDOWN_EXPIRY [group, path] (R28). -/
def eventStallCountdownExpiry (s : State) : State :=
  s.updPath (s.arg 0) (s.arg 1) fun p => if p.ready ≤ s.clock then { p with ready := 0 } else p

/-- UNIT_RELEASE [core, unit] (R25). -/
def eventUnitRelease (s : State) : State :=
  let core := s.arg 0; let unit := s.arg 1
  match SMap.find? (s.core core).units unit with
  | some t => if t ≤ s.clock then s.updCore core fun c => { c with units := SMap.del c.units unit } else s
  | none => s

/-- STARVATION_PROMOTION [group] (R26). -/
def eventStarvationPromotion (s : State) : State := s.updGrp (s.arg 0) fun g => if 2048 ≤ g.starve then { g with promoted := true } else g

/-- The grant level in force on a core and the one its quad has been given (R35). -/
def Dev.grant (d : Dev) (core : Nat) : Nat × Nat := SMap.get (16, 16) d.grants core

/-- GRANT_CHANGE [core] (R35): in a clock where the core's CYCLE mod 16 is 0 the level its quad has been given comes into force; one given
in that clock too, since the arbiter's interval ends before the clock's issue (DESIGN CHOICE, log entry 97). -/
def eventGrantChange (s : State) : State :=
  let k := s.arg 0; let g := s.dev.grant k
  if s.cycleOf k % 16 = 0 then { s with dev := { s.dev with grants := SMap.set (16, 16) s.dev.grants k (g.2, g.2) } } else s

/-! ### Merges (R108, R167, R246) -/

/-- Whether two paths merge: both LIVE, both parked at JOIN, or both parked for convergence, at one PC with equal HND: at a JOIN too, where R108 says all
that stand there, and R246 only those of equal HND (DESIGN CHOICE, log entry 114). -/
def Path.mergesWith (a b : Path) : Bool :=
  a.pc == b.pc && a.hnd == b.hnd &&
    ((a.st == .live && b.st == .live) || (a.st == .parked && b.st == .parked && a.wait == b.wait && (a.wait == .join || a.wait == .conv)))

/-- The merged path (R246); no fixed-latency write is pending for it (R31). -/
def Path.merge (a b : Path) : Path :=
  { a with mask := a.mask ||| b.mask, ready := max a.ready b.ready, stamp := max a.stamp b.stamp, dist := [],
           exempt := a.exempt && b.exempt, step := max a.step b.step }

/-- The first two entries that merge now: no fixed-latency write of theirs is pending (R31). -/
def Grp.mergePair (g : Grp) : Option (Nat × Nat) :=
  let free (p : Path) : Bool := g.fixed.all fun f => f.mask &&& p.mask == 0
  (List.range 8).findSome? fun i => ((List.range 8).find? fun j =>
    decide (i < j) && (g.path i).mergesWith (g.path j) && free (g.path i) && free (g.path j)).map fun j => (i, j)

/-- PATH_MERGE [group] (R246). -/
def eventPathMerge (s : State) : State :=
  let gk := s.arg 0
  match s.grp gk with
  | none => s
  | some g =>
    match g.mergePair with
    | none => s
    | some (i, j) =>
      let p := (g.path i).merge (g.path j)
      let g1 := Path.set (Path.set { g with progress := 0, issued := false } i p) j Path.free
      (s.setGrp gk g1).orderPaths gk p.mask true

/-! ### Waits that end -/

/-- A parked path goes on after its wait (R249): a completed wait is progress (R251). -/
def State.goOn (s : State) (gk pi : Nat) : State :=
  s.updGrp gk fun g => Path.set { g with progress := 0, issued := false } pi (g.path pi).goes

/-- A wait ends with a trap for all the path's threads, or the path goes on. -/
def State.goOrTrap (gk pi : Nat) (x : Option Trap × State) : State :=
  match x with
  | (some t, s) => (s.waitOver gk).trapEntry gk pi t (match s.grp gk with | some g => (g.path pi).mask | none => 0) noVa
  | (none, s) => s.goOn gk pi

/-- MWAIT completes with a value (R171). -/
def State.mwaitDone (s : State) (gk pi dest reason : Nat) (poison : Bool) : State :=
  match s.grp gk with
  | none => s
  | some g => match s.blk g.blk with
    | some b => (s.goOn gk pi).uniformResult gk dest [mwaitValue b reason] poison
    | none => s

/-- What a wait that has no event of its own does when it holds; none while it does not (R108, R116, R117, R159, R165, R167, R172, R195,
R209, R240). MWAIT whose first read was held back is compared here (R171). -/
def State.waitHolds (s : State) (gk pi : Nat) : Option State :=
  match s.grp gk with
  | none => none
  | some g =>
    match s.blk g.blk with
    | none => none
    | some b =>
      let p := g.path pi
      if p.st != .parked || !g.resident then none
      else
        let on (c : Bool) : Option State := if c then some (s.goOn gk pi) else none
        match p.wait with
        | .join => on ((g.others pi).isEmpty && g.fixed.all fun f => f.mask &&& p.mask == 0)
        | .conv => on ((g.others pi).isEmpty && g.fixed.all fun f => f.mask &&& p.mask == 0)
        | .barWord h ph =>
          if barKind (s.mem.readLE h 8) = 0 then some (s.trapEntry gk pi (trap .barrierMismatch) p.mask noVa) else on (barPhase (s.mem.readLE h 8) != ph)
        | .mwait h ord v 0 d z =>
          if s.readHeld gk p.mask h 4 ord then none
          else
            let (s, bad) := s.meetWord (some b.ctx) h 4
            if bad then some ((s.waitOver gk).trapEntry gk pi (trap .poison) p.mask noVa)
            else if s.mem.readLE h 4 ≠ v.toNat then some (s.mwaitDone gk pi d 0 z)
            else some (s.updPath gk pi fun p => { p with wait := .mwait h ord v 1 d z })
        | .swaitp h bit ph =>
          if s.readHeld gk p.mask h 4 1 then none
          else if s.mem.anyPoison h 4 then some (((s.meetWord (some b.ctx) h 4).1.waitOver gk).trapEntry gk pi (trap .poison) p.mask noVa)
          else on (s.ringBit h bit ph)
        | .named n ph => on ((b.namedBar n).phase != ph)
        | .hbar k turn => on (decide (turn < SMap.get 0 b.hbarDone k))
        | .racq => on (b.holder == some g.gix)
        | .xsend id => on (b.xreqs.all fun x => x.id != id)
        | .stfe id => on (s.reqs.all fun r => r.op != id)
        | .waitr ids => on (ids.all fun id => !s.opOut gk id)
        | .ewait c n => if n ≤ b.counter c then some (State.goOrTrap gk pi (s.ewaitDone gk c)) else none
        | .msync bank upto =>
          if (s.mx b.core).synced g.blk bank upto then some (State.goOrTrap gk pi (s.syncDone gk bank upto)) else none
        | .waitblk n =>
          if n ≤ s.prefixOf b then some ((s.updGrp gk fun g => { g with retpfx := max g.retpfx n }).goOn gk pi) else none
        | .wwait sel win n =>
          if s.wwaitMet sel win n
          then some (State.goOrTrap gk pi (s.fabReport gk fun f => f.1 == win)) else none
        | .ffence ids pkg =>
          if ids.all fun id => s.fab.all fun o => o.id != id
          then some (State.goOrTrap gk pi (match s.fabReport gk fun f => fencePkg pkg f.2.1 with
            | (none, s1) => (none, s1.fence gk p.mask 2) | x => x)) else none
        | _ => none

/-- MWAIT_WAKE [group, path] (R171). -/
def eventMwaitWake (s : State) : State :=
  let gk := s.arg 0; let pi := s.arg 1
  match s.grp gk with
  | none => s
  | some g => match g.resident, (g.path pi).st, (g.path pi).wait with
    | true, .parked, .mwait _ _ _ 2 d z => s.mwaitDone gk pi d 1 z
    | _, _, _ => s

/-- LDPOLL_BACKOFF_EXPIRY [group, path] (R161): the poll reads again, its addresses translated and checked afresh. Failing threads trap;
the others go on polling. -/
def eventLdpollBackoffExpiry (s : State) : State :=
  let gk := s.arg 0; let pi := s.arg 1
  match s.grp gk with
  | none => s
  | some g =>
    match s.blk g.blk with
    | none => s
    | some b =>
      let e : Env := ⟨s, gk, g, b, pi, g.path pi⟩
      match g.resident, e.p.st, e.p.wait with
      | true, .parked, .ldpoll next k poll =>
        if poll.op ≠ 0 ∨ s.clock < next then s
        else
          let rs : List (Nat × Except (Trap × Nat) (List Part)) := poll.eas.map fun x =>
            (x.1, match s.resolve (g.agent b) .read x.2 poll.bytes with | .ok ps => .ok ps | .error c => .error (trap c.1, c.2))
          let oks := okParts rs
          let here (l : List (Nat × Nat)) : List (Nat × Nat) := l.filter fun x => oks.any fun o => o.1 == x.1
          let poll' : Poll := { poll with op := s.seq, eas := here poll.eas, last := here poll.last }
          let s1 := if oks.isEmpty then s else e.sendPoll s poll' oks
          e.finishAs (fun p => { p with wait := .ldpoll next k poll' }) (e.memFails poll.uni rs) s1
      | _, _, _ => s

/-! ### The return of spilled paths (R248) -/

/-- A path comes back into the table: its countdown runs on, its stamp is new, MWAIT and LDPOLL.Y start as R248 says. -/
def Path.back (now out : Nat) (p : Path) : Path :=
  let p := { p with ready := now + (p.ready - out), stamp := now }
  match p.wait with
  | .ldpoll _ _ poll => { p with wait := .ldpoll now 0 { poll with op := 0 } }
  | _ => p

/-- What a returning path's wait does at once (R168, R171, R260). -/
def State.backAt (s : State) (gk pi : Nat) : State :=
  match s.grp gk with
  | none => s
  | some g => match (g.path pi).st, (g.path pi).wait with
    | .parked, .mwait _ _ _ _ d z => s.mwaitDone gk pi d 2 z
    | .parked, .doomed _ c => s.trapEntry gk pi ⟨c, 0⟩ (g.path pi).mask noVa
    | .parked, .handler _ _ _ => s.handlerNext gk
    | _, _ => s

/-- A wait of a REASON with unspecified operands (R249); none for a REASON whose wait names an operation or a command that would not be there. -/
def Wait.unknown (reason : Nat) (x : BitVec 512) : Wait :=
  let n : Nat := (x.extractLsb' 256 32).toNat
  match reason with
  | 1 => .join | 2 => .named (n % 16) (x.getLsbD 288) | 3 => .hbar (n % 4) (n / 4) | 9 => .waitr [] | 10 => .ewait (n % 16) (n / 16) | 11 => .waitblk n
  | 12 => .racq | 14 => .conv | _ => .none

/-- The path a record gives back that a program or system software has written to (R249): every field of the record is unspecified. -/
def Path.unknown (now : Nat) (p : Path) (x : BitVec 512) : Path :=
  let reason := (x.extractLsb' 168 4).toNat
  let (st, w) : PState × Wait := match (x.extractLsb' 160 2).toNat % 3 with
    | 0 => (.live, .none) | 1 => (.parked, Wait.unknown reason x) | _ => (.stopped, .escalated (x.extractLsb' 192 32).toNat)
  { p with
    st := st, wait := w, pc := (x.extractLsb' 0 54).setWidth 64 <<< 2, hnd := x.getLsbD 64, mask := x.extractLsb' 64 96, ready := now + (x.extractLsb' 176 5).toNat % 22
    resume := (x.extractLsb' 320 54).setWidth 64 <<< 2, exempt := false, dist := [] }

/-- The record of a group's spilled path number k, if it has been written. -/
def Grp.spillRec (g : Grp) (k : Nat) : Option (Nat × Nat) :=
  match g.spillRecs[k]? with | some (n, some w, _) => some (n, w) | _ => none

/-- Spilled path k, whose record has been written, enters entry i. -/
def State.unspill (s : State) (gk k i : Nat) : State :=
  match s.grp gk with
  | none => s
  | some g =>
    match s.blk g.blk, g.spilled[k]?, g.spillRec k with
    | some b, some (out, p), some (n, w) =>
      match s.frameRead (g.agent b) (s.spillVA g b n) 32 with
      | none => s.restoreFault g b (s.spillVA g b n)
      | some (x, _, s) =>
        let s1 := s.setGrp gk { g with spilled := g.spilled.eraseIdx k, spillRecs := g.spillRecs.eraseIdx k }
        if x = w then (s1.updPath gk i fun _ => p.back s.clock out).backAt gk i
        else s1.draw.2.updPath gk i fun _ => (p.back s.clock out).unknown s.clock s1.draw.1
    | _, _, _ => s

/-- The record of a path on its way to the spill area is written, no fixed-latency write of its threads being pending any more (R31, R247):
the path then stands behind those written before it (R248). -/
def State.writeSpill (s : State) (gk k : Nat) : State :=
  match s.grp gk with
  | none => s
  | some g =>
    match g.spilled[k]?, g.spillRecs[k]? with
    | some (_, p), some (n, none, ps) =>
      let w := p.record s.clock % 2 ^ 256
      let at' := (g.spillRecs.takeWhile fun r => r.2.1.isSome).length
      (s.performWrite (partBytes false ps w)).updGrp gk fun g => { g with
        spilled := (g.spilled.eraseIdx k).insertIdx at' (s.clock, p), spillRecs := (g.spillRecs.eraseIdx k).insertIdx at' (n, some w, ps) }
    | _, _ => s

/-- The first path on its way to its group's spill area whose record may be written now (R31). -/
def Grp.spillDue (g : Grp) : Option Nat :=
  (List.range g.spilled.length).find? fun k =>
    match g.spilled[k]?, g.spillRecs[k]? with
    | some (_, p), some (_, none, _) => g.fixed.all fun f => f.mask &&& p.mask == 0
    | _, _ => false

/-- SPILL_RETURN [group] (R248). -/
def eventSpillReturn (s : State) : State :=
  let gk := s.arg 0
  match s.grp gk with
  | none => s
  | some g => if !g.resident || g.spilled.isEmpty then s else match g.freeEntry with | some i => s.unspill gk 0 i | none => s

/-- SPILL_ROTATION [group]: a spilled LIVE path out for 4,096 clocks displaces a victim (R248). -/
def eventSpillRotation (s : State) : State :=
  let gk := s.arg 0
  match s.grp gk with
  | none => s
  | some g =>
    let due (k : Nat) : Bool :=
      match g.spilled[k]?, g.spillRec k with | some e, some _ => e.2.st == .live && decide (e.1 + 4096 ≤ s.clock) | _, _ => false
    if !g.resident || g.freeEntry.isSome then s
    else match (List.range g.spilled.length).find? due with
      | none => s
      | some k =>
        match (g.victim fun _ q => q.st == .parked || q.st == .stopped).or (g.victim fun _ q => q.st == .live) with
        | none => s
        | some i => match s.spillPath gk (g.path i) with
          | some s1 => (s1.unspill gk k i).updPath gk i fun p => { p with ready := max p.ready (g.fixedUntil (g.path i).mask) }
          | none => s

/-! ### The hang detector (R251) -/

/-- HANG_REPORT [group]: a KIND 2 record for each entry that is not FREE. -/
def eventHangReport (s : State) : State :=
  let gk := s.arg 0
  match s.grp gk with
  | none => s
  | some g =>
    match s.blk g.blk with
    | none => s
    | some b =>
      if g.progress < 2 ^ 20 then s
      else
        let one (s : State) (i : Nat) : State :=
          let p := g.path i
          if p.st == .free then s
          else s.report b.core { recOf g b with
            kind := 2, path := i, pc := p.pc, mask := p.mask
            aux := BitVec.ofNat 64 ((if g.issued then 1 else 2) + g.spilled.length % 256 * 2 ^ 8 + p.st.code * 2 ^ 16 + p.wait.reason * 2 ^ 24) }
        ((List.range 8).foldl one s).updGrp gk fun g => { g with progress := 0, issued := false }

end Sys2Proof.Machine
end

