-- ==== Sys2Proof/Machine/Placement.lean ====
section
/-! DEFINITION. Placement (R244, R254 to R256, R263, R266, R355 to R361), eviction and return (R378 to R380), retirement of blocks (R253,
R254, R363) and the end of tasks (R362), migration (R382 to R384). -/
namespace Sys2Proof.Machine
open Sys2Proof Host

/-! ### What a core has free (R256, R266, R358, R370) -/

/-- Whether the context's allotted cores include one: bit 6d + k of CLMASK for cluster k of die d (R367). -/
def Ctx.allots (c : Ctx) (core : Nat) : Bool := c.desc.getLsbD (512 + 6 * (core / 144) + core % 144 / 24)
def Ctx.weight (c : Ctx) : Nat := (c.desc.extractLsb' 504 8).toNat
def Ctx.susp (c : Ctx) : Bool := c.desc.getLsbD 1
def Ctx.savesz (c : Ctx) : Nat := (c.desc.extractLsb' 784 16).toNat

/-- The resident groups of a core. -/
def State.residents (s : State) (core : Nat) : List (Nat × Grp) :=
  s.groups.filter fun e => e.2.resident && (match s.blk e.2.blk with | some b => b.core == core | none => false)
/-- Rows a group's base set takes. -/
def State.rowsOf (s : State) (g : Grp) : Nat := match s.blk g.blk with | some b => b.regs | none => 0

def State.freeSlots (s : State) (core : Nat) : Nat := 32 - (s.residents core).length
/-- Register rows free on a core (R256): the base sets of resident groups and the extended sets of blocks in residence are taken. -/
def State.freeRows (s : State) (core : Nat) : Nat :=
  let base := (s.residents core).foldl (fun n e => n + s.rowsOf e.2) 0
  let ext := s.blocks.foldl (fun n e => if e.2.core == core && !e.2.retained && !e.2.suspended && !e.2.evicted then n + e.2.xregs else n) 0
  1024 - base - ext

/-- The footprint ranges in use in a slice: offset and size. -/
def State.ranges (s : State) (core : Nat) : List (Nat × Nat) :=
  s.blocks.flatMap fun (e : Nat × Blk) =>
    (if e.2.core == core && !e.2.suspended then [(e.2.fbase, e.2.fsize)] else [])
      ++ (e.2.olds.filter fun o => o.1 == core).map fun o => (o.2, e.2.fsize)

/-- Whether a range of every listed slice is free. -/
def State.rangeFree (s : State) (cores : List Nat) (off n : Nat) : Bool :=
  decide (off + n ≤ 2 ^ 20) && cores.all fun c => (s.ranges c).all fun r => decide (off + n ≤ r.1 ∨ r.1 + r.2 ≤ off)

/-- The lowest offset at which n bytes are free in every listed slice (R266). -/
def State.freeBase (s : State) (cores : List Nat) (n : Nat) : Option Nat :=
  let ends := 0 :: (cores.flatMap fun c => (s.ranges c).map fun r => r.1 + r.2)
  (ends.filter fun o => s.rangeFree cores o n).foldl (fun b o => match b with | none => some o | some x => some (min x o)) none

/-- The lowest free frame of a context's save area (R370). -/
def State.freeFrame (s : State) (ctx : Nat) : Option Nat :=
  let c := s.ctx ctx
  (List.range (c.frames.length + 1)).find? fun i => !c.frames.contains i && decide (i < c.savesz)

/-! ### Saving and returning a group (R379, R380) -/

/-- The image of the base set (R370): row by row, 96 words each. -/
def rowsImage (rd : Nat → Nat → RegVal) (first n : Nat) : Nat :=
  (List.range (96 * n)).foldr (fun i x => (rd (first + i / 96) (i % 96)).val.toNat + 2 ^ 32 * x) 0

/-- Whether the waits of R31 are over for a group that is to leave: no fixed-latency write of its is pending, and the records of its spilled
paths are written. -/
def Grp.settled (g : Grp) : Bool := g.fixed.isEmpty && g.spillRecs.all fun r => r.2.1.isSome

/-- A group leaves its core (R379), at place `at'` in the order of return: its queued requests are withdrawn (R160), its rows and its other state
are written to its area, and with the last group of the block the extended set; none where a write fails. -/
def State.evictGroup (s : State) (at' gk : Nat) : Option State :=
  match s.grp gk with
  | none => none
  | some g =>
    match s.blk g.blk with
    | none => none
    | some b =>
      let last := !(s.groupsOf g.blk).any fun e => e.1 != gk && e.2.resident
      match s.frameWrite (g.agent b) (s.frameVA b g.rowsAt) (384 * b.regs) (rowsImage (rdV g b) 0 b.regs) with
      | none => none
      | some s1 =>
        match s1.saveRest gk with
        | none => none
        | some s2 =>
          match if last && b.xregs != 0 then s2.frameWrite (g.agent b) (s.frameVA b 0x100000) (384 * b.xregs) (rowsImage (rdV g b) 128 b.xregs) else some s2 with
          | none => none
          | some s3 =>
            let rest (p : Path) : Path := { p with ready := p.ready - s.clock, dist := [] }
            let s4 := s3.updGrp gk fun g => { g with resident := false, evictAt := at', paths := g.paths.map rest }
            let s5 := if last then s4.updBlk g.blk fun b => { b with evicted := true } else s4
            some { s5 with seq := s5.seq + 1, reqs := s5.reqs.map fun r => if r.gk == gk && r.kind.fullEmpty && r.queued.isSome then { r with queued := none, out := true } else r }

/-- The next age stamp: younger than every one before. -/
def State.stamp (s : State) : Nat × State := s.fresh

/-- The lowest free group slots of a core. -/
def State.openSlots (s : State) (core : Nat) : List Nat :=
  let used := (s.residents core).map fun (e : Nat × Grp) => e.2.slot
  (List.range 32).filter fun i => !used.contains i

/-- A group whose area a program has written (R370): its registers, its special registers and its paths hold unspecified values. -/
def State.openGroup (s : State) (g : Grp) (b : Blk) : Grp × State :=
  let word (i : Nat) : Word := (Config.freeValue (s.free + i / 16)).extractLsb' (32 * (i % 16)) 32
  let bit (i : Nat) : Bool := (word i).getLsbD 0
  let n := 192 * b.regs + 1024
  let g1 := { g with
    v := SMap.setAll RegVal.zero [] ((List.range (96 * b.regs)).map fun i => (128 * (i / 96) + i % 96, (⟨word (2 * i), bit (2 * i + 1)⟩ : RegVal)))
    s := SMap.setAll RegVal.zero [] ((List.range 128).map fun i => (i, (⟨word (n + 2 * i), bit (n + 2 * i + 1)⟩ : RegVal)))
    p := SMap.setAll 0 [] ((List.range 8).map fun i => (i, (word (n + 256 + 3 * i) ++ word (n + 257 + 3 * i) ++ word (n + 258 + 3 * i) : Mask)))
    q := SMap.setAll false [] ((List.range 8).map fun i => (i, bit (n + 280 + i)))
    x := SMap.setAll 0 [] ((List.range 4).map fun i => (i, word (n + 288 + i)))
    flags := (word (n + 292)).extractLsb' 0 14, rmode := rmodeWritten g.rmode (word (n + 293)), bankc := word (n + 294)
    trapCause := word (n + 295), trapPc := word (n + 296) ++ word (n + 297), trapMask := word (n + 298) ++ word (n + 299) ++ word (n + 300)
    cycleh := word (n + 301)
    srn := SMap.setAll 0 [] ((List.range 128).map fun t => (t, word (n + 302 + t)))
    fseq := SMap.setAll 0 [] ((List.range 128).map fun t => (t, word (n + 430 + t)))
    tseq := SMap.setAll 0 [] ((List.range 128).map fun t => (t, word (n + 558 + t)))
    paths := g.paths.zipIdx.map fun p => if p.1.st == .free then p.1 else p.1.unknown s.clock (Config.freeValue (s.free + n + p.2)) }
  (g1, { s with free := s.free + n + 8 })

/-- The extended set comes back with the first group of a block that was wholly out (R379, R380). -/
def State.extBack (s : State) (bk : Nat) : Option State :=
  match s.blk bk with
  | none => none
  | some b =>
    if !b.evicted || b.xregs = 0 then some s
    else
      let img (g : Grp) : Nat := rowsImage (rdV g b) 128 b.xregs
      match (s.groupsOf bk).head?, s.frameRead (b.saver bk) (s.frameVA b 0x100000) (384 * b.xregs) with
      | some (_, g), some (x, z, s1) =>
        if !z && x == img g then some s1
        else some { s1.updBlk bk fun b => { b with
            xr := (List.range (96 * b.xregs)).foldl (fun m i =>
              SMap.put m (128 * (128 + i / 96) + i % 96) ⟨(Config.freeValue (s1.free + i)).extractLsb' 0 32, (Config.freeValue (s1.free + i)).getLsbD 32⟩) b.xr } with
          free := s1.free + 96 * b.xregs }
      | _, _ => none

/-- A returning path's wait that ends with its return, or starts afresh (R380): MWAIT completes. -/
def State.backAll (s : State) (gk : Nat) : State :=
  (List.range 8).foldl (fun (s : State) i => match (match s.grp gk with | some g => ((g.path i).st, (g.path i).wait) | none => (.free, .none)) with
    | (.parked, .mwait _ _ _ _ _ _) => s.backAt gk i
    | _ => s) s

/-- Requests of a group that were withdrawn are issued again and take new places in the order of arrival (R160, R380). -/
def State.reissue (s : State) (gk : Nat) : State :=
  { s with
    reqs := s.reqs.zipIdx.map fun r => if r.1.gk == gk && r.1.out then { r.1 with rid := s.seq + r.2, out := false } else r.1
    seq := s.seq + s.reqs.length }

/-- What a group's return reads: its rows, its other state and its spill records, and the extended set; whether the group's own are as they were
saved. None where something cannot be read. -/
def State.areaBack (s : State) (g : Grp) (b : Blk) : Option (Bool × State) :=
  match s.frameRead (g.agent b) (s.frameVA b g.rowsAt) (384 * b.regs) with
  | none => none
  | some (img, z, s1) =>
    match s1.openBack g.blk g.restAt 4096, s1.frameParts (g.agent b) .read (s.spillVA g b 0) 2816 with
    | some (kept, s2), some _ => (s2.extBack g.blk).map fun s3 => (!z && img == rowsImage (rdV g b) 0 b.regs && kept, s3)
    | _, _ => none

/-- A group comes back to its core (R380): its state read back, a new age stamp, its waits as at spill return; a program that wrote its
area has left free values there (R370). -/
def State.returnGroup (s : State) (gk : Nat) : State :=
  match s.grp gk with
  | none => s
  | some g =>
    match s.blk g.blk with
    | none => s
    | some b =>
      match s.areaBack g b with
      | some (kept, s2) =>
        let (g1, s3) := if kept then (g, s2) else s2.openGroup g b
        let (age, s4) := s3.stamp
        let g2 := { g1 with
          resident := true, age := age, starve := 0, promoted := false, slot := (s.openSlots b.core).headD 0
          paths := g1.paths.map fun p => if p.st == .free then p else p.back s.clock 0 }
        ((s4.setGrp gk g2).updBlk g.blk fun b => { b with used := 0, evicted := false }).reissue gk |>.backAll gk
      | none => s.restoreFault g b (s.frameVA b g.rowsAt)

/-- Whether a SUSPEND of the context is under way (R381). -/
def State.suspending (s : State) (ctx : Nat) : Bool := s.dev.busy == some (4, ctx, true)

/-- Whether an evicted group's slot and rows are free on its core, and it is first in the order of return (R380); what a terminated group had saved is
discarded (R363). -/
def State.mayReturn (s : State) (gk : Nat) : Bool :=
  match s.grp gk with
  | none => false
  | some g => match s.blk g.blk with
    | none => false
    | some b =>
      let first := s.groups.all fun (e : Nat × Grp) =>
        e.2.resident || e.2.alive == 0 || e.1 == gk || (match s.blk e.2.blk with | some o => o.core != b.core || (s.ctx o.ctx).susp | none => true)
          || decide (g.evictAt < e.2.evictAt) || (g.evictAt == e.2.evictAt && decide (g.gix < e.2.gix ∨ (g.gix = e.2.gix ∧ gk < e.1)))
      !g.resident && g.alive != 0 && !b.suspended && !(s.ctx b.ctx).susp && !s.suspending b.ctx && first && decide (0 < s.freeSlots b.core)
        && decide (b.regs + (if b.evicted then b.xregs else 0) ≤ s.freeRows b.core)

/-- GROUP_RETURN [group] (R380). -/
def eventGroupReturn (s : State) : State := if s.mayReturn (s.arg 0) then s.returnGroup (s.arg 0) else s

/-! ### Placing a block (R244) -/

/-- A group at placement (R244). -/
def Grp.start (gix blk slot age : Nat) (entry param : DWord) (now : Nat) : Grp :=
  { slot := slot, gix := gix, blk := blk, resident := true, age := age, starve := 0, promoted := false, progress := 0, issued := false
    alive := ~~~0, paths := { Path.free with st := .live, pc := entry, mask := ~~~0, stamp := now, exempt := true } :: List.replicate 7 Path.free
    spilled := [], spillRecs := [], v := [], s := SMap.setAll RegVal.zero [] [(0, ⟨param.extractLsb' 0 32, false⟩), (1, ⟨param.extractLsb' 32 32, false⟩)]
    p := [], q := [], x := [], flags := 0, rmode := 0, bankc := 0, partn := 32, trapCause := 0, trapPc := 0, trapMask := 0, cycleh := 0
    retpfx := 0, srn := [], fseq := [], tseq := [], fixed := [], pend := [], faulted := [], rowFlags := [], fabricFail := [], travs := []
    evictAt := 0, damaged := [] }

/-- A footprint at placement (R244, R277): each byte a free value, its tags full, those of its last `hw` bytes, the spawn area and the film outbox,
free values. -/
def State.openFootprint (s : State) (pa n hw : Nat) : State :=
  let bytes := (List.range n).foldl (fun m i => SMap.set unlistedByte m (pa + i) ((Config.freeValue (s.free + i)).extractLsb' 0 8)) s.mem.bytes
  let empties := s.mem.empties.filter fun e => decide (e.1 < pa / 16 ∨ (pa + n) / 16 ≤ e.1)
  let open' := (List.range (hw / 16)).foldl (fun m i => SMap.set false m ((pa + n - hw) / 16 + i) ((Config.freeValue (s.free + i)).getLsbD 8)) empties
  { s with free := s.free + n, mem := { s.mem with bytes := bytes, empties := open' } }

/-- Block `bid` of a task starts on a core at an offset of its slice (R244, R266); none without a free frame. -/
def State.place (s : State) (ctx idx bid core fbase : Nat) : Option State :=
  match s.task ctx idx, s.freeFrame ctx with
  | some t, some frame =>
    if t.ending ≠ 0 then some s else
    let bk := s.seq
    let b : Blk :=
      { ctx := ctx, task := idx, bid := bid, core := core, frame := frame, gpb := t.gpb, regs := t.regs, xregs := t.xregs
        roles := (List.range t.gpb).map fun g => t.f (256 + 2 * g) 2
        nblk := t.nblk, clsz := t.clsz, fbase := fbase, fsize := t.fsize, spawn := t.spawn, lease := t.f 288 24
        det := t.det, gang := t.gang, preemptible := t.preemptible, migratable := t.desc.getLsbD 331, mark := t.markAtDone
        check := (s.ctx ctx).check, entry := BitVec.ofNat 64 (t.f 0 64), quantum := t.quantum, used := 0
        counters := [], dones := [], named := [], xr := [], holder := none, turn := 0, mdones := [], tiles := none, hbarArr := [], xreqs := []
        hbarDone := [], olds := [], fwd := [], suspended := false, stackKinds := [], dropped := [], retained := false, evicted := false, images := []
        leaseKept := none, claimKept := false }
    let slots := s.openSlots core
    let groups := (List.range t.gpb).foldl (fun m g =>
      SMap.put m (16 * bk + g) (Grp.start g bk (slots.getD g 0) (s.seq + 1 + g) b.entry (BitVec.ofNat 64 (t.f 64 64)) s.clock)) s.groups
    let s1 := { s with seq := s.seq + 1 + t.gpb, blocks := SMap.put s.blocks bk b, groups := groups }
    let s2 := (s1.updCtx ctx fun c => { c with frames := c.frames ++ [frame] }).openFootprint (slicePA core fbase) t.fsize (spawnBytes t.gpb t.spawn + 4096)
    let t1 := { t with placed := max t.placed (bid + 1), since := s.clock, reserving := if bid + 1 = t.nblk then none else t.reserving }
    some (if t.status = 3 then s2.setTask ctx idx t1 else s2.putTask ctx idx t { t1 with status := 3 })
  | _, _ => none

/-! ### Where a block goes (R358, R359, R361, R378) -/

/-- Whether a block's groups may be evicted for a task's (R361). -/
def State.mayEvict (s : State) (ctx idx : Nat) (t : Task) (b : Blk) : Bool :=
  let prio := match s.task b.ctx b.task with | some o => o.prio | none => 0
  b.preemptible && !(b.ctx == ctx && b.task == idx)
    && (decide (prio < t.prio) || (prio == t.prio && (b.quantum == 0 || decide (b.quantum * 1024 ≤ b.used)) && b.ctx != ctx))

/-- Whether the last resident group of a block must stay (R378). -/
def State.lastStays (s : State) (bk : Nat) (b : Blk) : Bool :=
  let m := s.mx b.core
  b.clsz != 0 || m.holder == some bk || m.cmds.any (fun c => c.bk == bk) || s.ecmds.any (fun (c : EngCmd) => c.bk == bk)
    || m.tiles.any (fun t => t.rows.any fun r => r.gk / 16 == bk) || !(s.outbox bk).isEmpty

/-- The candidates for eviction on a core, in order (R378): PRIO, then the youngest stamp, then the higher slot. -/
def State.candidatesFor (s : State) (ctx idx : Nat) (t : Task) (core : Nat) : List (Nat × Grp) :=
  let prio (g : Grp) : Nat := match s.blk g.blk with | some b => (match s.task b.ctx b.task with | some o => o.prio | none => 0) | none => 0
  let may (e : Nat × Grp) : Bool := match s.blk e.2.blk with
    | some b => s.mayEvict ctx idx t b && s.dev.leap.all fun l => l.1 != e.2.blk
    | none => false
  let before (x y : Nat × Grp) : Bool :=
    decide (prio x.2 < prio y.2) || (prio x.2 == prio y.2 && (decide (y.2.age < x.2.age) || (x.2.age == y.2.age && decide (y.2.slot ≤ x.2.slot))))
  ((s.residents core).filter may).insertionSort fun x y => before x y = true

/-- What evicting groups frees: slots and rows (R378). -/
def State.gain (s : State) (gks : List Nat) : Nat × Nat :=
  let base := gks.foldl (fun n gk => n + (match s.grp gk with | some g => s.rowsOf g | none => 0)) 0
  let ext := s.blocks.foldl (fun n e =>
    let mine := (s.groupsOf e.1).filter fun x => x.2.resident
    if !mine.isEmpty && mine.all (fun x => gks.contains x.1) then n + e.2.xregs else n) 0
  (gks.length, base + ext)

/-- The shortest prefix of the candidates that makes room (R378). -/
def State.prefixFor (s : State) (core slots rows : Nat) : List (Nat × Grp) → List Nat → Option (List Nat)
  | cands, acc =>
    let have' := s.gain acc
    if slots ≤ s.freeSlots core + have'.1 && rows ≤ s.freeRows core + have'.2 then some acc
    else match cands with
      | [] => none
      | x :: rest =>
        let stays := match s.blk x.2.blk with
          | some b => s.lastStays x.2.blk b && (s.groupsOf x.2.blk).all fun y => !y.2.resident || y.1 == x.1 || acc.contains y.1
          | none => true
        s.prefixFor core slots rows rest (if stays then acc else acc ++ [x.1])

/-- Whether a group returns to a core now: before any new block is placed there (R380). -/
def State.returnsTo (s : State) (core : Nat) : Bool :=
  s.groups.any fun (e : Nat × Grp) => (match s.blk e.2.blk with | some b => b.core == core | none => false) && s.mayReturn e.1

/-- The groups to evict for a block of a task on a core: none of them where it fits (R358), nothing where it cannot be placed. The
footprint's place is not looked at. -/
def State.needFor (s : State) (ctx idx : Nat) (t : Task) (core : Nat) : Option (List Nat) :=
  let rows := t.gpb * t.regs + t.xregs
  if !(s.ctx ctx).allots core || 1152 ≤ core || s.returnsTo core then none
  else if t.gpb ≤ s.freeSlots core && rows ≤ s.freeRows core then some []
  else if t.preemptible then s.prefixFor core t.gpb rows (s.candidatesFor ctx idx t core) [] else none

/-- The better of two places (R358): the die with more free group slots, the lower die, the core with more free rows, the lower core. -/
def State.betterCore (s : State) (a b : Nat) : Bool :=
  let die (c : Nat) : Nat := ((List.range 144).map fun i => s.freeSlots (c / 144 * 144 + i)).sum
  if a / 144 = b / 144 then decide (s.freeRows b < s.freeRows a) || (s.freeRows a == s.freeRows b && decide (a ≤ b))
  else decide (die b < die a) || (die a == die b && decide (a / 144 < b / 144))

/-- The choice among places, each with the cores it takes and how many groups it evicts (R358, R378): one without eviction if there is
one, else the fewest evicted groups and the lower core. -/
def State.choose (s : State) (places : List (List Nat × Nat)) : Option (List Nat) :=
  let core (x : List Nat × Nat) : Nat := x.1.headD 0
  let free := places.filter fun x => x.2 == 0
  let pick (better : List Nat × Nat → List Nat × Nat → Bool) (l : List (List Nat × Nat)) : Option (List Nat) :=
    (l.foldl (fun (b : Option (List Nat × Nat)) x => match b with | none => some x | some y => if better x y then some x else some y) none).map Prod.fst
  if free.isEmpty then pick (fun x y => decide (x.2 < y.2) || (x.2 == y.2 && decide (core x < core y))) places
  else pick (fun x y => s.betterCore (core x) (core y)) free

/-- Evictions in one step, which return together (R378, R380): the groups whose area cannot be written, and the state if there is none. -/
def State.evictAll (s : State) (gks : List Nat) : List Nat × State :=
  gks.foldl (fun (x : List Nat × State) gk => match x.2.evictGroup s.seq gk with | some s1 => (x.1, s1) | none => (x.1 ++ [gk], x.2)) ([], s)

/-- The next blocks of a task go to some of the places: its blocks from `bid`, one on each core of the chosen place, at one offset. Where a group to be
evicted cannot be saved nothing is placed, and that group is named (R370). None where nothing fits. -/
def State.placeAt (s : State) (ctx idx : Nat) (t : Task) (bid : Nat) (places : List (List Nat)) : Option (List Nat × State) :=
  let costed := places.filterMap fun cores =>
    let needs := cores.map fun c => s.needFor ctx idx t c
    if needs.all (·.isSome) && (s.freeBase cores t.fsize).isSome then some (cores, (needs.map fun n => (n.getD []).length).sum) else none
  match s.choose costed with
  | none => none
  | some cores =>
    match s.freeBase cores t.fsize, s.evictAll (cores.flatMap fun c => (s.needFor ctx idx t c).getD []) with
    | some base, ([], s1) =>
      ((cores.zipIdx).foldl (fun (s : Option State) c => s.bind fun s => s.place ctx idx (bid + c.2) c.1 base) (some s1)).map fun s2 => ([], s2)
    | some _, (bad, _) => some (bad, s)
    | none, _ => none

/-- One block, or one cluster instance, of a task is placed; none while it cannot be (R358, R359). -/
def State.placeNext (s : State) (ctx idx : Nat) : Option (List Nat × State) :=
  match s.task ctx idx with
  | none => none
  | some t =>
    if t.clsz = 0 then s.placeAt ctx idx t t.placed ((List.range 1152).map fun c => [c])
    else s.placeAt ctx idx t t.placed ((List.range 48).map fun k => (List.range t.clsz).map fun m => 24 * k + m)

/-- All blocks of a GANG task in one step; fuel is their number (R359). -/
def State.placeGang (ctx idx : Nat) : Nat → State → Option (List Nat × State)
  | 0, s => some ([], s)
  | fuel + 1, s =>
    match s.task ctx idx with
    | none => none
    | some t =>
      if t.nblk ≤ t.placed ∨ t.ending ≠ 0 then some ([], s)
      else match s.placeNext ctx idx with
        | some ([], s1) => State.placeGang ctx idx fuel s1
        | r => r

/-- The next group that returns: as soon as there is room (R380). -/
def State.returnNow (s : State) : Option Nat := (List.find? (fun (e : Nat × Grp) => s.mayReturn e.1) s.groups).map (·.1)

/-- What the placement of a task's next block, instance or gang makes of the machine; none while it cannot be placed (R358 to R360). Where a group it evicts cannot be
saved, nothing is placed and none evicted, and that group's live paths trap SPILL_FAULT (R370). -/
def State.tryPlace (s : State) (ctx idx : Nat) : Option State :=
  match s.task ctx idx with
  | none => none
  | some t =>
    if !(t.status == 2 || t.status == 3) || t.ending != 0 || t.nblk ≤ t.placed || (s.ctx ctx).susp || s.suspending ctx then none
    else (if t.gang then State.placeGang ctx idx t.nblk s else s.placeNext ctx idx).map fun x => if x.1.isEmpty then x.2 else s.saveFailed x.1

/-! ### Turns (R355 to R357) -/

/-- A context's queued tasks in queue order (R355): those READY since an earlier clock, as the order of one clock's is known at its end (R351). -/
def State.inOrder (s : State) (ctx : Nat) : List (Nat × Task) :=
  let mine := s.tasks.filter fun (e : Nat × Task) =>
    e.1 / 65536 == ctx && (e.2.status == 2 || e.2.status == 3) && e.2.ending == 0 && decide (e.2.placed < e.2.nblk ∧ (e.2.status = 3 ∨ e.2.queued / 65536 < s.clock))
  let before (x y : Nat × Task) : Bool := decide (y.2.prio < x.2.prio) || (y.2.prio == x.2.prio && decide (x.2.queued ≤ y.2.queued))
  mine.insertionSort fun x y => before x y = true

/-- The tasks a turn may place: while one is reserving, the earliest of those in queue order alone (R357). -/
def State.queue (s : State) (ctx : Nat) : List Nat :=
  match (s.inOrder ctx).find? fun e => e.2.reserving.isSome with
  | some e => [e.1 % 65536]
  | none => (s.inOrder ctx).map fun e => e.1 % 65536

/-- The first task of a context's queue that can be placed now (R357). -/
def State.placeable (s : State) (ctx : Nat) : Option Nat := (s.queue ctx).find? fun i => (s.tryPlace ctx i).isSome

/-- Whether the turn goes on (R356, R368): fewer blocks placed than the weight read at its start, and one can be. -/
def State.turnOpen (s : State) : Bool := decide (s.turn.2.1 < s.turn.2.2) && (s.placeable s.turn.1).isSome

/-- The next context in cyclic order that can place a block: a context with nothing queued is skipped, and a turn in which nothing fits ends at
once (R356). -/
def State.nextTurn (s : State) : Option Nat := ((List.range 64).map fun i => (s.turn.1 + 1 + i) % 64).find? fun c => (s.placeable c).isSome

/-- DISPATCH_TURN: the turn has ended, and the next context that can place a block gets its own, with its weight as it now stands (R356, R368);
with none the turn is over (weight 0). -/
def eventDispatchTurn (s : State) : State :=
  if s.turnOpen then s
  else match s.nextTurn with
    | some c => { s with turn := (c, 0, (s.ctx c).weight) }
    | none => { s with turn := (s.turn.1, 0, 0) }

/-- Whether a turn has ended, or one can begin. -/
def State.turnOver (s : State) : Bool :=
  (s.turn.2.2 != 0 || s.tasks.any fun (e : Nat × Task) => (e.2.status == 2 || e.2.status == 3) && e.2.ending == 0 && decide (e.2.placed < e.2.nblk))
    && !s.turnOpen && (s.turn.2.2 != 0 || s.nextTurn.isSome)

/-- The placement the turn is at: what it makes of the machine (R357). -/
def State.nextPlacement (s : State) : Option (Nat × State) :=
  if s.turn.2.1 < s.turn.2.2 then (s.placeable s.turn.1).bind fun idx => (s.tryPlace s.turn.1 idx).map fun s1 => (idx, s1) else none

/-- The groups that placement evicts: they stop issuing at once (R379 step 1). -/
def State.leaving (s : State) : List Nat :=
  match s.nextPlacement with
  | none => []
  | some (_, s1) => (s.groups.filter fun e => e.2.resident && (match s1.grp e.1 with | some g => !g.resident | none => false)).map (·.1)

/-- BLOCK_PLACEMENT: the context in turn places the next block of the first task that can be placed (R357, R358), once the groups it evicts have
waited as R31 says (R379). -/
def eventBlockPlacement (s : State) : State :=
  match s.nextPlacement with
  | none => s
  | some (idx, s1) =>
    if s.leaving.all fun gk => match s.grp gk with | some g => g.settled | none => true then
      let n (x : State) : Nat := match x.task s.turn.1 idx with | some t => t.placed | none => 0
      { s1 with turn := (s.turn.1, s.turn.2.1 + (n s1 - n s), s.turn.2.2) }
    else s

/-- Since when each queued task is blocked: it cannot be placed though its context is not suspended (R357; log entry 42). -/
def State.noteBlocked (s : State) : State :=
  let blocked (e : Nat × Task) : Bool :=
    let ctx := e.1 / 65536
    !(s.ctx ctx).susp && !s.suspending ctx && (s.tryPlace ctx (e.1 % 65536)).isNone
  let queued (e : Nat × Task) : Bool := (e.2.status == 2 || e.2.status == 3) && e.2.ending == 0 && decide (e.2.placed < e.2.nblk)
  { s with tasks := s.tasks.map fun (e : Nat × Task) => (e.1, if queued e && !blocked e then { e.2 with since := s.clock } else e.2) }

/-- Whether a task becomes reserving: blocked for 65,536 core clocks while another stands behind it in the queue order (R357). -/
def State.reservingDue (s : State) (ctx idx : Nat) : Bool :=
  match (s.inOrder ctx).dropWhile fun e => e.1 != taskKey ctx idx with
  | (_, t) :: _ :: _ => decide (t.since + 65536 ≤ s.clock) && t.reserving.isNone
  | _ => false

/-- RESERVING_TIMEOUT [context, task] (R357). -/
def eventReservingTimeout (s : State) : State :=
  let ctx := s.arg 0; let idx := s.arg 1
  match s.task ctx idx with
  | none => s
  | some t => if s.reservingDue ctx idx then s.setTask ctx idx { t with reserving := some s.clock } else s

/-- QUANTUM_EXPIRY [block]: the last clock of the quantum is charged (R361). -/
def eventQuantumExpiry (s : State) : State :=
  s.updBlk (s.arg 0) fun b => if 0 < b.quantum && b.used + 1 = b.quantum * 1024 then { b with used := b.quantum * 1024 } else b

/-! ### Retirement and the end of tasks (R253, R254, R362, R363) -/

/-- Whether a block may retire (R253, R267): its groups have exited, nothing it issued is under way, its outbox has drained. -/
def State.mayRetire (s : State) (bk : Nat) : Bool :=
  match s.blk bk with
  | none => false
  | some b =>
    let m := s.mx b.core
    !b.retained && (s.groupsOf bk).all (fun e => e.2.alive == 0) && s.reqs.all (fun r => r.bk != bk || !(r.kind.writes || r.kind == .refused))
      && s.acts.all (fun a => a.bk != bk)
      && m.cmds.all (fun c => c.bk != bk) && m.tiles.all (fun t => t.rows.all fun r => r.gk / 16 != bk)
      && s.ecmds.all (fun (c : EngCmd) => c.bk != bk) && s.fab.all (fun o => o.bk != bk) && (s.outbox bk).isEmpty

/-- The records of failures a block leaves unreported (R195, R209). -/
def State.leftFailures (s : State) (b : Blk) : List Rec :=
  let of (gk cause info : Nat) : Rec :=
    let r := match s.grp gk with | some g => { recOf g b with slots := BitVec.ofNat 32 (2 ^ g.slot) } | none => { Rec.empty with bid := b.bid, task := b.task, core := b.core, ctx := b.ctx }
    { r with kind := 5, cause := cause, info := info, exited := true }
  (b.mdones.filter fun d => d.cause != 0).map (fun d => of d.gk d.cause (d.kind * 2 ^ 12 + d.num * 2 ^ 8))
    ++ (b.dones.filter fun d => d.cause != 0).map (fun d => of d.grp d.cause (d.kind * 2 ^ 12 + d.counter * 2 ^ 8))

/-- The fabric failures a group leaves unreported when it exits, and those that come after, become records marked EXITED (R241). -/
def State.failNow (s : State) : Option State :=
  (List.find? (fun (e : Nat × Grp) => e.2.alive == 0 && !e.2.fabricFail.isEmpty) s.groups).bind fun e =>
    (s.blk e.2.blk).map fun b =>
      e.2.fabricFail.foldl (fun s f => s.fault b.core { recOf e.2 b with kind := 5, cause := Cause.fabric.code, info := f.1 * 256 + f.2.2, exited := true })
        (s.updGrp e.1 fun g => { g with fabricFail := [] })

/-- The retired prefix (R117): the length of the unbroken run of retired blocks from block 0; fuel is the number retired. -/
def prefixFrom (done : List Nat) : Nat → Nat → Nat
  | 0, n => n
  | fuel + 1, n => if done.contains n then prefixFrom done fuel (n + 1) else n

/-- BLOCK_RETIRE [block] (R253): the task's counts rise, what the block held is free, the footprints of a cluster instance go together,
failures left unreported end the task. -/
def eventBlockRetire (s : State) : State :=
  let bk := s.arg 0
  match s.blk bk with
  | none => s
  | some b =>
    if !s.mayRetire bk then s
    else
      let recs := s.leftFailures b
      let s1 := { s.leaseRelease b.core bk with groups := s.groups.filter fun e => e.2.blk != bk }
      let s2 := s1.updMx b.core fun m => { m with slots := m.slots.filter fun e => e.1 / 16 != bk }
      let s3 := s2.updCtx b.ctx fun c => { c with frames := c.frames.erase b.frame }
      let s4 := s3.setBlk bk { b with retained := true }
      let members := s4.blocks.filter fun (e : Nat × Blk) =>
        e.2.ctx == b.ctx && e.2.task == b.task && (e.1 == bk || (b.clsz != 0 && e.2.bid / b.clsz == b.bid / b.clsz))
      let s5 := if members.all fun e => e.2.retained then { s4 with blocks := s4.blocks.filter fun e => members.all fun i => i.1 != e.1 } else s4
      let s6 := match s5.task b.ctx b.task with
        | none => s5
        | some t =>
          let done := t.done ++ [b.bid]
          s5.putTask b.ctx b.task t { t with retired := t.retired + 1, done := done, pfx := prefixFrom done done.length t.pfx }
      let s7 := recs.foldl (fun s r => s.fault b.core r) s6
      s7.endIfEmpty b.ctx b.task

/-- TASK_DONE [context, task] (R362). -/
def eventTaskDone (s : State) : State :=
  let ctx := s.arg 0; let idx := s.arg 1
  if s.taskMet ctx idx then s.taskDone ctx idx else s

/-! ### Leap (R382 to R384) -/

/-- Whether Leap may move a block (R382). -/
def State.movable (s : State) (bk : Nat) (b : Blk) : Bool :=
  let m := s.mx b.core
  let gs := s.groupsOf bk
  b.migratable && b.clsz == 0 && !b.gang && !b.retained && !b.suspended && (s.ctx b.ctx).desc.getLsbD 3
    && gs.all (fun e => e.2.resident && e.2.paths.all (fun p => p.st != .stopped) && e.2.spilled.all fun p => p.2.st != .stopped)
    && m.holder != some bk && s.ecmds.all (fun (c : EngCmd) => c.bk != bk) && m.cmds.all (fun c => c.bk != bk)

/-- Whether a block fits a core without eviction (R358). -/
def State.fitsOn (s : State) (b : Blk) (core : Nat) : Bool :=
  (s.ctx b.ctx).allots core && decide (b.gpb ≤ s.freeSlots core ∧ b.gpb * b.regs + b.xregs ≤ s.freeRows core) && (s.freeBase [core] b.fsize).isSome

/-- The moves the counts of an interval allow (R382): the youngest movable block of a crowded core, and an idle core of its die. -/
def State.leapMoves (s : State) : List (Nat × Nat) :=
  (List.range 1152).flatMap fun c =>
    if (s.core c).crowdedIn ≤ 32768 then []
    else
      let mine := s.blocks.filter fun (e : Nat × Blk) => e.2.core == c && s.movable e.1 e.2
      match mine.getLast? with
      | none => []
      | some (bk, b) => ((List.range 144).map (· + c / 144 * 144)).filterMap fun i =>
          if i != c && decide ((s.core i).issuedIn < 8192) && s.fitsOn b i then some (bk, i) else none

/-- LEAP_INTERVAL: at the end of 65,536 core clocks (R382); which of several moves is made is open. -/
def eventLeapInterval (s : State) : State :=
  if s.clock % 65536 = 0 && s.cores.any fun (e : Nat × Core) => e.2.issuedIn != 0 || e.2.crowdedIn != 0 then
    let ms := if s.dev.leap.isEmpty then s.leapMoves else []
    let s1 := { s with cores := s.cores.map fun (e : Nat × Core) => (e.1, { e.2 with issuedIn := 0, crowdedIn := 0 }) }
    match ms with
    | [] => s1
    | _ => match ms[(Config.freeValue s.free).toNat % ms.length]? with
      | some m => { s1 with free := s.free + 1, dev := { s1.dev with leap := [m] } }
      | none => s1
  else s

/-- A home address moved with a footprint. -/
def moved (lo n dst pa : Nat) : Nat := if lo ≤ pa ∧ pa < lo + n then dst + (pa - lo) else pa
/-- A wait on a word of a moved footprint. -/
def Wait.moved (f : Nat → Nat) (w : Wait) : Wait :=
  match w with | .barWord h p => .barWord (f h) p | .mwait h o v k d z => .mwait (f h) o v k d z | .swaitp h b p => .swaitp (f h) b p | w => w

/-- Whether the waits of R383 step 1 are over: queued full-empty requests are none of them; they are forwarded (R160, R383). -/
def State.mayMove (s : State) (bk : Nat) (b : Blk) : Bool :=
  (s.groupsOf bk).all (fun e => e.2.settled) && s.reqs.all (fun r => r.bk != bk || !r.kind.writes || (r.kind.fullEmpty && r.queued.isSome)) && (s.outbox bk).isEmpty
    && (s.mx b.core).tiles.all (fun t => t.rows.all fun r => r.gk / 16 != bk)

/-- The footprint's bytes, marks and tags are copied, and what is under way to the old range goes to the new (R383, R384). -/
def State.moveFootprint (s : State) (lo dst n : Nat) : State :=
  let f := moved lo n dst
  let inside (a : Nat) : Bool := decide (lo ≤ a ∧ a < lo + n)
  let lines (k : Nat) (m : SMap Bool) : SMap Bool := m.foldl (fun m e => if inside (k * e.1) then SMap.set false m (f (k * e.1) / k) e.2 else m)
    (m.filter fun e => !(decide (dst ≤ k * e.1 ∧ k * e.1 < dst + n)))
  let bytes := s.mem.bytes.foldl (fun (m : List Host.Cell) e => if inside e.1 then SMap.set unlistedByte m (f e.1) e.2 else m)
    (s.mem.bytes.filter fun e => !(decide (dst ≤ e.1 ∧ e.1 < dst + n)))
  { s with
    mem := { s.mem with bytes := bytes, poison := lines 64 s.mem.poison, empties := lines 16 s.mem.empties }
    reqs := s.reqs.map fun r => { r with parts := r.parts.map fun p => { p with home := f p.home } }
    bars := s.bars.map fun b => (f b.1, b.2)
    groups := s.groups.map fun e => (e.1, { e.2 with
      paths := e.2.paths.map fun p => { p with wait := p.wait.moved f }
      spilled := e.2.spilled.map fun x => (x.1, { x.2 with wait := x.2.wait.moved f }) }) }

/-- LEAP_MOVE [block, core]: after the waits the block stands on the new core with its slots, its tiles and its claim to the lease (R370, R383); a claim
another block has there stands (DESIGN CHOICE, log entry 98); a move whose conditions no longer hold is dropped. -/
def eventLeapMove (s : State) : State :=
  let bk := s.arg 0; let core := s.arg 1
  if !s.dev.leap.contains (bk, core) then s
  else
    let s0 := { s with dev := { s.dev with leap := s.dev.leap.erase (bk, core) } }
    match s.blk bk with
    | none => s0
    | some b =>
      if !s.movable bk b || !s.fitsOn b core then s0
      else if !s.mayMove bk b then s
      else match s.freeBase [core] b.fsize with
        | none => s0
        | some base =>
          let gks := (s.groupsOf bk).map (·.1)
          let s1 := if (s0.mx b.core).prev == some bk then s0.tilesOut b.core else s0
          let lo := slicePA b.core b.fbase
          let senders := (s1.reqs.filter fun r => r.parts.any fun p => decide (lo ≤ p.home ∧ p.home < lo + b.fsize)).map (·.core)
          let slots := s1.openSlots core
          let s2 := s1.moveFootprint lo (slicePA core base) b.fsize
          let mine := (s2.mx b.core).slots.filter fun e => e.1 / 16 == bk
          let claimed := (s2.mx b.core).claim == some bk
          let s3 := (s2.updMx b.core fun m =>
              { m with slots := m.slots.filter fun e => e.1 / 16 != bk, claim := if claimed then none else m.claim }).updMx core fun m =>
            { m with claim := if claimed && m.claim.isNone then some bk else m.claim, slots := mine.foldl (fun l e => SMap.put l e.1 { e.2 with st := if e.2.st = 2 then 4 else e.2.st }) m.slots }
          let s4 := s3.updBlk bk fun b' => { b' with core := core, fbase := base, olds := b.olds ++ [(b.core, b.fbase)], fwd := senders.eraseDups }
          let s4 := if mine.any fun e => e.2.st == 2 then s4.slotsOut core bk else s4
          let start (s : State) (g : Nat × Nat) : State :=
            let s1 := s.updGrp g.1 fun x =>
              { x with age := s.seq, starve := 0, promoted := false, slot := slots.getD g.2 0, paths := x.paths.map fun p => { p with dist := [] } }
            { s1 with seq := s.seq + 1 }.backAll g.1
          gks.zipIdx.foldl start s4

/-- LEAP_FORWARD_ACK [block, core]: the last message a source core had forwarded to a moved footprint is acknowledged, and the core sends
directly from now on (R384). -/
def eventLeapForwardAck (s : State) : State :=
  let bk := s.arg 0; let core := s.arg 1
  match s.blk bk with
  | none => s
  | some b =>
    let lo := slicePA b.core b.fbase
    if s.reqs.any fun r => r.core == core && r.parts.any fun p => decide (lo ≤ p.home ∧ p.home < lo + b.fsize) then s
    else s.setBlk bk { b with fwd := b.fwd.erase core }

end Sys2Proof.Machine
end

