-- ==== Sys2Proof/Machine/MemEvents.lean ====
section
/-! DEFINITION. What happens to requests and records on their way: homes serve loads, stores, atomics and full-empty requests (R150 to
R159, R271 to R280), atomics merge (R153, R275), host atomics complete (R154), arrivals reach barrier words (R165), refused stores are
reported (R389), records close and enter the event rings (R385, R388), MSI-X moderation ends (R412), hierarchical and pod barriers
complete (R170, R415), walks finish (R374, R375), the scrubber reads (R435). Each event names what it acts on in `State.subject`; one that
is not due changes nothing. -/
namespace Sys2Proof.Machine
open Sys2Proof Host

/-! ### At a home -/

/-- LOAD_AT_HOME [request] or [request, part + 1] (R279): all of it, or one part by itself (R281). -/
def eventLoadAtHome (s : State) : State :=
  match s.enabled (s.arg 0) with
  | some r => if r.kind == .load && r.cause == 0 then (if s.arg 1 = 0 then s.serveLoad r else s.servePart r (s.arg 1 - 1)).pollDone r.op else s
  | none => s

/-- Whether two stores of a path may be combined into one write: unordered pages, one line (R272). -/
def MemReq.combines (x y : MemReq) : Bool :=
  x.kind == .store && y.kind == .store && x.samePath y && x.cause == 0 && y.cause == 0
    && (x.parts ++ y.parts).all fun p => p.ord == 2 && p.home / 64 == (match x.parts with | q :: _ => q.home / 64 | [] => 0)

/-- Stores taken off the list one after another, each when nothing before it holds it back; none where one must wait. -/
def State.takeStores (s : State) : List Nat → Option (List MemReq × State)
  | [] => some ([], s)
  | rid :: rest =>
    match s.enabled rid with
    | some r =>
      if r.kind == .store && r.cause == 0 then
        match (s.dropReq rid).takeStores rest with | some (rs, s1) => some (r :: rs, s1) | none => none
      else none
    | none => none

/-- Of several writes of one byte the last stands. -/
def lastWrites : List (Nat × Byte × Bool) → List (Nat × Byte × Bool)
  | [] => []
  | w :: rest => if rest.any fun x => x.1 == w.1 then lastWrites rest else w :: lastWrites rest

/-- The stores named are performed, combined where there are several. -/
def State.storesNamed (s : State) : State :=
  match s.takeStores s.subject with
  | none => s
  | some (rs, s1) =>
    match rs with
    | [] => s
    | r :: rest => if rest.all fun x => r.combines x then s1.programWrite (lastWrites ((r :: rest).flatMap fun x => writeBytes x.parts)) else s

/-- Whether a store's request may be performed part by part: it has several, and is not one write of a whole line (R281, R429). -/
def MemReq.divides (r : MemReq) : Bool := decide (1 < r.parts.length ∧ (r.parts.foldl (fun n p => n + p.len) 0) < 64)

/-- STORE_PERFORMED [request, …]: a store is accepted at its home (R279); several stores of a path to one line of an unordered page may
be combined (R272). STORE_PERFORMED [request, 2^64 + part]: one part of it is, and the rest stays on its way (R281, R296). -/
def eventStorePerformed (s : State) : State :=
  match s.subject with
  | [rid, k] =>
    if 2 ^ 64 ≤ k then
      match s.enabled rid with
      | some r =>
        match if r.kind == .store && r.cause == 0 && r.divides then r.part (k - 2 ^ 64) else none with
        | some p =>
          { s with reqs := s.reqs.map fun (y : MemReq) => if y.rid == rid then { y with parts := r.parts.eraseIdx (k - 2 ^ 64) } else y : State }.programWrite (writeBytes [p])
        | none => s
      | none => s
    else s.storesNamed
  | _ => s.storesNamed

/-- An atomic on a host page (R154). -/
def MemReq.onHost (r : MemReq) : Bool := r.parts.any fun p => isHost p.home

/-- ATOMIC_AT_HOME [request]: an atomic, with those merged into it, is applied at its home (R151, R153). -/
def eventAtomicAtHome (s : State) : State :=
  match s.enabled (s.arg 0) with
  | some r => if r.kind == .atomic && r.queued.isNone && !r.onHost then s.serveAtomic r else s
  | none => s

/-- Whether an atomic may be merged (R153): SUBOP 0 to 7, ATOMX, SSIG; no host page, no poisoned operand. -/
def MemReq.mergeable (r : MemReq) : Bool :=
  r.kind == .atomic && r.queued.isNone && !r.onHost && (decide (r.aop ≤ 7) || r.aop == 32) && r.atoms.all fun u => !u.poison

/-- Whether y may join x, the entry: of the same context, operation, size, address and page kind, x free to be performed, y held back by nothing and
with only what travels with x ahead of it (R153, R272, R275). Of what y brings, all that x's core sent left after x (R270). Merge entries are not
counted: which requests meet in a router's 16 is open, and any two may (log entry 79). -/
def State.mayMerge (s : State) (x y : MemReq) : Bool :=
  let place (r : MemReq) : List (Nat × Nat × Nat) := r.parts.map fun p => (p.home, p.len, p.ord)
  x.rid != y.rid && x.mergeable && y.mergeable && x.ctx == y.ctx && x.aop == y.aop && place x == place y
    && (s.enabled x.rid).isSome && !s.held y && ((s.ahead y).all fun z => z.rid == x.rid || z.queued == some x.rid)
    && (y :: s.joined y.rid).all fun z => x.core != z.core || decide (x.rid < z.rid)

/-- ATOMIC_MERGE [entry, request]: a request on its way joins one of the same operation, size and address, and with it those that have joined
it (R153, R275). -/
def eventAtomicMerge (s : State) : State :=
  match s.reqs.find? fun x => x.rid == s.arg 0, s.reqs.find? fun x => x.rid == s.arg 1 with
  | some x, some y =>
    if s.mayMerge x y then
      { s with reqs := s.reqs.map fun r =>
          if r.rid == y.rid || (r.kind == .atomic && r.queued == some y.rid) then { r with queued := some x.rid } else r }
    else s
  | _, _ => s

/-- A record of a store that was refused after it retired (R386, R389), and the end of its task (R363); the request stands for the record until
it has been written, which WAITR, fences and the block's retirement wait for (R116, R162, R253). -/
def State.storeFault (s : State) (r : MemReq) (cause : Nat) : State :=
  let exited := match s.grp r.gk with | some g => g.alive == 0 | none => true
  let base : Rec := match s.grp r.gk, s.blk r.bk with | some g, some b => recOf g b | _, _ => { Rec.empty with core := r.core, ctx := r.ctx }
  let va := r.parts.foldl (fun n p => min n p.va) noVa
  let s1 : State := { s with reqs := s.reqs.map fun x => if x.rid == r.rid then { x with kind := .refused, acq := false } else x }
  s1.fault r.core { base with
    stores := [r.rid], kind := 4, cause := cause, va := va, pc := r.pc, path := r.pi, mask := r.parts.foldl (fun m p => m ||| p.ts) 0, exited := exited }

/-- IMPRECISE_STORE_FAULT [request] (R53, R389). -/
def eventImpreciseStoreFault (s : State) : State :=
  match s.reqs.find? fun x => x.rid == s.arg 0 with
  | some r => if r.cause = 0 ∨ r.kind ≠ .store then s else s.storeFault r r.cause
  | none => s

/-- A host atomic that failed delivers an unspecified value (R154). -/
def State.atomicLost (s : State) (u : AtomUse) : State :=
  match s.loads.find? fun l => l.id == u.op with
  | none => s
  | some l =>
    if !u.ret then s
    else
      let (x, s1) := s.draw
      let left := l.left.filter fun y => y.1 != u.thread
      let put (y : LoadOp) : LoadOp := if y.id == u.op then { y with left := left } else y
      { s1 with loads := (s1.loads.map put).filter fun y => !(y.id == u.op && left.isEmpty) }.deliver l u.thread x.toNat false 0

/-- HOST_ATOMIC_COMPLETION [request, ok]: the PCIe AtomicOp completes, normally (1) or with an error, which is recorded with cause ACCESS
(R154). -/
def eventHostAtomicCompletion (s : State) : State :=
  match s.enabled (s.arg 0) with
  | some r =>
    if r.kind != .atomic || !r.onHost then s
    else if s.arg 1 = 1 then s.serveAtomic r
    else (r.atoms.foldl (fun s u => s.atomicLost u) s).storeFault r Cause.access.code
  | none => s

/-- FULL_EMPTY_AT_HOME [request] (R159); a withdrawn request waits for its group's return (R160). -/
def eventFullEmptyAtHome (s : State) : State :=
  match s.enabled (s.arg 0) with
  | some r =>
    let fe := match r.kind with | .ldfe _ | .stfe _ => true | _ => false
    if !fe || r.queued.isSome then s
    else if r.out then (if (s.grp r.gk).any (·.alive != 0) then s else s.dropReq r.rid)
    else s.serveFe r
  | none => s

/-- BARRIER_ARRIVAL [place]: an engine arrival reaches its barrier word (R165). -/
def eventBarrierArrival (s : State) : State :=
  match s.bars[s.arg 0]? with
  | some (home, n) => { s with bars := s.bars.eraseIdx (s.arg 0) }.engineArrive home n
  | none => s

/-! ### Records (R385, R388, R412) -/

/-- COALESCER_CLOSE [core]: the earliest record closes 256 clocks after its first event (R385). -/
def eventCoalescerClose (s : State) : State :=
  let core := s.arg 0
  match (s.core core).coalescer with
  | (t, r) :: rest => if s.clock < t + 256 then s else { s.updCore core fun c => { c with coalescer := rest } with records := s.records ++ [r] }
  | [] => s

def Ctx.evprod (c : Ctx) : Nat := (c.desc.extractLsb' 992 32).toNat
def Ctx.evcons (c : Ctx) : Nat := (c.desc.extractLsb' 960 32).toNat
def Ctx.evlog2 (c : Ctx) : Nat := (c.desc.extractLsb' 936 8).toNat
def Ctx.evbase (c : Ctx) : Nat := (c.desc.extractLsb' 864 64).toNat
/-- A descriptor field set: `n` bits from bit `lo`. -/
def Ctx.setField (c : Ctx) (lo n x : Nat) : Ctx :=
  { c with desc := (c.desc &&& ~~~(BitVec.ofNat 1024 ((2 ^ n - 1) * 2 ^ lo))) ||| BitVec.ofNat 1024 (x % 2 ^ n * 2 ^ lo) }

/-- EVENT_RING_WRITE [context] (R388): the context's earliest record is written and EVPROD rises; while the ring is full the earliest
record of KIND 2 or 3 is dropped. -/
def eventEventRingWrite (s : State) : State :=
  let ctx := s.arg 0; let c := s.ctx ctx
  let full := (c.evprod + 2 ^ 32 - c.evcons) % 2 ^ 32 == 2 ^ c.evlog2
  match s.records.findIdx? fun r => r.ctx == ctx && (!full || r.kind == 2 || r.kind == 3) with
  | none => s
  | some k =>
    match s.records[k]? with
    | none => s
    | some r =>
      let s1 := { s with records := s.records.eraseIdx k }
      if full then s1.updCtx ctx fun c => c.setField 944 16 (min ((c.desc.extractLsb' 944 16).toNat + 1) 65535)
      else
        let s2 := match s1.storeNow (homeAgent ctx) (c.evbase + 64 * (c.evprod % 2 ^ c.evlog2)) 64 r.bits.toNat false with
          | .ok x => x | .error _ => s1
        (r.stores.foldl (fun s rid => s.dropReq rid) (s2.updCtx ctx fun c => c.setField 992 32 (c.evprod + 1))).msix ctx

/-- MSIX_MODERATION_EXPIRY [vector]: a raise that waits is signalled 4,096 clocks after the last message (R412). -/
def eventMsixModerationExpiry (s : State) : State :=
  let v := s.arg 0
  match SMap.find? s.dev.msix v with
  | some (last, true) =>
    if last + 4095 ≤ s.clock then
      { s with dev := { s.dev with msix := SMap.put s.dev.msix v (s.clock + 1, false), sent := SMap.upd 0 s.dev.sent v (· + 1) } }
    else s
  | _ => s

/-- ERROR_LOG_WRITE: the earliest held record enters the device log, and vector 64 signals; while the log is full class 1 records are dropped and
counted (R434). -/
def eventErrorLogWrite (s : State) : State :=
  let l := s.errlog
  match l.held with
  | [] => s
  | _ :: _ =>
    if l.prod - l.cons == 64 then
      { s with errlog := l.held.foldl (fun (l : ErrLog) r =>
          if errClass r = 1 then
            { l with cedrop := min (l.cedrop + 1) 65535, missed := SMap.set 0 l.missed (errPlace r) (SMap.get 0 l.missed (errPlace r) + (r.extractLsb' 384 32).toNat) }
          else { l with held := l.held ++ [r] }) { l with held := [] } }
    else s.logWrite

/-! ### Hierarchical barriers (R170, R415) -/

/-- Whether two cores lie in one part of the machine of a scope: 2 quad, 3 cluster, 4 die, 5 and 6 the package (R255). -/
def sameScope (scope a b : Nat) : Bool :=
  match scope with | 2 => a / 4 == b / 4 | 3 => a / 24 == b / 24 | 4 => a / 144 == b / 144 | _ => true

/-- The blocks of a block's task in its part of the machine. -/
def State.scopeBlocks (s : State) (b : Blk) (scope : Nat) : List (Nat × Blk) :=
  (s.taskBlocks b.ctx b.task).filter fun e => sameScope scope e.2.core b.core

/-- Every group of those blocks has arrived or exited, and one has arrived (R170). -/
def State.hbarMet (s : State) (b : Blk) (scope : Nat) : Bool :=
  let bs := s.scopeBlocks b scope
  bs.any (fun e => !(SMap.get [] e.2.hbarArr scope).isEmpty)
    && bs.all fun e => (s.groupsOf e.1).all fun g => g.2.alive == 0 || (SMap.get [] e.2.hbarArr scope).contains g.2.gix

/-- The waiters of a scope in some blocks go on, acquiring what the arrivals have before them (R170), and its arrivals start afresh. -/
def State.hbarRelease (s : State) (bks : List Nat) (scope : Nat) : State :=
  let hers (w : Wait) : Bool := match w with | .hbar k _ => k == scope | _ => false
  let deps := (s.blocks.filter fun e => bks.contains e.1).flatMap fun e => e.2.relDeps (16 + scope)
  let s0 := bks.foldl (fun s bk => s.endRel bk (16 + scope)) (s.acquireAll (fun g => bks.contains g.blk) hers deps)
  let s1 := { s0 with blocks := s0.blocks.map fun (e : Nat × Blk) =>
    (e.1, if bks.contains e.1 then { e.2 with hbarArr := SMap.del e.2.hbarArr scope, hbarDone := SMap.upd 0 e.2.hbarDone scope (· + 1) } else e.2) }
  s1.release (fun g => bks.contains g.blk) hers

/-- PGID and PGCNT of a context (R415). -/
def Ctx.pgid (c : Ctx) : Nat := (c.podgrp.extractLsb' 0 16).toNat
def Ctx.pgcnt (c : Ctx) : Nat := (c.podgrp.extractLsb' 16 9).toNat

/-- Blocks with a group that waits at HBAR.POD under a PGID. -/
def State.podBlocks (s : State) (pgid : Nat) : List Nat :=
  (s.blocks.filter fun (e : Nat × Blk) => (s.ctx e.2.ctx).pgid == pgid && !(SMap.get [] e.2.hbarArr 6).isEmpty).map (·.1)

/-- The phase of a PGID's barrier under way on this package. -/
def Dev.podPhaseOf (d : Dev) (pgid : Nat) : Nat := SMap.get 0 d.podPhase pgid
/-- The arrivals of that phase: PGCNT and package. -/
def Dev.podNow (d : Dev) (pgid : Nat) : List (Nat × Nat) :=
  (d.pod.filter fun a => a.1 == pgid && a.2.2.2 == d.podPhaseOf pgid).map fun a => (a.2.1, a.2.2.1)
/-- The phase is over on this package. -/
def Dev.podNext (d : Dev) (pgid : Nat) : Dev :=
  { d with pod := d.pod.filter fun a => !(a.1 == pgid && decide (a.2.2.2 ≤ d.podPhaseOf pgid)), podPhase := SMap.put d.podPhase pgid (d.podPhaseOf pgid + 1) }

/-- What the arrivals of the phase under way make of it (R415): where there are waiters, an arrival whose PGCNT is not theirs breaks it, and it is
then over here (DESIGN CHOICE, log entry 104); when PGCNT packages have arrived, this one among them, the waiters of the task
that this package arrived for go on; another task of the PGID arrives in the next phase. -/
def State.podSettle (s : State) (pgid : Nat) : State :=
  let bks := s.podBlocks pgid
  let now := s.dev.podNow pgid
  let counts := bks.filterMap fun k => (s.blk k).map fun b => (s.ctx b.ctx).pgcnt
  if now.any fun a => counts.any fun n => n != a.1 then
    let s2 := { s with
      dev := s.dev.podNext pgid
      blocks := s.blocks.map fun (e : Nat × Blk) => (e.1, if bks.contains e.1 then { e.2 with hbarArr := SMap.del e.2.hbarArr 6 } else e.2) }
    s2.trapWaiters (fun g => bks.contains g.blk) (fun w => match w with | .hbar 6 _ => true | _ => false) (trap .barrierMismatch)
  else if now.any fun a => a.2 == s.dev.pkgid && decide (a.1 ≤ now.length) then { s with dev := s.dev.podNext pgid }.hbarRelease (SMap.get [] s.dev.podOwn pgid) 6
  else s

/-- An arrival at a pod barrier (R415): this package's own is of the phase under way, another's of the phase after its last. -/
def State.podArrive (s : State) (pgid cnt pkg : Nat) : State :=
  let d := s.dev
  let key := 512 * pgid + pkg
  let phase := if pkg = d.pkgid then d.podPhaseOf pgid else SMap.get 0 d.podSeen key
  let s1 := { s with dev := { d with podSeen := if pkg = d.pkgid then d.podSeen else SMap.put d.podSeen key (phase + 1)
                                     pod := if d.podPhaseOf pgid ≤ phase then d.pod ++ [(pgid, cnt, pkg, phase)] else d.pod } }
  s1.podSettle pgid

/-- HBAR_COMPLETE [block, scope] (R170); at .POD the package's own arrival goes out (R415). -/
def eventHbarComplete (s : State) : State :=
  let scope := s.arg 1
  match s.blk (s.arg 0) with
  | none => s
  | some b =>
    if !s.hbarMet b scope then s
    else if scope = 6 then
      let c := s.ctx b.ctx
      if (s.dev.podNow c.pgid).any fun a => a.2 == s.dev.pkgid then s
      else { s with dev := { s.dev with podOwn := SMap.put s.dev.podOwn c.pgid ((s.scopeBlocks b 6).map fun (e : Nat × Blk) => e.1) } }.podArrive c.pgid c.pgcnt s.dev.pkgid
    else s.hbarRelease ((s.scopeBlocks b scope).map (·.1)) scope

/-- POD_BARRIER_ARRIVAL [PGID, PGCNT, package]: an arrival from another package (R415). -/
def eventPodBarrierArrival (s : State) : State := if s.arg 2 = s.dev.pkgid then s else s.podArrive (s.arg 0) (s.arg 1) (s.arg 2)

/-! ### Walks (R374, R375) -/

/-- An entry goes into a TLB of at most `cap` entries (R374): what it replaces there is open. -/
def State.tlbFill (s : State) (cap : Nat) (x : TlbEnt) : State :=
  let old (e : TlbEnt) : Bool := e.kind == x.kind && e.unit == x.unit && e.ctx == x.ctx && e.log2 == x.log2 && e.va == x.va
  let rest := s.tlb.filter fun e => !old e
  let mine := rest.filter fun e => e.kind == x.kind && e.unit == x.unit
  if mine.length < cap then { s with tlb := rest ++ [x] }
  else
    let (r, s) := s.draw
    let out := mine[r.toNat % cap]?
    { s with tlb := (rest.filter fun e => some e != out) ++ [x] }

/-- The entries a core and its cluster hold for a page whose walk has ended in a leaf; one that breaks a rule of R372 or R373 is a fault, and
held nowhere (R374). -/
def State.tlbHold (s : State) (w : Walk) : State :=
  match w.answer with
  | .leaf e size =>
    match leafOf e size with
    | .error _ => s
    | .ok _ =>
      let ent (kind unit : Nat) : TlbEnt := ⟨kind, unit, w.ctx, 65536 * w.page / size * size, Nat.log2 size, BitVec.ofNat 64 e⟩
      let s1 := ((w.cores.map clusterOf).eraseDups).foldl (fun (s : State) k => s.tlbFill 1024 (ent 1 k)) s
      w.cores.foldl (fun (s : State) k => s.tlbFill 64 (ent 0 k)) s1
  | _ => s

/-- The die takes misses while it holds fewer than 4,096 of them and runs walks up to 32, the earliest first (R375). -/
def takeWalks (ws : List Walk) : List Walk :=
  ws.foldl (fun (out : List Walk) w =>
    let mine := out.filter fun x => x.die == w.die
    let st := if w.st = 2 then 2
      else if (mine.filter fun x => x.st == 2).length < 32 then 2
      else if w.st = 1 ∨ (mine.filter fun x => x.st != 0).length < 4096 then 1 else 0
    out ++ [{ w with st := st }]) []

/-- TLB_WALK_COMPLETE [die, context, page]: a walk finishes (R374, R375): the TLBs of those that wait for it hold the leaf for the whole page,
the die's walkers the table entries met; a fault is held nowhere. -/
def eventTlbWalkComplete (s : State) : State :=
  let mine (w : Walk) : Bool := w.die == s.arg 0 && w.ctx == s.arg 1 && w.page == s.arg 2
  match s.walks.find? fun w => mine w && w.st == 2 with
  | none => s
  | some w =>
    let ent (t : Nat × Nat) : TlbEnt := ⟨2, w.die, w.ctx, 65536 * w.page / 2 ^ t.1 * 2 ^ t.1, t.1, BitVec.ofNat 64 t.2⟩
    let s1 := { s with walks := takeWalks (s.walks.filter fun x => !mine x) }
    (w.tables.foldl (fun (s : State) t => s.tlbFill 4096 (ent t)) s1).tlbHold w

/-- A core looks up the page of an access (R374, R375): in its TLB, in its cluster's, which fills the core's, else it waits for the walk its die
has in hand for the page or starts one. A walk meets the lines of the entries it reads (R427). -/
def State.lookUp (s : State) (ctx core va : Nat) (does : Leaf → Bool) : State :=
  let ok (e : Nat × Nat) : Bool := match leafOf e.1 e.2 with | .ok l => does l | .error _ => false
  let die := dieOf core
  if isAperture va || decide (2 ^ 56 ≤ va) || (s.tlbAt 0 core ctx va).any ok then s
  else match (s.tlbAt 1 (clusterOf core) ctx va).filter ok with
    | some e => s.tlbFill 64 ⟨0, core, ctx, va / e.2 * e.2, Nat.log2 e.2, BitVec.ofNat 64 e.1⟩
    | none =>
      if s.walks.any fun w => w.die == die && w.ctx == ctx && w.page == va / 65536 then
        { s with walks := s.walks.map fun w =>
            if w.die == die && w.ctx == ctx && w.page == va / 65536 && !w.cores.contains core then { w with cores := w.cores ++ [core] } else w }
      else
        let w : Walk :=
          { die := die, ctx := ctx, page := va / 65536, cores := [core], st := 0
            tables := ((s.walkPathAt die ctx va).filter (·.2)).map fun x => (x.1.1, x.1.2.2), answer := walkEnd (s.walkAt die ctx va) }
        { s.walkMeet die ctx va with walks := takeWalks (s.walks ++ [w]) }

/-- Requests that have left their cores since this was last done have their pages looked up. -/
def State.lookUpNow (s : State) : Option State :=
  let news := s.reqs.filter fun r => decide (s.looked ≤ r.rid) && r.kind.travels
  if news.isEmpty then none
  else some ((news.flatMap fun r => r.parts.map fun p => (r, p)).foldl (fun (s : State) x =>
    s.lookUp x.1.ctx x.1.core x.2.va fun l => l.allows (match x.1.kind with | .load | .ldfe _ => .read | .atomic => .atomic | _ => .write))
    { s with looked := s.seq })

/-! ### Scrubbing (R435) -/

/-- The line the scrubber reads k-th: the lines of HBM, then those of the slices. -/
def scrubLine (k : Nat) : Nat :=
  let per := stackBytes / 64
  if k < 16 * per then k / per * 2 ^ 30 + k % per else 2 ^ 42 + (k - 16 * per)

/-- SCRUB: the patrol scrubber reads its next line (R435). -/
def eventScrub (s : State) : State :=
  let line := scrubLine s.dev.scrub
  let s1 := if SMap.get false s.mem.poison line then s else s.meetLine line 3 none
  { s1 with dev := { s1.dev with scrub := (s.dev.scrub + 1) % (16 * (stackBytes / 64) + 1152 * 2 ^ 14) } }

end Sys2Proof.Machine
end

