-- ==== Sys2Proof/Machine/Trees.lean ====
section
/-! DEFINITION. Importance trees (R222 to R227, R402 to R407): TDRAW, TUPD, TINS, TCOMMIT and TVER, the tree engine's service of requests,
and TBUILD and TDROP. -/
namespace Sys2Proof.Machine
open Sys2Proof Host

/-! ### Configuration and shape (R402, R403) -/

def Tree.seed (t : Tree) : Nat := t.f 448 64
def Tree.beta (t : Tree) : Nat := t.f 160 32

/-- Whether a configuration keeps the rules of R402. -/
def treeConfigOk (c : BitVec 512) : Bool :=
  let f (lo n : Nat) : Nat := (c.extractLsb' lo n).toNat
  f 0 104 == 0 && f 107 5 == 0 && 1 ≤ f 112 16 && f 384 6 == 0 && f 320 6 == 0 && f 256 6 == 0 && f 192 6 == 0
    && finite32 (f 160 32) && (f 160 32 < 2 ^ 31 || f 160 32 == 2 ^ 31)

/-- A built tree that requests may name: READY or FAILED (R404). -/
def State.tree (s : State) (ctx n : Nat) : Option Tree :=
  match SMap.find? (s.ctx ctx).trees n with | some t => if t.st = 0 then none else some t | none => none
/-- A write of a tree engine for tree n, which leaves what it holds of that tree's arrays good (R405). -/
def State.treeWrite (s : State) (ctx n : Nat) (ws : List (Nat × Byte × Bool)) : State :=
  let s1 := s.performWrite ws
  { s1 with spoiled := s.spoiled ++ (s1.spoiled.drop s.spoiled.length).filter fun k => k != (ctx, n) }
def State.setTree (s : State) (ctx n : Nat) (t : Tree) : State := s.updCtx ctx fun c => { c with trees := SMap.put c.trees n t }
def State.updTree (s : State) (ctx n : Nat) (f : Tree → Tree) : State :=
  match SMap.find? (s.ctx ctx).trees n with | some t => s.setTree ctx n (f t) | none => s

/-! ### Words of the arrays (R403, R406) -/

/-- n bytes of an array with the poison of its line; or the fault. -/
def State.treeWord (s : State) (ctx va n : Nat) : Except (Cause × Nat) (Nat × Bool) :=
  match s.plainParts ctx .read va n with | .error e => .error e | .ok ps => .ok (s.readParts ps)
/-- A leaf's word. -/
def State.leafWord (s : State) (ctx : Nat) (t : Tree) (i : Nat) : Except (Cause × Nat) (Nat × Bool) := s.treeWord ctx (t.f 384 64 + 8 * i) 8
/-- The sum at a heap position: a node's, a leaf's priority, 0 for padding. -/
def State.nodeSum (s : State) (ctx : Nat) (t : Tree) (k : Nat) : Except (Cause × Nat) (Nat × Bool) :=
  if k < 2 ^ t.depth then s.treeWord ctx (t.f 320 64 + 8 * k) 8
  else if k - 2 ^ t.depth < t.leaves then (s.leafWord ctx t (k - 2 ^ t.depth)).map fun x => (x.1 % 2 ^ 32, x.2)
  else .ok (0, false)
/-- The smallest nonzero priority at a heap position, 0 for none. -/
def State.nodeMin (s : State) (ctx : Nat) (t : Tree) (k : Nat) : Except (Cause × Nat) (Nat × Bool) :=
  if k < 2 ^ t.depth then s.treeWord ctx (t.f 256 64 + 4 * k) 4 else s.nodeSum ctx t k

/-- The smaller of two minima, 0 standing for none. -/
def minNonzero (a b : Nat) : Nat := if a = 0 then b else if b = 0 then a else min a b

/-! ### Draws (R223) -/

/-- The way down from a position: the leaf's heap position, and whether a poisoned line was read; fuel is the depth. -/
def State.descend (s : State) (ctx : Nat) (t : Tree) : Nat → Nat → Nat → Except (Cause × Nat) (Nat × Bool)
  | 0, node, _ => .ok (node, false)
  | fuel + 1, node, x =>
    match s.nodeSum ctx t (2 * node) with
    | .error e => .error e
    | .ok (l, z) =>
      match (if x < l then s.descend ctx t fuel (2 * node) x else s.descend ctx t fuel (2 * node + 1) (x - l)) with
      | .error e => .error e
      | .ok (n, w) => .ok (n, z || w)

/-- Whether y is q to the power β exactly, for β = a / 2^k with small a and k: the only ones an FP32 value can be exact for, q ≠ 1. -/
def exactPower (q b : Rat) (y : Rat) : Bool :=
  decide (b.num.natAbs ≤ 149 ∧ b.den ≤ 32) && y ^ b.den == q ^ b.num.natAbs

/-- (P_min / P_leaf)^β (R223): exact for β = 0, correctly rounded for ½ and 1, faithful for others. -/
def treeWeight (pmin pleaf beta : Nat) : Nat :=
  let q : Rat := (pmin : Rat) / pleaf
  let b := q32 beta
  if b = 0 ∨ q = 1 then 0x3F800000
  else if b = 1 then (roundTo .fp32 .rne (.num q)).1
  else if b = 1 / 2 then
    let r := sqrtIv 200 q
    (roundTo .fp32 .rne (.num ((r.lo + r.hi) / 2))).1
  else
    let iv (p : Nat) : Iv :=
      let t := (Iv.point b).mul (log2Iv p q)
      if t.hi < -200 then ⟨pow2 (-400), pow2 (-199)⟩ else ⟨(exp2Iv p t.lo).lo, (exp2Iv p t.hi).hi⟩
    let near := (roundTo .fp32 .rne (FVal.ofRat (iv 400).lo)).1
    if exactPower q b (q32 near) then near
    else (faithful (16 + pmin * 2 ^ 32 + pleaf) (BitVec.ofNat 32 beta) iv precisions).1

/-- x of R223, before its limit: operands KEYED, vA, i and B. -/
def drawX (t : Tree) (keyed : Bool) (a i b sum : Nat) : Nat :=
  if keyed then
    let u := ((keyedMix (BitVec.ofNat 64 t.seed) (BitVec.ofNat 64 (t.v * 2 ^ 32 + a))).extractLsb' 0 64).toNat
    (i * 2 ^ 64 + u) * sum / (b * 2 ^ 64)
  else match f32 a with
    | .inf false => sum
    | .num q => if q < 0 then i * sum / b else (((i : Rat) + q) * sum / b).floor.toNat
    | _ => i * sum / b

/-- The five words of a draw, and whether a poisoned line was read; or the fault (R223). -/
def State.drawWords (s : State) (ctx : Nat) (t : Tree) (r : TreeReq) : Except (Cause × Nat) (List Nat × Bool) :=
  let a (k : Nat) : Nat := r.args.getD k 0
  if a 2 = 1 ∧ a 6 ≠ t.v then .ok ([2 ^ 32 - 1, 2 ^ 16, 0, 0, t.v], false)
  else match s.nodeSum ctx t 1 with
    | .error e => .error e
    | .ok (sum, z) =>
      if sum = 0 then .ok ([2 ^ 32 - 1, 2 * 2 ^ 16, 0, 0, t.v], z)
      else
        let x := min (drawX t (a 1 == 1) (a 3) (a 4) (a 5) sum) (sum - 1)
        match s.descend ctx t t.depth 1 x, s.nodeMin ctx t 1 with
        | .error e, _ => .error e
        | _, .error e => .error e
        | .ok (node, w), .ok (pmin, y) =>
          match if node - 2 ^ t.depth < t.leaves then s.leafWord ctx t (node - 2 ^ t.depth) else .ok (0, false) with
          | .error e => .error e
          | .ok (leaf, v) =>
            let p : Nat := leaf % 2 ^ 32
            .ok ([node - 2 ^ t.depth, leaf / 2 ^ 32 % 2 ^ 16, (roundTo .fp32 .rne (FVal.ofRat ((p : Rat) / sum))).1,
                  if p = 0 then 0 else treeWeight pmin p t.beta, t.v], z || w || y || v)

/-! ### Service at the engine -/

/-- Where the sum and the minimum at a heap position lie: address and bytes. -/
def Tree.wordsAt (t : Tree) (k : Nat) : List (Nat × Nat) :=
  if k < 2 ^ t.depth then [(t.f 320 64 + 8 * k, 8), (t.f 256 64 + 4 * k, 4)]
  else if k - 2 ^ t.depth < t.leaves then [(t.f 384 64 + 8 * (k - 2 ^ t.depth), 8)] else []

/-- The nodes above a leaf, the lowest first. -/
def ancestors (node : Nat) : Nat → List Nat
  | 0 => []
  | fuel + 1 => if node ≤ 1 then [] else node / 2 :: ancestors (node / 2) fuel

/-- Reads of a tree's arrays at heap positions meet their lines (R427, R431). -/
def State.meetNodes (s : State) (ctx : Nat) (t : Tree) (ks : List Nat) : State :=
  if s.mem.latent.isEmpty then s
  else (ks.flatMap t.wordsAt).foldl (fun s w => s.meetVa (homeAgent ctx) w.1 w.2) s

/-- The heap positions a request reads. -/
def State.treeReads (s : State) (t : Tree) (r : TreeReq) : List Nat :=
  match r.kind with
  | 0 => match s.drawWords r.ctx t r with
    | .ok (leaf :: _, _) => 1 :: (2 ^ t.depth + leaf) :: (ancestors (2 ^ t.depth + leaf) (t.depth + 1)).map (2 * ·)
    | _ => [1]
  | 2 => [2 ^ t.depth + r.args.getD 0 0]
  | 3 => t.staged.flatMap fun w =>
      let leaf := 2 ^ t.depth + w.args.getD 0 0
      leaf :: (ancestors leaf (t.depth + 1)).flatMap fun k => [2 * k, 2 * k + 1]
  | _ => [1]

/-- The words of a request go on their way to its thread's registers, or to s registers: free values where another agent has stored to
the tree's arrays or staging area (R405). -/
def State.treeAnswer (s : State) (r : TreeReq) (ws : List Nat) (poison : Bool) : State :=
  let bad := s.spoiled.contains (r.ctx, r.tree)
  let (x, s) := if bad then s.draw else (0, s)
  let ws := if bad then (List.range ws.length).map fun k => (x.extractLsb' (32 * k) 32).toNat else ws
  let poison := if bad then x.getLsbD 511 else poison
  let vals := ws.map fun w => (⟨BitVec.ofNat 32 w, poison⟩ : RegVal)
  let uni := r.thread == 127
  let x : Result :=
    { id := r.id, gk := r.gk, cls := .engine, mask := if uni then ~~~0 else BitVec.ofNat 96 (2 ^ r.thread), flags := 0
      vw := if uni then [] else vals.zipIdx.map fun w => (128 * (r.dest + w.2) + r.thread, w.1)
      sw := if uni then vals.zipIdx.map fun w => (r.dest + w.2, w.1) else [] }
  { s with results := s.results ++ [x] }

/-- The engine meets a fault in a tree's arrays (R406). -/
def State.treeFailed (s : State) (r : TreeReq) (e : Cause × Nat) : State :=
  (s.updTree r.ctx r.tree fun t => { t with st := 2 }).report 0
    { Rec.empty with kind := 5, ctx := r.ctx, task := r.task, cause := e.1.code, info := r.tree, va := e.2 }

/-- A staged entry's bytes, whose format is private (R405): free values. A request that a TCOMMIT takes in over a full area finds it emptied
(R225). -/
def State.stageBytes (s : State) (ctx n : Nat) (t : Tree) : Except (Cause × Nat) State :=
  match s.plainParts ctx .write (t.f 192 64 + 16 * (t.staged.length % t.cap)) 16 with
  | .error e => .error e
  | .ok ps => let (x, s1) := s.draw; .ok (s1.treeWrite ctx n (partBytes false ps (x.toNat % 2 ^ 128)))

/-- A TUPD or TINS enters the staging area (R224). -/
def State.stageReq (s : State) (t : Tree) (r : TreeReq) : State :=
  match s.stageBytes r.ctx r.tree t with
  | .error e => let s1 := s.treeFailed r e; if r.kind = 2 then s1.treeAnswer r [0] false else s1
  | .ok s1 =>
    match if r.kind = 2 then s.leafWord r.ctx t (r.args.getD 0 0) else .ok (0, false) with
    | .error e => (s1.treeFailed r e).treeAnswer r [0] false
    | .ok (leaf, z) =>
      let s2 := s1.setTree r.ctx r.tree { t with staged := t.staged ++ [r] }
      if r.kind = 2 then s2.treeAnswer r [(leaf / 2 ^ 32 % 2 ^ 16 + 1) % 2 ^ 16] z else s2

/-- A word of an array of tree `tree` is written. -/
def State.putTree (s : State) (ctx tree va n x : Nat) (poison : Bool) : Except (Cause × Nat) State :=
  match s.plainParts ctx .write va n with | .error e => .error e | .ok ps => .ok (s.treeWrite ctx tree (partBytes poison ps x))

/-- The sum and the minimum at a heap position, each with its poison. -/
structure NodeVal where
  sum : Nat × Bool
  least : Nat × Bool
  deriving DecidableEq, Repr
/-- A node's from its children's (R403). -/
def NodeVal.join (l r : NodeVal) : NodeVal :=
  ⟨(l.sum.1 + r.sum.1, l.sum.2 || r.sum.2), (minNonzero l.least.1 r.least.1, l.least.2 || r.least.2)⟩

/-- A node is written. -/
def State.putNode (s : State) (ctx n : Nat) (t : Tree) (k : Nat) (v : NodeVal) : Except (Cause × Nat) State := do
  let s1 ← s.putTree ctx n (t.f 320 64 + 8 * k) 8 v.sum.1 v.sum.2
  s1.putTree ctx n (t.f 256 64 + 4 * k) 4 v.least.1 v.least.2

/-- A node's sum and minimum recomputed from its children as the arrays hold them. -/
def State.renode (s : State) (ctx n : Nat) (t : Tree) (k : Nat) : Except (Cause × Nat) State := do
  let l ← s.nodeSum ctx t (2 * k); let r ← s.nodeSum ctx t (2 * k + 1)
  let lm ← s.nodeMin ctx t (2 * k); let rm ← s.nodeMin ctx t (2 * k + 1)
  s.putNode ctx n t k (NodeVal.join ⟨l, lm⟩ ⟨r, rm⟩)

/-- What decides among requests for a leaf: the key (R55); among equal keys of different tasks the TASK, then the priority, so that no arrival
order shows (R407; DESIGN CHOICE, log entry 103). -/
def TreeReq.rank (r : TreeReq) : Nat := (r.key * 2 ^ 32 + r.task) * 2 ^ 32 + r.args.getD (if r.kind = 2 then 1 else 2) 0

/-- The new word of a leaf by its staged requests, and how many were discarded (R225). -/
def commitLeaf (old : Nat) (rs : List TreeReq) : Nat × Nat :=
  let tag0 := old / 2 ^ 32 % 2 ^ 16
  let tag := if rs.any fun r => r.kind == 2 then (tag0 + 1) % 2 ^ 16 else tag0
  let wins (r : TreeReq) : Bool := r.kind == 2 || r.args.getD 1 0 == tag
  let best := (rs.filter wins).foldl (fun (b : Option TreeReq) r => match b with | none => some r | some x => if x.rank ≤ r.rank then some r else some x) none
  let prio := match best with | some r => (if r.kind = 2 then r.args.getD 1 0 else r.args.getD 2 0) | none => old % 2 ^ 32
  (prio % 2 ^ 32 + tag * 2 ^ 32, (rs.filter fun r => !wins r).length)

/-- A commit's changes of the arrays (R225): the state and the requests discarded. -/
def State.commitLeaves (s : State) (ctx n : Nat) (t : Tree) (rs : List TreeReq) : Except (Cause × Nat) (Nat × State) :=
  ((rs.map fun r => r.args.getD 0 0).eraseDups).foldlM (fun (acc : Nat × State) i => do
    let old ← acc.2.leafWord ctx t i
    let (new, lost) := commitLeaf old.1 (rs.filter fun r => r.args.getD 0 0 == i)
    let s1 ← acc.2.putTree ctx n (t.f 384 64 + 8 * i) 8 new old.2
    let s2 ← (ancestors (2 ^ t.depth + i) (t.depth + 1)).foldlM (fun s k => s.renode ctx n t k) s1
    pure (acc.1 + lost, s2)) (0, s)

/-- A request that reads, other than TCOMMIT (R223, R226, R406). -/
def State.treeRead (s : State) (t : Tree) (r : TreeReq) : State :=
  if r.kind = 0 then
    if t.st = 2 then s.treeAnswer r [2 ^ 32 - 1, 3 * 2 ^ 16, 0, 0, t.v] false
    else match s.drawWords r.ctx t r with
      | .ok (ws, z) => s.treeAnswer r ws z
      | .error e => (s.treeFailed r e).treeAnswer r [2 ^ 32 - 1, 3 * 2 ^ 16, 0, 0, t.v] false
  else
    let word (x : Except (Cause × Nat) (Nat × Bool)) (f : Nat → Nat) : State :=
      match x with
      | .ok y => s.treeAnswer r [f y.1] y.2
      | .error e => let (v, s1) := (s.treeFailed r e).draw; s1.treeAnswer r [v.toNat % 2 ^ 32] false
    match r.args.getD 0 0 with
    | 0 => s.treeAnswer r [t.v] false
    | 1 => s.treeAnswer r [t.disc] false
    | 2 => word (s.nodeSum r.ctx t 1) (· % 2 ^ 32)
    | 3 => word (s.nodeSum r.ctx t 1) (· / 2 ^ 32)
    | 4 => word (s.nodeMin r.ctx t 1) id
    | _ => s.treeAnswer r [t.staged.length] false

/-- A request acts at the engine, in its serial order (R222); TCOMMIT is apart. A tree dropped since the request issued leaves its
destinations at free values. -/
def State.treeAct (s : State) (r : TreeReq) : State :=
  match s.tree r.ctx r.tree with
  | none =>
    let (x, s1) := s.draw
    let n := match r.kind with | 0 => 5 | 1 => 0 | _ => 1
    if n = 0 then s1 else s1.treeAnswer r ((List.range n).map fun k => (x.extractLsb' (32 * k) 32).toNat) false
  | some t =>
    let s := if t.st = 2 then s else s.meetNodes r.ctx t (s.treeReads t r)
    if r.kind = 1 ∨ r.kind = 2 then
      if t.st = 2 then (if r.kind = 2 then s.treeAnswer r [0] false else s) else s.stageReq t r
    else s.treeRead t r

/-- A request waiting at the engine's input when a TCOMMIT takes it in through the area, emptied of its `old` requests and emptied again
whenever it is full and another comes (R225): STAGED counts those now in it. -/
def State.treeEnter (s : State) (old : Nat) (w : TreeReq) : State :=
  match s.tree w.ctx w.tree with
  | some t =>
    if w.kind = 4 ∧ w.args.getD 0 0 = 5 ∧ t.st ≠ 2 then
      let k := t.staged.length - old
      s.treeAnswer w [if k = 0 then 0 else (k - 1) % t.cap + 1] false
    else s.treeAct w
  | none => s.treeAct w

/-- TCOMMIT at the engine (R225, R406): everything that reached the engine before it is applied in one step. -/
def State.treeCommit (s : State) (r : TreeReq) : State :=
  match s.tree r.ctx r.tree with
  | none => s.treeAct r
  | some t =>
    if t.st = 2 then s.treeAnswer r [t.v] false
    else
      let s1 := t.waiting.foldl (fun s w => s.treeEnter t.staged.length w) (s.setTree r.ctx r.tree { t with waiting := [] })
      match s1.tree r.ctx r.tree with
      | none => s1
      | some t1 =>
        if t1.st = 2 then s1.treeAnswer r [t1.v] false
        else
          let s1 := s1.meetNodes r.ctx t1 (s1.treeReads t1 r)
          match s1.commitLeaves r.ctx r.tree t1 t1.staged with
          | .error e => ((s1.updTree r.ctx r.tree fun t => { t with staged := [] }).treeFailed r e).treeAnswer r [t1.v] false
          | .ok (lost, s2) =>
            let v := (t1.v + 1) % 2 ^ 32
            (s2.setTree r.ctx r.tree { t1 with staged := [], v := v, disc := min (t1.disc + lost) (2 ^ 32 - 1) }).treeAnswer r [v] false

/-- Whether a request must wait at the engine's input (R224): the area is full for it, or one of its core waits already. -/
def Tree.holds (t : Tree) (r : TreeReq) : Bool :=
  t.waiting.any (fun w => w.core == r.core) || (t.st == 1 && (r.kind == 1 || r.kind == 2) && t.cap ≤ t.staged.length)

/-- The home die of a request's tree. -/
def State.treeDie (s : State) (r : TreeReq) : Nat := match SMap.find? (s.ctx r.ctx).trees r.tree with | some t => t.f 104 3 | none => 0

/-- TREE_REQUEST_ARRIVAL: a request reaches its engine, the requests of one core to a die in issue order (R222), after what its path stored before
(R288); a TCOMMIT, which is a release, after all its path's accesses (R225). -/
def eventTreeRequestArrival (s : State) : State :=
  match s.treeReqs.find? fun r => r.id == s.arg 0 && r.thread == s.arg 1 with
  | none => s
  | some r =>
    let before := s.treeReqs.takeWhile fun x => !(x.id == r.id && x.thread == r.thread)
    let held := if r.kind = 3 then s.unsettled r.gk r.mask r.id else s.uncleared r.gk (if r.thread = 127 then r.mask else BitVec.ofNat 96 (2 ^ r.thread)) r.id
    if held then s
    else if before.any fun x => x.core == r.core && s.treeDie x == s.treeDie r then s
    else
      let s1 := { s with treeReqs := s.treeReqs.erase r }
      match s1.tree r.ctx r.tree with
      | some t => if r.kind = 3 then s1.treeCommit r
                  else if t.holds r then s1.setTree r.ctx r.tree { t with waiting := t.waiting ++ [r] } else s1.treeAct r
      | none => s1.treeAct r

/-- Whether a request finds the staging area full (R224). -/
def Tree.fullFor (t : Tree) (r : TreeReq) : Bool := t.st == 1 && (r.kind == 1 || r.kind == 2) && decide (t.cap ≤ t.staged.length)

/-- TREE_STAGING_ENTER: the first request at a tree's input enters when there is room for it (R224). -/
def eventTreeStagingEnter (s : State) : State :=
  let ctx := s.arg 0; let n := s.arg 1
  match SMap.find? (s.ctx ctx).trees n with
  | none => s
  | some t =>
    match t.waiting with
    | [] => s
    | r :: rest =>
      if t.fullFor r then s
      else (s.setTree ctx n { t with waiting := rest }).treeAct r

/-! ### Issue (R222) -/

/-- A lane tree instruction: a request for each thread whose checks pass, its destinations pending. `args` gives a thread's operands,
`n` the result registers. -/
def issueTree (i : Instr) (kind tree dest n : Nat) (regs : Env → Nat → List RegVal) (bad : Env → Tree → Nat → Bool)
    (args : Env → Nat → List Nat) (s : State) : Outcome State Fault Refusal :=
  issueWith i (fun e =>
    let check (t : Nat) : Option Trap :=
      match e.deferred i t with
      | some tr => some tr
      | none =>
        if (regs e t).any (·.poison) then some (trap .poison)
        else match s.tree e.b.ctx tree with
          | none => some (trap .tree)
          | some x => if bad e x t then some (trap .tree) else none
    let fails : Fails := (threadsOf e.p.mask).filterMap fun t => (check t).map fun x => (t, x, noVa)
    let ts := (threadsOf e.p.mask).filter fun t => (check t).isNone
    let id := s.seq
    let row (t : Nat) : TreeReq :=
      { id := id, kind := kind, gk := e.gk, mask := e.p.mask, core := e.b.core, ctx := e.b.ctx, task := e.b.task, tree := tree, thread := t
        key := packKey e.b.bid e.g.gix t (SMap.get 0 e.g.tseq t).toNat, args := args e t, dest := dest }
    let marks := (List.range n).map fun k => (⟨.v (dest + k), maskOf ts, id, .engine⟩ : Pend)
    let s1 := s.updGrp e.gk fun g =>
      let g := e.seeFails i fails g
      { g with pend := if ts.isEmpty then g.pend else g.pend ++ marks, tseq := if kind = 0 then g.tseq else bumpSeq g.tseq ts }
    .next (e.finish i (e.nextPc i) fails { s1 with seq := s.seq + 1, treeReqs := s1.treeReqs ++ ts.map row })) s

/-- TDRAW (R223). A stratum outside its range traps TREE at issue, whatever the tree's version and sum are when the request is accepted (DESIGN CHOICE: the
pseudocode looks at those first; log entry 129). -/
def execTdraw (stl : BitVec 3) (d a b : BitVec 7) (tree : BitVec 6) (strat keyed vchk : BitVec 1) (s : State) :
    Outcome State Fault Refusal :=
  let n := if strat = 1 then 3 else 1
  let a' (e : Env) (t k : Nat) : RegVal := e.v (e.g.num a + k) t
  match s.env with
  | none => .next s
  | some e0 =>
    issueTree (.tdraw stl d a b tree strat keyed vchk) 0 tree.toNat (e0.g.num d) 5
      (fun e t => (List.range n).map (a' e t) ++ (if vchk = 1 then [e.vec b t] else []))
      (fun e _ t => strat == 1 && ((a' e t 2).val == 0 || decide ((a' e t 2).val.toNat ≤ (a' e t 1).val.toNat)))
      (fun e t => [strat.toNat, keyed.toNat, vchk.toNat, (a' e t 0).val.toNat, if strat = 1 then (a' e t 1).val.toNat else 0,
                   if strat = 1 then (a' e t 2).val.toNat else 1, (e.vec b t).val.toNat]) s

/-- TUPD (R224). -/
def execTupd (stl : BitVec 3) (a : BitVec 7) (tree : BitVec 6) (s : State) : Outcome State Fault Refusal :=
  let a' (e : Env) (t k : Nat) : RegVal := e.v (e.g.num a + k) t
  issueTree (.tupd stl a tree) 1 tree.toNat 0 0 (fun e t => (List.range 3).map (a' e t))
    (fun e x t => decide (x.leaves ≤ (a' e t 0).val.toNat))
    (fun e t => [(a' e t 0).val.toNat, (a' e t 1).val.toNat, (a' e t 2).val.toNat]) s

/-- TINS (R224). -/
def execTins (stl : BitVec 3) (d a : BitVec 7) (tree : BitVec 6) (s : State) : Outcome State Fault Refusal :=
  let a' (e : Env) (t k : Nat) : RegVal := e.v (e.g.num a + k) t
  match s.env with
  | none => .next s
  | some e0 =>
    issueTree (.tins stl d a tree) 2 tree.toNat (e0.g.num d) 1 (fun e t => (List.range 2).map (a' e t))
      (fun e x t => decide (x.leaves ≤ (a' e t 0).val.toNat)) (fun e t => [(a' e t 0).val.toNat, (a' e t 1).val.toNat]) s

/-- A uniform tree request (R225, R226). -/
def Env.treeUniform (e : Env) (kind tree dest : Nat) (args : List Nat) : Except Trap State :=
  match e.s.tree e.b.ctx tree with
  | none => .error (trap .tree)
  | some _ =>
    let r : TreeReq :=
      { id := e.s.seq, kind := kind, gk := e.gk, mask := e.p.mask, core := e.b.core, ctx := e.b.ctx, task := e.b.task, tree := tree, thread := 127, key := 0
        args := args, dest := dest }
    let s1 := e.s.updGrp e.gk fun g => { g with pend := g.pend ++ [⟨.s dest, ~~~0, r.id, .engine⟩] }
    .ok { s1 with seq := s1.seq + 1, treeReqs := s1.treeReqs ++ [r] }

/-- TCOMMIT (R225). -/
def execTcommit (stl : BitVec 3) (d t : BitVec 7) (s : State) : Outcome State Fault Refusal :=
  issueEffect (.tcommit stl d t) (fun e => e.treeUniform 3 t.toNat d.toNat []) s
/-- TVER (R226, R242). -/
def execTver (stl : BitVec 3) (d t x : BitVec 7) (s : State) : Outcome State Fault Refusal :=
  issueEffect (.tver stl d t x) (fun e =>
    if e.b.det && x == 5 then .error (trap .determ) else e.treeUniform 4 t.toNat d.toNat [x.toNat]) s

/-! ### TBUILD and TDROP (R404) -/

/-- A level of nodes from the level below. -/
def joinPairs : List NodeVal → List NodeVal
  | l :: r :: rest => l.join r :: joinPairs rest
  | _ => []

/-- The levels above one, written from the lowest up; fuel is how many there are. -/
def State.buildLevels (s : State) (ctx n : Nat) (t : Tree) : Nat → List NodeVal → Except (Cause × Nat) State
  | 0, _ => .ok s
  | d + 1, vs => do
    let up := joinPairs vs
    let s1 ← up.zipIdx.foldlM (fun (s : State) v => s.putNode ctx n t (2 ^ d + v.2) v.1) s
    s1.buildLevels ctx n t d up

/-- The arrays of a tree built from its leaves (R404): the leaves are read, their reserved bits zeroed, and every sum and minimum written. -/
def State.buildTree (s : State) (ctx n : Nat) (t : Tree) : Except (Cause × Nat) State := do
  let (s1, vs) ← (List.range t.leaves).foldlM (fun (acc : State × List NodeVal) i => do
    let w ← acc.1.leafWord ctx t i
    let p := (w.1 % 2 ^ 32, w.2)
    let s1 ← acc.1.putTree ctx n (t.f 384 64 + 8 * i + 6) 2 0 w.2
    pure (s1, acc.2 ++ [⟨p, p⟩])) (s, [])
  s1.buildLevels ctx n t t.depth (vs ++ List.replicate (2 ^ t.depth - t.leaves) ⟨(0, false), (0, false)⟩)

/-- TBUILD of a tree: none for BADARG, the tree left UNBUILT where a fault was met. -/
def State.treeBuild (s : State) (ctx n : Nat) : Option State × State :=
  let c := s.ctx ctx
  let cfg := BitVec.ofNat 512 (s.tabRange ctx (0x89000 + 64 * n) 64).1
  let waiting := match SMap.find? c.trees n with | some t => t.waiting | none => []
  let t : Tree := { st := 1, cfg := cfg, v := 0, disc := 0, staged := [], waiting := waiting }
  let s := if 64 ≤ n || !treeConfigOk cfg then s else s.meetVa (homeAgent ctx) (t.f 384 64) (8 * t.leaves)
  if 64 ≤ n || !treeConfigOk cfg then (none, s)
  else match s.buildTree ctx n t with
    | .ok s1 => (some { s1.setTree ctx n t with spoiled := s1.spoiled.filter fun k => k != (ctx, n) }, s)
    | .error _ => (none, s.setTree ctx n { t with st := 0 })

/-- TDROP (R404). -/
def State.treeDrop (s : State) (ctx n : Nat) : State := s.updTree ctx n fun t => { t with st := 0, staged := [] }

end Sys2Proof.Machine
end

