-- ==== Sys2Proof/Machine/Commands.lean ====
section
/-! DEFINITION. The command interface (R369): contexts (R366 to R369, R374, R381, R390, R391), tasks (R364), trees (R404), fabric windows
(R413), attestation and recovery (R460, R461). A command acts while it is the one in progress; one that is not changes nothing. -/
namespace Sys2Proof.Machine
open Sys2Proof Host

/-! ### The interface -/

/-- STS (R369): BUSY in bit 63, RESULT in bits 7:0. -/
def Dev.sts (d : Dev) : Nat := (if d.busy.isSome then 2 ^ 63 else 0) + d.result % 256

/-- A command ends with a RESULT: 0 OK, 1 BADCTX, 2 BADSTATE, 3 BADARG. -/
def State.cmdDone (s : State) (r : Nat) : State := { s with dev := { s.dev with busy := none, result := r } }
/-- A command has begun what takes time. -/
def State.cmdBegun (s : State) : State := { s with dev := { s.dev with busy := s.dev.busy.map fun (b : Nat × Nat × Bool) => (b.1, b.2.1, true) } }
/-- The context of the command in progress, if it has the code and has begun, or not. -/
def State.cmdCtx (s : State) (code : Nat) (begun : Bool) : Option Nat :=
  match s.dev.busy with
  | some (c, x, b) => if c == code && b == begun then some x else none
  | none => none

/-- A command for a context: BADSTATE before READY, in Axolotl mode and in the fatal state (R457, R459, R462). -/
def State.onCommand (s : State) (code : Nat) (f : Nat → State) : State :=
  match s.cmdCtx code false with
  | none => s
  | some ctx => if !s.dev.ready || s.fatal then s.cmdDone 2 else f ctx
/-- A command for a valid context, else BADCTX. -/
def State.onContext (s : State) (code : Nat) (f : Nat → State) : State :=
  s.onCommand code fun ctx => if (s.ctx ctx).valid then f ctx else s.cmdDone 1
/-- What a command that has begun does for its context. -/
def State.onBegun (s : State) (code : Nat) (f : Nat → State) : State := match s.cmdCtx code true with | some ctx => f ctx | none => s

/-! ### CREATE, DESTROY, INVAL -/

/-- The rules CREATE checks (R367, R369, R391). -/
def Ctx.createOk (c : Ctx) : Bool :=
  let va (x : Nat) : Bool := decide (x < 2 ^ 56)
  let hbm (x n : Nat) : Bool := (hbmLinear x).isSome && (hbmLinear (x + n - 1)).isSome && pagePopulated x n
  va c.evbase && c.evbase % 64 == 0 && decide (4 ≤ c.evlog2 ∧ c.evlog2 ≤ 16)
    && va c.savebase && c.savebase % 2 ^ 22 == 0 && decide (1 ≤ c.savesz)
    && c.ptroot % 65536 == 0 && hbm c.ptroot 65536
    && va c.tcbbase && c.tcbbase % 256 == 0 && decide (1 ≤ c.tcbcnt ∧ c.tcbcnt ≤ 65536)
    && (c.desc.extractLsb' 512 48) != 0 && decide (1 ≤ c.weight)
    && c.tabbase % 2 ^ 20 == 0 && hbm c.tabbase (2 ^ 20) && decide ((c.tab.extractLsb' 51 13).toNat ≤ 4096)

/-- CREATE (R369). -/
def eventCreate (s : State) : State :=
  s.onCommand 1 fun ctx =>
    let c := s.ctx ctx
    if c.valid then s.cmdDone 1
    else if !c.createOk then s.cmdDone 3
    else (s.updCtx ctx fun c => (((c.setField 992 32 0).setField 960 32 0).setField 944 16 0).setField 0 1 1).cmdDone 0

/-- DESTROY (R369): every task is cancelled; the rest waits for DESTROY_COMPLETE. -/
def eventDestroy (s : State) : State :=
  s.onContext 2 fun ctx =>
    ((List.range (s.ctx ctx).tcbcnt).foldl (fun s i => s.cancel ctx i) s).cmdBegun

/-- The windows of a context. -/
def State.windowsOf (s : State) (ctx : Nat) : List (Nat × Window) := s.windows.filter fun (e : Nat × Window) => e.2.ctx == ctx

/-- DESTROY_COMPLETE: no block and no frame is left, and the windows are free (R369, R413). -/
def eventDestroyComplete (s : State) : State :=
  s.onBegun 2 fun ctx =>
    let c := s.ctx ctx
    if s.blocks.any (fun (e : Nat × Blk) => e.2.ctx == ctx) || !c.frames.isEmpty || (s.windowsOf ctx).any (fun e => e.2.issued != e.2.acked) then s
    else
      let s1 := { s with
        tlb := s.tlb.filter fun e => e.ctx != ctx, walks := s.walks.filter fun w => w.ctx != ctx
        windows := s.windows.filter fun (e : Nat × Window) => e.2.ctx != ctx
        treeReqs := s.treeReqs.filter fun r => r.ctx != ctx
        cores := s.cores.map fun (e : Nat × Core) => (e.1, { e.2 with mx := { e.2.mx with handles := e.2.mx.handles.filter fun h => h.ctx != ctx } }) }
      ({ s1 with spoiled := s1.spoiled.filter fun k => k.1 != ctx }.updCtx ctx fun c => { (c.setField 0 2 0) with trees := [], netCopies := [] }).cmdDone 0

/-- INVAL (R374). -/
def eventInval (s : State) : State := s.onContext 3 fun _ => s.cmdBegun

/-- INVAL_COMPLETE (R374): once every walk of the context has finished; every entry of the context that overlaps the range is gone from every
TLB and walker cache. -/
def eventInvalComplete (s : State) : State :=
  s.onBegun 3 fun ctx =>
    let lo := (s.dev.carg 0).toNat; let n := (s.dev.carg 1).toNat
    if s.walks.any fun w => w.ctx == ctx then s
    else { s with tlb := s.tlb.filter fun e => !(e.ctx == ctx && decide (e.va < lo + n ∧ lo < e.va + 2 ^ e.log2)) }.cmdDone 0

/-! ### SUSPEND and RESUME (R381) -/

/-- SUSPEND: its groups are evicted one by one from now on. -/
def eventSuspend (s : State) : State := s.onContext 4 fun ctx => if (s.ctx ctx).susp then s.cmdDone 2 else s.cmdBegun

/-- A write of a SUSPEND to a block's frame fails: the live paths of its groups trap SPILL_FAULT once (R370; log entry 20); the command goes on
trying. -/
def State.saveOnce (s : State) (bk : Nat) : State :=
  match s.blk bk with
  | none => s
  | some b =>
    if (SMap.find? b.images (2 ^ 22)).isSome then s
    else (s.saveFailed ((s.groupsOf bk).map (·.1))).updBlk bk fun b => { b with images := SMap.put b.images (2 ^ 22) 0 }

/-- GROUP_EVICT [group]: a group of a context that is being suspended leaves its core after the waits of R31 (R379, R381). -/
def eventGroupEvict (s : State) : State :=
  let gk := s.arg 0
  match s.grp gk with
  | none => s
  | some g => match s.blk g.blk with
    | none => s
    | some b => if g.resident && s.suspending b.ctx then (if g.settled then (match s.evictGroup s.seq gk with | some s1 => s1 | none => s.saveOnce g.blk) else s) else s

/-- Where the footprint's image lies in the frame (R370). -/
def State.imageVA (s : State) (b : Blk) : Nat := (s.ctx b.ctx).savebase + b.frame * 2 ^ 22 + 0x200000

/-- The addresses of resolved parts, one by one. -/
def homesOf (ps : List Part) : List Nat := ps.flatMap fun p => (List.range p.len).map (· + p.home)

/-- The tags of a footprint, a bit a granule. -/
def State.tagBits (s : State) (pa n : Nat) : Nat := (List.range (n / 16)).foldr (fun i x => (s.mem.full (pa + 16 * i)).toNat + 2 * x) 0

/-- The lease and the claim of a block that is being suspended are kept for it, and its tiles go to its frame (R189, R370, R381): another block may
have the lease meanwhile (DESIGN CHOICE, log entry 98). -/
def State.leaseOut (s : State) (bk : Nat) (b : Blk) : State :=
  let m := s.mx b.core
  let held := m.holder == some bk
  let s1 := if m.prev == some bk then s.tilesOut b.core else s
  let s2 := s1.updBlk bk fun b => { b with leaseKept := if held then some (m.budget, m.drain) else none, claimKept := m.claim == some bk }
  s2.updMx b.core fun m =>
    { m with holder := if held then none else m.holder, drain := if held then false else m.drain, freeAt := if held then s.clock else m.freeAt
             claim := if m.claim == some bk then none else m.claim }

/-- The lease and the claim come back, with the tiles (R381). -/
def State.leaseIn (s : State) (bk : Nat) : State :=
  match s.blk bk with
  | none => s
  | some b =>
    let s1 := match b.leaseKept with
      | some (n, d) => (s.handOver b.core bk).updMx b.core fun m => { m with holder := some bk, budget := n, drain := d }
      | none => s
    (s1.updMx b.core fun m => { m with claim := if b.claimKept && m.claim.isNone then some bk else m.claim }).updBlk bk fun b =>
      { b with leaseKept := none, claimKept := false }

/-- A block's slots, lease, tiles and block state, footprint and tags go to its frame (R370, R381); none where the frame cannot be written. A
retained footprint, whose block has no frame any more, keeps its place (R253, R269; DESIGN CHOICE, log entry 99). -/
def State.saveBlock (s : State) (bk : Nat) (b : Blk) : Option State :=
  if b.retained then some s
  else
    let pa := slicePA b.core b.fbase
    let s := s.leaseOut bk b
    match s.frameParts (b.saver bk) .write (s.imageVA b) b.fsize, s.saveOpen bk 0x1A0000 0x60000 with
    | some ps, some s1 =>
      let ws := (homesOf ps).zipIdx.map fun h => (h.1, s.mem.byte (pa + h.2), s.mem.poisoned (pa + h.2))
      match (s1.frameWrite (b.saver bk) (s.imageVA b + 0x100000) (b.fsize / 128) (s.tagBits pa b.fsize)).bind fun s2 => s2.saveOpen bk 0x160000 0x40000 with
      | none => none
      | some s2 =>
        let s3 := s2.performWrite ws
        let s4 := s3.updMx b.core fun m => { m with slots := m.slots.map fun (e : Nat × MSlot) => (e.1, if e.1 / 16 == bk && e.2.st == 2 then { e.2 with st := 4 } else e.2) }
        some (s4.updBlk bk fun b => { b with suspended := true, evicted := true })
    | _, _ => none

/-- Blocks saved one after another, those that can be; whether all were. -/
def State.saveBlocks (s : State) (l : List (Nat × Blk)) : Bool × State :=
  l.foldl (fun (x : Bool × State) e =>
    if e.2.suspended then x else match x.2.saveBlock e.1 e.2 with | some s1 => (x.1, s1) | none => (false, x.2.saveOnce e.1)) (true, s)

/-- The blocks of a context that hold a footprint. -/
def State.ctxBlocks (s : State) (ctx : Nat) : List (Nat × Blk) := s.blocks.filter fun (e : Nat × Blk) => e.2.ctx == ctx

/-- Whether everything of a context that must complete before it is saved has (R381). -/
def State.quiet (s : State) (ctx : Nat) : Bool :=
  let bs := s.ctxBlocks ctx
  let mine (bk : Nat) : Bool := bs.any fun e => e.1 == bk
  let waits (r : MemReq) : Bool := match r.kind with | .ldfe _ | .stfe _ => r.queued.isNone && !r.out | .fence _ | .acquire => true | _ => false
  s.groups.all (fun (e : Nat × Grp) => !(mine e.2.blk && e.2.resident)) && s.reqs.all (fun r => r.ctx != ctx || waits r)
    && s.ecmds.all (fun (c : EngCmd) => !mine c.bk) && s.bars.isEmpty && s.films.all (fun r => !(r.ctx == ctx && r.place == 0))
    && bs.all fun e => (s.mx e.2.core).cmds.all (fun c => c.bk != e.1) && (s.mx e.2.core).tiles.all fun t => t.rows.all fun r => r.gk / 16 != e.1

/-- SUSPEND_COMPLETE: every group is out and every block saved; the footprints are free and SUSP is set (R381). -/
def eventSuspendComplete (s : State) : State :=
  s.onBegun 4 fun ctx =>
    if !s.quiet ctx then s
    else match s.saveBlocks (s.ctxBlocks ctx) with
      | (false, s1) => s1
      | (true, s1) => (s1.updCtx ctx fun c => c.setField 1 1 1).cmdDone 0

/-- Counters and named barriers of a block whose frame a program has written hold unspecified values (R370). -/
def State.openBlock (s : State) (bk : Nat) : State :=
  let w (i : Nat) : BitVec 512 := Config.freeValue (s.free + i)
  let bar (i : Nat) : Named :=
    let c := (w i).toNat / 2 ^ 64 % 16 + 1
    ⟨c, (w i).toNat / 2 ^ 128 % c, (w i).getLsbD 200⟩
  { s.updBlk bk fun b => { b with
      counters := (List.range 16).map fun i => (i, (w i).extractLsb' 0 32), named := (List.range 16).map fun i => (i, bar i) } with free := s.free + 16 }

/-- A suspended block's footprint, tags, block state, lease and groups come back (R380, R381). -/
def State.restoreBlock (s : State) (bk : Nat) (b : Blk) : State :=
  let pa := slicePA b.core b.fbase
  let back := s.setBlk bk { b with suspended := false }
  let read := (back.frameRead (b.saver bk) (s.imageVA b + 0x100000) (b.fsize / 128)).bind fun r => (r.2.2.openBack bk 0x1A0000 0x60000).map fun k => (r.1, k)
  match s.frameParts (b.saver bk) .read (s.imageVA b) b.fsize, read with
  | some ps, some (tags, kept, s1) =>
    let ws := (homesOf ps).zipIdx.map fun h => (pa + h.2, s.mem.byte h.1, s.mem.poisoned h.1)
    let s2 := (if kept then s1 else s1.openBlock bk).performWrite ws
    let m := (List.range (b.fsize / 16)).foldl (fun (m : Memory) i => m.setTag (pa + 16 * i) (tags.testBit i)) s2.mem
    ((s.groupsOf bk).filter fun e => e.2.alive != 0).foldl (fun s e => s.returnGroup e.1) ({ s2 with mem := m }.leaseIn bk)
  | _, _ => match (s.groupsOf bk).head? with
    | some (_, g) => back.restoreFault g b (s.imageVA b)
    | none => back

/-- The suspended blocks that come back together: a block, or a cluster task's members (R381). -/
def State.together (s : State) (b : Blk) : List (Nat × Blk) :=
  s.blocks.filter fun (e : Nat × Blk) => e.2.suspended && e.2.ctx == b.ctx && e.2.task == b.task
    && (if b.clsz = 0 then e.2.bid == b.bid else e.2.bid / b.clsz == b.bid / b.clsz)

/-- Whether a suspended block's core has room for it: its range of the slice, slots and rows, and the lease if it held it. -/
def State.roomFor (s : State) (b : Blk) : Bool :=
  s.rangeFree [b.core] b.fbase b.fsize && (b.leaseKept.isNone || (s.mx b.core).holder.isNone) && (b.retained || decide (b.gpb ≤ s.freeSlots b.core ∧ b.gpb * b.regs + b.xregs ≤ s.freeRows b.core))

/-- RESUME: the blocks that have room come back; SUSP is cleared when all are (R381). -/
def eventResume (s : State) : State :=
  match s.dev.busy with
  | some (5, ctx, begun) =>
    if !s.dev.ready || s.fatal then s.cmdDone 2
    else if !(s.ctx ctx).valid then s.cmdDone 1
    else if !begun && !(s.ctx ctx).susp then s.cmdDone 2
    else
      let out := s.blocks.filter fun (e : Nat × Blk) => e.2.ctx == ctx && e.2.suspended
      if out.isEmpty then (s.updCtx ctx fun c => c.setField 1 1 0).cmdDone 0
      else match out.find? fun e => (s.together e.2).all fun x => s.roomFor x.2 with
        | some e => ((s.together e.2).foldl (fun s x => s.restoreBlock x.1 x.2) s).cmdBegun
        | none => s.cmdBegun
  | _ => s

/-! ### PRESUME, PFAULT, CANCEL (R364, R390, R436) -/

/-- Whether a path's stop carries a STOPTAG. -/
def Path.stoppedBy (tag : Nat) (p : Path) : Bool := match p.wait with | .escalated t => p.st == .stopped && t % 2 ^ 32 == tag | _ => false
/-- Groups of a context on a core with a path so stopped, in the table or spilled. -/
def State.stoppedGroups (s : State) (ctx core tag : Nat) : List (Nat × Grp) :=
  s.groups.filter fun (e : Nat × Grp) =>
    (match s.blk e.2.blk with | some b => b.ctx == ctx && b.core == core | none => false)
      && (e.2.paths.any (Path.stoppedBy tag) || e.2.spilled.any fun x => x.2.stoppedBy tag)

/-- Whether a stop is one of R436. -/
def Path.controlStop (p : Path) : Bool := match p.wait with | .escalated t => decide (controlTag ≤ t) | _ => false

/-- The PC a path resumes at: 0 retry, 1 skip, 2 jump (R390). -/
def State.resumePc (s : State) (ctx mode : Nat) (to' : DWord) (pc : DWord) : DWord :=
  match mode with
  | 0 => pc
  | 1 => pc + (match s.fetch ctx 0 (2 ^ 80) pc with | .ok i => BitVec.ofNat 64 i.length | .error _ => 4)
  | _ => to'

/-- PRESUME (R390). -/
def eventPresume (s : State) : State :=
  s.onContext 6 fun ctx =>
    let tag := (s.dev.carg 1).toNat; let mode := (s.dev.carg 2).toNat
    let gs := s.stoppedGroups ctx (s.dev.carg 0).toNat tag
    if gs.isEmpty then s.cmdDone 2
    else if 3 ≤ mode || (mode == 2 && (match List.find? (fun (e : Nat × Rec) => e.1 % 2 ^ 32 == tag) s.stopRecs with | some e => e.2.count != 1 | none => true))
        || gs.any (fun e => e.2.paths.any (fun p => p.stoppedBy tag && p.controlStop) || e.2.spilled.any fun x => x.2.stoppedBy tag && x.2.controlStop)
    then s.cmdDone 3
    else
      let go (p : Path) : Path := if p.stoppedBy tag then { p with st := .live, wait := .none, pc := s.resumePc ctx mode (s.dev.carg 3) p.pc, dist := [] } else p
      (gs.foldl (fun s e => s.updGrp e.1 fun g => { g with
          paths := g.paths.map go, spilled := g.spilled.map fun (x : Nat × Path) => (x.1, go x.2), progress := 0, issued := false }) s).cmdDone 0

/-- PFAULT (R390): the task the stop's record names ends FAULTED, with that record as its fault. -/
def eventPfault (s : State) : State :=
  s.onContext 7 fun ctx =>
    let tag := (s.dev.carg 1).toNat
    match s.stoppedGroups ctx (s.dev.carg 0).toNat tag with
    | [] => s.cmdDone 2
    | (_, g) :: _ =>
      match s.blk g.blk, List.find? (fun (e : Nat × Rec) => e.1 % 2 ^ 32 == tag) s.stopRecs with
      | some _, some r => (s.fatalFault ctx r.2.task r.2).cmdDone 0
      | some b, none => (s.fatalFault ctx b.task { recOf g b with kind := 1 }).cmdDone 0
      | none, _ => s.cmdDone 2

/-- CANCEL (R364). -/
def eventCancel (s : State) : State :=
  s.onContext 8 fun ctx =>
    if (s.ctx ctx).tcbcnt ≤ (s.dev.carg 0).toNat then s.cmdDone 3 else (s.cancel ctx (s.dev.carg 0).toNat).cmdDone 0

/-! ### TBUILD and TDROP (R404, R405) -/

/-- TBUILD: the configuration is checked; the arrays are written when TBUILD_COMPLETE comes. -/
def eventTbuild (s : State) : State :=
  s.onContext 9 fun ctx =>
    let n := (s.dev.carg 0).toNat
    if 64 ≤ n || !treeConfigOk (BitVec.ofNat 512 (s.tabRange ctx (0x89000 + 64 * n) 64).1) then s.cmdDone 3 else s.cmdBegun

/-- TBUILD_COMPLETE: the tree is READY, or UNBUILT and BADARG after a fault (R404, R405). -/
def eventTbuildComplete (s : State) : State :=
  s.onBegun 9 fun ctx =>
    match s.treeBuild ctx (s.dev.carg 0).toNat with
    | (some s1, _) => s1.cmdDone 0
    | (none, s1) => s1.cmdDone 3

/-- TDROP (R404). -/
def eventTdrop (s : State) : State :=
  s.onContext 10 fun ctx => if 64 ≤ (s.dev.carg 0).toNat then s.cmdDone 3 else (s.treeDrop ctx (s.dev.carg 0).toNat).cmdDone 0

/-! ### Windows (R413) -/

/-- WREG. -/
def eventWreg (s : State) : State :=
  s.onContext 11 fun ctx =>
    let n := (s.dev.carg 0).toNat; let base := (s.dev.carg 1).toNat; let len := (s.dev.carg 2).toNat; let f := (s.dev.carg 3).toNat
    if (SMap.find? s.windows n).isSome then s.cmdDone 2
    else if !s.dev.faben || 256 ≤ n || base % 64 ≠ 0 || len % 64 ≠ 0 || len < 64 || 2 ^ 40 < len || 4 ≤ f then s.cmdDone 3
    else
      let w : Window := { ctx := ctx, base := base, len := len, putok := f % 2 == 1, atomok := f / 2 == 1, issued := 0, acked := 0, deliv := 0 }
      { s with windows := SMap.put s.windows n w }.cmdDone 0

/-- WUNREG. -/
def eventWunreg (s : State) : State :=
  s.onContext 12 fun ctx =>
    match SMap.find? s.windows (s.dev.carg 0).toNat with
    | some w => if w.ctx == ctx then s.cmdBegun else s.cmdDone 2
    | none => s.cmdDone 2

/-- WUNREG_COMPLETE: ACKED = ISSUED, and the number is free. -/
def eventWunregComplete (s : State) : State :=
  s.onBegun 12 fun ctx =>
    let n := (s.dev.carg 0).toNat
    match s.window ctx n with
    | some w => if w.issued == w.acked then { s with windows := SMap.del s.windows n }.cmdDone 0 else s
    | none => s.cmdDone 0

/-! ### ATTEST, RECOVER, RETRY (R460, R461) -/

/-- The body of an attestation report (R461); digests, keys and versions are as Config leaves them. -/
def State.reportBody (s : State) : Nat :=
  let d := s.dev; let k := d.kept
  let nonce := (d.carg 0).toNat + 2 ^ 64 * (d.carg 1).toNat + 2 ^ 128 * (d.carg 2).toNat + 2 ^ 192 * (d.carg 3).toNat
  let mconf := Config.digest 1 ([k.lcs, k.prodmax, k.fusesvn, k.authority, k.vendor] ++ k.sites.flatMap fun (e : Nat × Nat) => [e.1, e.2])
  nonce * 2 ^ 1792 + d.nonce.toNat * 2 ^ 1536 + mconf % 2 ^ 256 * 2 ^ 1280 + d.mimg % 2 ^ 256 * 2 ^ 1024 + Config.identity 1 % 2 ^ 256 * 2 ^ 768
    + Config.identity 0 % 2 ^ 256 * 2 ^ 512 + Config.imageVersion k.image % 2 ^ 32 * 2 ^ 96 + k.fusesvn % 2 ^ 32 * 2 ^ 64
    + Config.identity 2 % 2 ^ 16 * 2 ^ 48 + k.fsc % 256 * 2 ^ 40 + k.lcs % 4 * 2 ^ 38 + d.opened.toNat % 64 * 2 ^ 32 + 0x41545354

/-- The bytes of a number, lowest first. -/
def natBytes : Nat → Nat → List Byte
  | 0, _ => []
  | n + 1, x => BitVec.ofNat 8 x :: natBytes n (x / 256)

/-- ATTEST: the body of the report is taken; it is complete when its signature is (R460, R461). All modes accept it. -/
def eventAttest (s : State) : State :=
  match s.cmdCtx 16 false with
  | some _ => { s with dev := { s.dev with report := natBytes 256 s.reportBody } }.cmdBegun
  | none => s

/-- ATTEST_COMPLETE: the signature stands after the body, and BUSY clears (R461). -/
def eventAttestComplete (s : State) : State :=
  s.onBegun 16 fun _ =>
    let body := s.dev.report.take 256
    { s with dev := { s.dev with report := body ++ natBytes 7856 (Config.signature body) } }.cmdDone 0

/-- The staged image of a length (R460). -/
def Dev.staged (d : Dev) (n : Nat) : List Byte := (List.range n).map fun i => (SMap.get 0 d.staging (i / 8)).extractLsb' (8 * (i % 8)) 8

/-- Whether an image passes the check of stage 3 (R457): 0, or the reason. -/
def imageReason (k : Kept) (image : List Byte) : Nat :=
  if !Config.verifies 3 image (natBytes 32 k.vendor) then 3 else if Config.imageVersion image < k.fusesvn then 4 else 0

/-- RECOVER: in Axolotl mode the staged image is checked (R460). -/
def eventRecover (s : State) : State :=
  match s.cmdCtx 17 false with
  | none => s
  | some _ =>
    let n := (s.dev.carg 0).toNat
    if !s.dev.axolotl || s.fatal then s.cmdDone 2
    else if 2 ^ 19 < n then s.cmdDone 3
    else if imageReason s.dev.kept (s.dev.staged n) ≠ 0 then s.cmdDone 3
    else { s with dev := { s.dev with recovering := s.dev.staged n } }.cmdBegun

/-- RECOVER_COMPLETE: the flash holds the image that was checked, then FSC and LASTRSN are 0 (R460). -/
def eventRecoverComplete (s : State) : State :=
  s.onBegun 17 fun _ =>
    ({ s with dev := { s.dev with kept := { s.dev.kept with image := s.dev.recovering }, wasImage := some s.dev.kept.image } }.persist fun p => { p with fsc := 0, lastrsn := 0 }).cmdDone 0

/-- RETRY: in Axolotl mode FSC becomes 0 (R460). -/
def eventRetry (s : State) : State :=
  match s.cmdCtx 18 false with
  | none => s
  | some _ => if !s.dev.axolotl || s.fatal then s.cmdDone 2 else (s.persist fun p => { p with fsc := 0 }).cmdDone 0

end Sys2Proof.Machine
end

