-- ==== Sys2Proof/Machine/Device.lean ====
section
/-! DEFINITION. What reaches the device from outside: host requests on BAR4 and BAR2 (R352, R411), triggers and the sync output (R417,
R418), ports (R414), errors in storage and control state (R426, R436), reset and boot (R437, R439, R456 to R459), power (R35, R462),
reads that clear and register writes (R18, R166, R367, R368, R391, R410, R417, R432, R441, R443, R444, R449, R460), the test port (R440).
Each event names what it acts on in `State.subject`; one that is not due changes nothing. -/
namespace Sys2Proof.Machine
open Sys2Proof Host

/-- What the host receives: a value and the EP bit. -/
def State.answer (s : State) (x : Nat) (ep : Bool) : State := { s with dev := { s.dev with reply := (x, ep, false) } }
/-- The completion Unsupported Request (R408, R411). -/
def State.unsupported (s : State) : State := { s with dev := { s.dev with reply := (0, false, true) } }
/-- A register the host reads and clears (RC, R18). -/
def State.readClear (s : State) (x : Nat) (clear : State → State) : State := clear (s.answer x false)

/-! ### BAR4 (R411) -/

/-- The parts of a linear-window range, line by line. -/
def lineParts (off n : Nat) : List Part :=
  (linesOf off n).map fun l =>
    let lo := max off (64 * l); let hi := min (off + n) (64 * l + 64)
    ⟨lo, lo, hi - lo, 1, false, false⟩

/-- Whether every byte of a range of the linear window is populated. -/
def linearPopulated (off n : Nat) : Bool := (linesOf off n).all fun l => decide (64 * l < 2 ^ 40) && (hbmLinear (64 * l)).isSome

/-- A host's write performed at its lines; format-block copies of the table entries it rewrites are those of a software entry (R396). -/
def State.hostWrite (s : State) (ws : List (Nat × Byte × Bool)) : State :=
  let lines := (ws.map fun w => w.1 / 64).eraseDups
  let s1 := s.performWrite ws
  { s1 with ctxs := s1.ctxs.map fun (e : Nat × Ctx) => (e.1, if e.2.netCopies.isEmpty then e.2 else e.2.softEntries lines) }

/-- HOST_BAR4_REQUEST [kind, offset, bytes, data, expected, EP]: 0 a read, 1 a write, 2 FetchAdd, 3 Swap, 4 CAS (R408, R411). -/
def eventHostBar4Request (s : State) : State :=
  let kind := s.arg 0; let off := s.arg 1; let n := s.arg 2; let data := s.arg 3; let exp := s.arg 4; let ep := s.arg 5 == 1
  if !s.dev.ready || s.fatal || n = 0 || !linearPopulated off n then (if kind = 1 then s else s.unsupported)
  else match kind with
    | 0 => let (x, z, s1) := s.readHomes none (lineParts off n); s1.answer x z
    | 1 => s.hostWrite (leBytes off ep n data)
    | _ =>
      if (n ≠ 4 ∧ n ≠ 8) ∨ off % n ≠ 0 ∨ 4 < kind then s.unsupported
      else
        let (old, z, s1) := s.readHomes none (lineParts off n)
        let new := (atomicNew (match kind with | 2 => 0 | 3 => 8 | _ => 9) n old (data % 2 ^ (8 * n)) (exp % 2 ^ (8 * n))).1
        (s1.hostWrite (leBytes off (z || ep) n new)).answer old z

/-! ### Arming words (R352) -/

/-- Whether a context and an index name no TCB. -/
def State.noTcb (s : State) (ctx idx : Nat) : Bool := !(s.ctx ctx).valid || decide ((s.ctx ctx).tcbcnt ≤ idx)

/-- A number sign-extended into an operand of some bits. -/
def signed (x : Int) (bits : Nat) : Nat := (x % (2 : Int) ^ bits).toNat

/-- The context and the index of the arming word at a BAR2 offset: (c × 65,536 + i) × 8. -/
def armWord (off : Nat) : Nat × Nat := (off / 2 ^ 19, off / 8 % 65536)

/-- ARMWORD_FETCHADD [offset, bits]: a FetchAdd of −1 (R352); its answer is the DEPCNT its arm finds. -/
def eventArmwordFetchadd (s : State) : State :=
  let (ctx, idx) := armWord (s.arg 0)
  if !s.dev.ready || s.fatal then s.unsupported
  else if s.noTcb ctx idx then (s.ignoreArm ctx).answer 0 false
  else s.armLater ⟨3, 0, 0, ctx, idx, s.arg 1⟩

/-- ARMWORD_IGNORED [offset, bits, kind]: any other request: 0 another AtomicOp, 1 a memory write, 2 a memory read (R352). -/
def eventArmwordIgnored (s : State) : State :=
  let (ctx, idx) := armWord (s.arg 0)
  let dep : Nat := match s.tcb ctx idx with | .ok t => signed t.depcnt.toInt (s.arg 1) | .error _ => 0
  if !s.dev.ready || s.fatal then s.unsupported
  else if s.noTcb ctx idx then (if s.arg 2 = 1 then s.ignoreArm ctx else (s.ignoreArm ctx).answer 0 false)
  else match s.arg 2 with
    | 0 => if s.arg 1 = 128 then s.unsupported else (s.ignoreArm ctx).answer dep false
    | 1 => s.ignoreArm ctx
    | _ => s.answer dep false

/-! ### Triggers and the sync output (R417, R418) -/

def Ctx.bind (c : Ctx) (input : Nat) : DWord := SMap.get 0 c.binds input

/-- A recognised edge arms the bound TCB of one context whose binding has EN = 1 (R417). -/
def State.edgeFor (s : State) (input : Nat) (rising : Bool) (ctx : Nat) : State :=
  let b := (s.ctx ctx).bind input
  if !b.getLsbD 32 || b.getLsbD 33 == rising then s
  else
    let b1 := (b &&& 0x0000FFFFFFFFFFFF) ||| ((b >>> 48) + 1) <<< 48
    (s.updCtx ctx fun c => { c with binds := SMap.set 0 c.binds input b1 }).armLater ⟨2, 64 * input + ctx, 0, ctx, b.toNat % 65536, 0⟩

/-- A trigger input: its level, the clock since which it stands, the level last recognised, the clock of that edge plus 1. -/
def Dev.trigger (d : Dev) (i : Nat) : Nat × Nat × Nat × Nat := SMap.get (0, 0, 0, 0) d.trig i

/-- Whether an edge of an input is recognised at a clock (R417): the new level has held for 4 clocks, and 8 have passed since the last edge. -/
def Dev.edgeDue (d : Dev) (clock i : Nat) : Bool :=
  let (level, since, seen, last) := d.trigger i
  level != seen && decide (since + 4 ≤ clock) && (last == 0 || decide (last + 7 ≤ clock))

/-- TRIGGER_EDGE [input, level, how]: the input goes to a level (how 0); or its edge to the level it has is recognised (how 1) (R417). -/
def eventTriggerEdge (s : State) : State :=
  let i := s.arg 0; let (level, since, seen, last) := s.dev.trigger i
  let put (x : Nat × Nat × Nat × Nat) : State := { s with dev := { s.dev with trig := SMap.set (0, 0, 0, 0) s.dev.trig i x } }
  if 8 ≤ i then s
  else if s.arg 2 = 0 then (if s.arg 1 % 2 = level then s else put (s.arg 1 % 2, s.clock, seen, last))
  else if !s.dev.ready || s.fatal || !s.dev.edgeDue s.clock i then s
  else (List.range 64).foldl (fun s c => s.edgeFor i (level == 1) c) (put (level, since, level, s.clock + 1))

/-- TRIGGER_BINDING_WRITE [context, input, value]: EDGES is kept, or cleared when EN rises (R417). -/
def State.bindingWrite (s : State) (ctx input value : Nat) : State :=
  s.updCtx ctx fun c =>
    let old := c.bind input
    let new : DWord := BitVec.ofNat 64 value &&& 0x000000030000FFFF
    let edges : DWord := if new.getLsbD 32 && !old.getLsbD 32 then 0 else old >>> 48 <<< 48
    { c with binds := SMap.set 0 c.binds input (edges ||| new) }
def eventTriggerBindingWrite (s : State) : State :=
  if s.arg 0 < 64 ∧ s.arg 1 < 8 then s.bindingWrite (s.arg 0) (s.arg 1) (s.arg 2) else s

/-- SYNC_PULSE: the output goes high for 700 clocks for the next pulse queued (R418). -/
def eventSyncPulse (s : State) : State :=
  let d := s.dev
  if d.sync = 0 ∧ 0 < d.syncpend then { s with dev := { d with sync := 1, syncUntil := s.clock + 700, syncpend := d.syncpend - 1 } } else s

/-- SYNC_PULSE_END: the high half ends, and 700 clocks later the low half (R418). -/
def eventSyncPulseEnd (s : State) : State :=
  let d := s.dev
  if d.sync = 0 ∨ s.clock < d.syncUntil then s
  else { s with dev := { d with sync := if d.sync = 1 then 2 else 0, syncUntil := if d.sync = 1 then s.clock + 700 else 0 } }

/-! ### Ports (R414, R457) -/

/-- UALINK_PORT_TRAINED [port, ok]: a port trains after stage 7; one that fails to is reported through vector 64 (R457). -/
def eventUalinkPortTrained (s : State) : State :=
  if !s.dev.ready || 18 ≤ s.arg 0 then s
  else if s.arg 1 = 1 then { s with dev := { s.dev with ports := s.dev.ports ||| BitVec.ofNat 18 (2 ^ s.arg 0) } }
  else s.msix 64

/-- UALINK_PORT_FAILURE [port]: its flits go by other ports (R414). -/
def eventUalinkPortFailure (s : State) : State :=
  { s with dev := { s.dev with ports := s.dev.ports &&& ~~~BitVec.ofNat 18 (2 ^ s.arg 0) } }

/-! ### Errors (R426, R427, R432, R433, R436) -/

/-- A class 2 record of a core's unit. -/
def State.coreError (s : State) (unit core : Nat) (ctx : Option Nat) : State := s.logError unit 2 core 0 ctx
/-- The core and the context of a group. -/
def State.whereIs (s : State) (g : Grp) : Nat × Option Nat := match s.blk g.blk with | some b => (b.core, some b.ctx) | none => (0, none)

/-- Every path of a group stops with reason 16, and a KIND 1 record of cause POISON is made (R436), or the open one it merges into gives the stop its
STOPTAG (R385). -/
def State.controlStop (s : State) (gk : Nat) : State :=
  match s.grp gk with
  | none => s
  | some g => match s.blk g.blk with
    | none => s
    | some b =>
      if g.alive == 0 then s
      else
        let (tag, s1) := s.coalesce b.core { recOf g b with kind := 1, cause := Cause.poison.code, mask := g.alive, tag := s.seq }
        let stop (p : Path) : Path := if p.st == .free then p else { p with st := .stopped, wait := .escalated (controlTag + tag) }
        { s1 with seq := s1.seq + 1, dev := s1.dev.dropStops fun x => x.gk == gk }.setGrp gk { g with paths := g.paths.map stop, spilled := g.spilled.map fun (e : Nat × Path) => (e.1, stop e.2) }

/-- A bank with an error in a word of a row: the word holds an unspecified value, and its output column is poisoned (R181, R426). -/
def Bank.poisonAt (b : Bank) (row word : Nat) (x : DWord) : Bank :=
  let r := b.row row
  b.setRow row { r with words := SMap.set 0 r.words word x, poison := SMap.set false r.poison (word / modeWords r.mode) true }

/-- CONTROL_STATE_ERROR [kind, …]: an error in the package's storage (R426, R427, R436): 0 a cached translation [place], 1 a predicate or
index register [group, 0 p 1 q 2 x, number], 2 control state of a group [group], 3 of a block [block], 4 the task unit or the control
processor, 5 a line [line, 1 correctable 2 not], 6 a v register [group, register, thread], 7 an s register [group, number], 8 a macro slot
[core, key], 9 an accumulator word [core, bank, row, word], 10 a film record [place], 11 a handle slot [core, place], 12 a corrected
error of a unit [unit, core]. -/
def eventControlStateError (s : State) : State :=
  let a := s.arg 1; let b := s.arg 2; let c := s.arg 3
  match s.arg 0 with
  | 0 => { s with tlb := s.tlb.eraseIdx a }
  | 1 => s.updGrp a fun g => { g with damaged := g.damaged ++ [match b with | 0 => .p c | 1 => .q c | _ => .x c] }
  | 2 => match (s.grp a).bind fun g => if g.alive == 0 then none else s.blk g.blk with
    | some b => (s.coreError 8 b.core (some b.ctx)).controlStop a
    | none => s
  | 3 => match s.blk a with
    | some b => (s.groupsOf a).foldl (fun s e => s.controlStop e.1) (s.coreError 8 b.core (some b.ctx))
    | none => s
  | 4 => s.goFatal 11
  | 5 => { s with mem := { s.mem with latent := SMap.set 0 s.mem.latent a (max (SMap.get 0 s.mem.latent a) (min b 2)) } }
  | 6 => match s.grp a with
    | some g => let (x, s1) := s.draw; (s1.wrV a b c ⟨x.extractLsb' 0 32, true⟩).coreError 3 (s.whereIs g).1 (s.whereIs g).2
    | none => s
  | 7 => match s.grp a with
    | some g =>
      let (x, s1) := s.draw
      (s1.updGrp a fun g => { g with s := SMap.set RegVal.zero g.s b ⟨x.extractLsb' 0 32, true⟩ }).coreError 4 (s.whereIs g).1 (s.whereIs g).2
    | none => s
  | 8 => (s.updMx a fun m => { m with slots := m.slots.map fun (e : Nat × MSlot) => (e.1, if e.1 == b then { e.2 with poison := true } else e.2) }).coreError 5 a none
  | 9 =>
    let (x, s1) := s.draw
    (s1.updMx a fun m =>
      if b = 0 then { m with bank0 := m.bank0.poisonAt c (s.arg 4) (x.extractLsb' 0 64) }
      else { m with bank1 := m.bank1.poisonAt c (s.arg 4) (x.extractLsb' 0 64) }).coreError 6 a none
  | 10 => match s.films[a]? with
    | some r => ((s.filmFault r.ctx r.task r.film .access 0)).logError 7 2 r.die 0 (some r.ctx)
    | none => s
  | 11 => (s.updMx a fun m => { m with handles := m.handles.zipIdx.map fun h => if h.2 = b then { h.1 with poison := true } else h.1 }).coreError 5 a none
  | 12 => { s with errlog := { s.errlog with cecnt := min (s.errlog.cecnt + 1) (2 ^ 32 - 1) } }.logError a 1 b 0 none
  | _ => s

/-! ### Reset and boot (R437, R439, R456 to R459) -/

/-- The machine after a package reset: what outlasts it, and what is still to come from outside (R439). -/
def State.packageReset (s : State) : State :=
  { State.resetWith { s.dev.kept with rows := [] } with free := s.free, seq := s.seq, inputs := s.inputs }

/-- PACKAGE_RESET (R456). -/
def eventPackageReset (s : State) : State := s.packageReset
/-- POWER_LOSS: what is not in flash or fuses is lost; a write of the persistent area under way is cut off, and with a RECOVER's the old image stays in
force (R458, R459, R460). -/
def eventPowerLoss (s : State) : State :=
  (if s.dev.flashing then { s with dev := { s.dev with kept := { s.dev.kept.cut with image := s.dev.wasImage.getD s.dev.kept.image } } } else s).packageReset

/-- Boot fails (R457): the reason is shown and goes to flash; the package then resets itself. -/
def State.bootFail (s : State) (reason : Nat) : State :=
  let s1 := s.persist fun p => { p with lastrsn := reason }
  { s1 with dev := { s1.dev with rsn := reason } }

/-- A stage is reached. -/
def State.staged (s : State) (n : Nat) : State := { s with dev := { s.dev with stage := n } }

/-- Axolotl mode (R459, R461): the digest of the image that failed its check, or 0. -/
def State.axolotl (s : State) : State :=
  let k := s.dev.kept
  let m := if k.lastrsn = 2 then 0 else Config.digest 0 (k.image.map fun (b : Byte) => b.toNat) % 2 ^ 256
  { s with dev := { s.dev with axolotl := true, mimg := m } }.msix 64

/-- Stage 4 (R437): the tests retire a site each of the listed dies: d stands for die d mod 8 and its logical core d / 8 mod 144, which the die's next
spare serves from then on. -/
def Kept.retire (k : Kept) (dies : List Nat) : Kept :=
  dies.foldl (fun k d => { k with retired := SMap.upd 0 k.retired (d % 8) (· + 1), sites := SMap.put k.sites (144 * (d % 8) + d / 8 % 144) (SMap.get 0 k.retired (d % 8)) }) k

/-- A line of a row is marked. -/
def State.markRow (s : State) (row : Nat) : State :=
  { s with mem := (List.range 16).foldl (fun m i => m.mark (16 * row + i) true) s.mem }

/-- An entry of the bad-row list for a row of the linear window (R438). -/
def badEntry (row : Nat) : BitVec 32 := BitVec.ofNat 32 (2 ^ 31 + row / 2 ^ 26 % 16 * 2 ^ 27 + row % 2 ^ 26)
def badRow (e : BitVec 32) : Nat := (e.extractLsb' 27 4).toNat * 2 ^ 26 + (e.extractLsb' 0 26).toNat

/-- Stage 5 (R437, R438): every row of the repair list is repaired, or joins the bad rows where its bank has no spare left (its bit of
`spent`); the lines of bad rows are marked. -/
def State.repairRows (s : State) (spent : Nat) : State :=
  let k := s.dev.kept
  let bad := (k.repair.zipIdx.filter fun r => spent.testBit r.2).map (·.1)
  let s1 := k.repair.foldl (fun s r => let p := linePlace (16 * r); s.logError p.1 (if bad.contains r then 5 else 4) p.2.1 p.2.2 none) s
  let s2 := if k.repair.isEmpty then s1 else s1.persist fun p => { p with repair := [], bad := (p.bad ++ bad.map badEntry).take 1024 }
  s2.dev.kept.bad.foldl (fun s e => s.markRow (badRow e)) s2

/-- The time the stage under way takes. -/
def State.stageTime (s : State) : Nat := Config.stageTime s.free s.dev.stage
/-- Whether the watchdog expires before the stage under way ends: stages 2 to 6 take more than 30 seconds (R457). -/
def State.bootLate (s : State) : Bool := decide (1 ≤ s.dev.stage ∧ s.dev.stage ≤ 5 ∧ 30 * 10 ^ 9 < s.dev.bootTime + s.stageTime)

/-- BOOT_STAGE [outcome, …]: the next stage passes its tests (outcome 0) or fails them (R457); for stage 4 the rest are dies that lose a
site, for stage 5 the next is a bit for each listed row without a spare. After a failure has been shown, the package resets itself. -/
def eventBootStage (s : State) : State :=
  let s := { s with dev := { s.dev with bootTime := if 1 ≤ s.dev.stage then s.dev.bootTime + s.stageTime else 0 } }
  let d := s.dev; let bad := s.arg 0 != 0
  if d.ready || d.axolotl then s
  else if s.fatal then (s.bootFail 9).packageReset
  else if d.rsn ≠ 0 then s.packageReset
  else match d.stage with
    | 0 => if bad then s.bootFail 1 else
        let (x, s1) := s.draw
        { s1 with dev := { s1.dev with nonce := x.extractLsb' 0 256 } }.staged 1
    | 1 => if bad || !d.kept.readable then s.bootFail 2
        else if 3 ≤ d.kept.fsc then s.axolotl
        else (s.persist fun p => { p with fsc := p.fsc + 1 }).staged 2
    | 2 => match imageReason d.kept d.kept.image with
        | 0 => { s with dev := { d with mimg := Config.digest 0 (d.kept.image.map fun (b : Byte) => b.toNat) % 2 ^ 256 } }.staged 3
        | r => s.bootFail r
    | 3 =>
        let k := d.kept.retire (s.subject.drop 1)
        let s1 := { s with dev := { d with kept := k } }
        if k.retired.any fun e => 6 < e.2 then s1.bootFail 6 else s1.staged 4
    | 4 => if bad then s.bootFail 5 else (s.repairRows (s.arg 1)).staged 5
    | 5 => if bad then s.bootFail 7 else s.staged 6
    | _ =>
        let s1 := s.persist fun p => { p with fsc := 0 }
        ({ s1 with dev := { s1.dev with ready := true } }.staged 7).msix 64

/-- BOOT_WATCHDOG_EXPIRY: stages 2 to 6 have taken 30 seconds of the control processor's time (R457). -/
def eventBootWatchdogExpiry (s : State) : State :=
  if s.dev.ready || s.dev.axolotl || s.dev.stage = 0 || 6 ≤ s.dev.stage || s.dev.rsn ≠ 0 then s else s.bootFail 8

/-! ### Power (R35, R462) -/

/-- Whether a quad has a resident group. -/
def State.quadBusy (s : State) (q : Nat) : Bool := (List.range 4).any fun i => !(s.residents (4 * q + i)).isEmpty

/-- The level a quad is granted next, from its die's measured power and budget and whether the die is capped. -/
def nextGrant (busy : Bool) (g power budget : Nat) (cap : Bool) : Nat :=
  let x := if !busy then 16 else if budget < power then max 1 (g - 1) else if 8 * power < 7 * budget then min 16 (g + 1) else g
  if cap then min 8 x else x

/-- Whether a die is capped after a temperature reading. -/
def Dev.capAfter (d : Dev) (die temp : Nat) : Bool :=
  if d.tthrot < temp then true else if temp + 5 ≤ d.tthrot then false else d.capped.getD die false

/-- ARBITER_INTERVAL: at the end of each 4,096 clocks every die's power and hottest reading decide the grants to come (R462). -/
def eventArbiterInterval (s : State) : State :=
  let d := s.dev
  if s.clock < 4096 * (d.arbiter + 1) then s
  else
    let caps := (List.range 8).map fun k => d.capAfter k (Config.sensor (8 + k) d.arbiter)
    let one (m : SMap (Nat × Nat)) (c : Nat) : SMap (Nat × Nat) :=
      let g := d.grant c; let k := dieOf c
      SMap.set (16, 16) m c (g.1, nextGrant (s.quadBusy (c / 4)) g.2 (Config.sensor k d.arbiter) (d.diew.getD k 0) (caps.getD k false))
    { s with dev := { d with arbiter := d.arbiter + 1, capped := caps, grants := (List.range 1152).foldl one d.grants } }

/-- THERMAL_TRIP [reading]: a sensor reads above 115 °C (R462). -/
def eventThermalTrip (s : State) : State := if 115 < s.arg 0 then s.goFatal 10 else s

/-! ### Reads that clear -/

/-- ORPHAN_READ [core] (R166). -/
def eventOrphanRead (s : State) : State :=
  let k := s.arg 0
  s.readClear (s.core k).orphan fun s => s.updCore k fun c => { c with orphan := 0 }
/-- SYNCLOST_READ (R410). -/
def eventSynclostRead (s : State) : State := s.readClear s.dev.synclost fun s => { s with dev := { s.dev with synclost := 0 } }
/-- IGNORED_ARM_COUNT_READ [context] (R352, R411). -/
def eventIgnoredArmCountRead (s : State) : State :=
  s.readClear (s.ctx (s.arg 0)).ignored fun s => s.updCtx (s.arg 0) fun c => { c with ignored := 0 }
/-- CECNT_READ (R432). -/
def eventCecntRead (s : State) : State := s.readClear s.errlog.cecnt fun s => { s with errlog := { s.errlog with cecnt := 0 } }
/-- TOKREJ_READ (R443). -/
def eventTokrejRead (s : State) : State := s.readClear s.dev.tokrej fun s => { s with dev := { s.dev with tokrej := 0 } }
/-- TRDROP_READ (R449). -/
def eventTrdropRead (s : State) : State := s.readClear s.dev.trdrop fun s => { s with dev := { s.dev with trdrop := 0 } }

/-! ### Register writes -/

/-- Bits lo to lo + n − 1 of a written word. -/
def fld (v lo n : Nat) : Nat := v / 2 ^ lo % 2 ^ n

/-- The device registers (R410). -/
def Dev.writeDevice (d : Dev) (v : Nat) : Dev :=
  let cnt := fld v 14 9; let id := fld v 0 9
  let podcnt := if !d.faben && 1 ≤ cnt && cnt ≤ 288 then cnt else d.podcnt
  { d with podcnt := podcnt, pkgid := if !d.faben && id < podcnt then id else d.pkgid, faben := fld v 23 1 == 1 }

/-- CMD (R369): ignored while BUSY; a code that is no command gives BADARG. -/
def State.writeCmd (s : State) (v : Nat) : State :=
  if s.dev.busy.isSome then s
  else if ([1, 2, 3, 4, 5, 6, 7, 8, 9, 10, 11, 12, 16, 17, 18] : List Nat).contains (fld v 0 8)
  then { s with dev := { s.dev with busy := some (fld v 0 8, fld v 8 6, false), cargs := [s.dev.arg0, s.dev.arg1, s.dev.arg2, s.dev.arg3] } } else s.cmdDone 3

/-- DBGCMD (R443): ignored while BUSY. -/
def State.writeDbg (s : State) (v : Nat) : State :=
  if s.dev.dbusy.isSome then s
  else if 1 ≤ fld v 0 8 ∧ fld v 0 8 ≤ 8 then { s with dev := { s.dev with dbusy := some (fld v 0 8), dcargs := [s.dev.darg0, s.dev.darg1, s.dev.data] } } else s.dbgDone 3

/-- Word j of comparator k (R444): EN is set only if STOPS is open for CTX. -/
def Dev.writeComp (d : Dev) (k j v : Nat) : Dev :=
  let old := SMap.get 0 d.comps k
  let x : BitVec 128 := if j = 0 then (old >>> 64 <<< 64) ||| BitVec.ofNat 128 (v / 2 ^ 48 * 2 ^ 48)
                        else (old &&& BitVec.ofNat 128 (2 ^ 64 - 1)) ||| BitVec.ofNat 128 (v * 2 ^ 64)
  let en : BitVec 128 := BitVec.ofNat 128 (2 ^ 48)
  let x := if j = 0 && x.getLsbD 48 && !old.getLsbD 48 && !d.openFor 0 (x.extractLsb' 66 6).toNat then x &&& ~~~en else x
  { d with comps := SMap.set 0 d.comps k x }

/-- The trace registers (R449), by word. -/
def Dev.writeTrace (d : Dev) (j v : Nat) : Dev :=
  match j with
  | 0 => { d with tren := fld v 0 1 == 1, trkinds := fld v 48 12, trlog2 := if 10 ≤ fld v 40 8 ∧ fld v 40 8 ≤ 24 then fld v 40 8 else d.trlog2 }
  | 2 => { d with trcons := fld v 0 32 }
  | 3 => { d with trbase := v }
  | _ => d

/-- The power registers (R462) as one value. -/
def Dev.power (d : Dev) : Nat := d.tthrot * 2 ^ 112 + d.pkgw * 2 ^ 96 + d.diew.zipIdx.foldr (fun w n => n + w.1 * 2 ^ (12 * w.2)) 0

/-- Word j of the power registers: out-of-range TTHROT and PKGW are ignored, and the whole write where the DIEW sum would exceed PKGW. -/
def Dev.writePower (d : Dev) (j v : Nat) : Dev :=
  let x := if j = 0 then d.power / 2 ^ 64 * 2 ^ 64 + v else d.power % 2 ^ 64 + v * 2 ^ 64
  let t := fld x 112 16; let p := fld x 96 16
  let pkgw := if 400 ≤ p ∧ p ≤ 3200 then p else d.pkgw
  let diew := (List.range 8).map fun k => fld x (12 * k) 12
  if pkgw < diew.sum then d else { d with tthrot := if 70 ≤ t ∧ t ≤ 105 then t else d.tthrot, pkgw := pkgw, diew := diew }

/-- A number with the masked bits of another. -/
def maskWrite {w : Nat} (old mask : BitVec w) (v : Nat) : BitVec w := (old &&& ~~~mask) ||| (BitVec.ofNat w v &&& mask)
/-- The bits of fields, each given by its lowest bit and its width. -/
def fieldMask (fs : List (Nat × Nat)) : Nat := fs.foldl (fun m f => m ||| (2 ^ f.2 - 1) * 2 ^ f.1) 0

/-- The descriptor's fields that may be written at any time (R368), and those fixed while VALID = 1. -/
def openFields : List (Nat × Nat) := [(960, 32), (720, 64), (504, 8), (496, 8), (2, 1), (3, 1)]
def fixedFields : List (Nat × Nat) := [(936, 8), (864, 64), (800, 64), (784, 16), (656, 64), (592, 64), (560, 32), (512, 48)]
/-- The writable fields of a film descriptor (R324). -/
def filmFields : List (Nat × Nat) := [(256, 32), (192, 64), (128, 1), (96, 32), (0, 64)]
/-- TABBASE and NETCNT (R391). -/
def tableFields : List (Nat × Nat) := [(64, 64), (51, 13)]

/-- The bits of a mask that lie in word j. -/
def wordMask (m j : Nat) : Nat := m / 2 ^ (64 * j) % 2 ^ 64 * 2 ^ (64 * j)

/-- A write of a word of a context's block (R324, R367, R368, R391, R411, R415, R417). -/
def State.writeCtx (s : State) (ctx o v : Nat) : State :=
  let c := s.ctx ctx
  if o < 0x80 then
    let m := wordMask (fieldMask (if c.valid then openFields else openFields ++ fixedFields)) (o / 8)
    s.setCtx ctx { c with desc := maskWrite c.desc (BitVec.ofNat 1024 m) (v * 2 ^ (64 * (o / 8))) }
  else if 0x200 ≤ o ∧ o < 0x400 then
    let f := (o - 0x200) / 64; let j := (o - 0x200) / 8 % 8
    let new := maskWrite (SMap.get 0 c.films f) (BitVec.ofNat 512 (wordMask (fieldMask filmFields) j)) (v * 2 ^ (64 * j))
    s.setCtx ctx { c with films := SMap.set 0 c.films f new }
  else if o = 0x400 ∨ o = 0x408 then
    if c.valid then s
    else s.setCtx ctx { c with tab := maskWrite c.tab (BitVec.ofNat 128 (wordMask (fieldMask tableFields) ((o - 0x400) / 8))) (v * 2 ^ (8 * (o - 0x400))) }
  else if 0x600 ≤ o ∧ o < 0x640 then s.bindingWrite ctx ((o - 0x600) / 8) v
  else if o = 0x640 then
    let cnt := fld v 16 9
    let keep := if 1 ≤ cnt ∧ cnt ≤ s.dev.podcnt then cnt else fld c.podgrp.toNat 16 9
    s.setCtx ctx { c with podgrp := BitVec.ofNat 64 (fld v 0 16 + keep * 2 ^ 16) }
  else s

/-- A 64-bit write at a BAR0 offset (R18): fields that are not writable keep their values. -/
def State.writeReg (s : State) (off v : Nat) : State :=
  let d := s.dev
  let x : DWord := BitVec.ofNat 64 v
  let set (d : Dev) : State := { s with dev := d }
  if off % 8 ≠ 0 then s
  else if 0x100000 ≤ off ∧ off < 0x140000 then s.writeCtx ((off - 0x100000) / 0x1000) (off % 0x1000) v
  else if 0x180000 ≤ off ∧ off < 0x200000 then set { d with staging := SMap.set 0 d.staging ((off - 0x180000) / 8) x }
  else if 0x8000 ≤ off ∧ off < 0x8000 + 7984 then set { d with token := SMap.set 0 d.token ((off - 0x8000) / 8) x }
  else if 0x4100 ≤ off ∧ off < 0x4180 then (set (d.writeComp ((off - 0x4100) / 16) (off / 8 % 2) v)).spareMet s
  else match off with
    | 0x0000 => set (d.writeDevice v)
    | 0x1000 => set { d with arg0 := x }
    | 0x1008 => set { d with arg1 := x }
    | 0x1010 => set { d with arg2 := x }
    | 0x1018 => set { d with arg3 := x }
    | 0x1020 => s.writeCmd v
    | 0x1800 => { s with errlog := { s.errlog with cons := BitVec.ofNat 32 (fld v 32 32) } }
    | 0x1808 => if 1 ≤ fld v 0 8 ∧ fld v 0 8 ≤ 168 then { s with errlog := { s.errlog with scrubh := fld v 0 8 } } else s
    | 0x4000 => set { d with bkpten := fld v 8 1 == 1 }
    | 0x4008 => s.writeDbg v
    | 0x4010 => set { d with darg0 := x }
    | 0x4018 => set { d with darg1 := x }
    | 0x4028 => set { d with data := x }
    | 0x5000 => set (d.writeTrace 0 v)
    | 0x5010 => set (d.writeTrace 2 v)
    | 0x5018 => set (d.writeTrace 3 v)
    | 0x6010 => if v % 2 ^ 32 = 0x52535421 then s.packageReset else s
    | 0x6040 => set (d.writePower 0 v)
    | 0x6048 => set (d.writePower 1 v)
    | _ => s

/-- REGISTER_WRITE [offset, value]. -/
def eventRegisterWrite (s : State) : State := s.writeReg (s.arg 0) (s.arg 1 % 2 ^ 64)

/-- Whether a test-port instruction acts on a unit whose behaviour the spec does not give (R440): it is neither IDCODE (1) nor BYPASS (0),
and TAP or CPDBG is open. -/
def State.testPortOpen (s : State) : Bool := decide (2 ≤ s.arg 0) && (s.dev.opened.getLsbD 4 || s.dev.opened.getLsbD 5)

end Sys2Proof.Machine
end

