-- ==== Sys2Proof/Machine/Ready.lean ====
section
/-! DEFINITION. The issue slot: when a path is ready (R23, R28, R31, R32), what else its next instruction waits for (R25, R118, R159, R193,
R194, R208, R242, R282, R288), the choice of a core in a clock (R24, R26, R27, R35), what is kept for an issue (R24 to R27, R251, R382, R452). -/
namespace Sys2Proof.Machine
open Sys2Proof Host

/-! ### What a path's next instruction waits for -/

/-- A path as its next instruction will see it. -/
def State.envOf (s : State) (gk pi : Nat) : Option Env :=
  match s.grp gk with
  | none => none
  | some g => match s.blk g.blk with | some b => some ⟨s, gk, g, b, pi, g.path pi⟩ | none => none

/-- The place of a unit among the units a core holds. -/
def HwUnit.code : HwUnit → Nat | .vector => 0 | .special => 1 | .loadStore => 2 | .engine => 3 | .control => 4 | .scalar => 5

/-- Whether the unit of an instruction is free (R25). -/
def State.unitFree (s : State) (core : Nat) (u : HwUnit) : Bool :=
  match SMap.find? (s.core core).units u.code with | some t => decide (t ≤ s.clock) | none => true

/-- The bank whose queue an instruction's command joins (R190, R193, R196, R197). -/
def bankOf (i : Instr) : Option Nat :=
  match i with
  | .mmas _ _ _ k _ _ => some k.toNat
  | .memit _ k _ => some k.toNat
  | .mrd _ _ _ t _ _ | .mwr _ _ _ t _ _ => some (t.toNat / 8)
  | _ => none

/-- Whether a HITC finds the report of an active thread still due, in a span it does not name: it acts on, and traps by, the candidate that report
brings (R214), and no result depends on the time of a traversal (R213), so it waits for it (DEDUCED, log entry 54). A TRACE waits where a HITA of the
thread does: the HITA waits until that report is made and reads what stands after it (R215), so the traversal is not abandoned before. -/
def Env.reportHeld (e : Env) (i : Instr) : Bool :=
  match i with
  | .hitc _ _ _ _ => e.g.travs.any fun t => e.p.mask.getLsbD t.1 && t.2.due
  | .trace _ _ _ _ _ _ _ => e.g.travs.any fun t => e.p.mask.getLsbD t.1 && t.2.due && !t.2.hita.isEmpty
  | _ => false

/-- Whether a queue the instruction needs is full (R25, R193, R194, R208, R220, R267). An OPRDY waits for room in its bank's count whether or not
its block holds the lease: R194 does not order the wait and the check (DESIGN CHOICE, log entry 116). -/
def Env.queueFull (e : Env) (i : Instr) : Bool :=
  let m := e.s.mx e.b.core
  let bankFull := match bankOf i with
    | some k => decide (4 ≤ (m.cmds.filter fun c => c.bank == k && (c.kind == .mmas || c.kind == .memit || c.kind == .mrd || c.kind == .mwr)).length)
    | none => false
  let other := match i with
    | .oprdy _ k => decide (4 ≤ (m.bank k.toNat).tokens + (e.s.acts.filter fun x => x.kind == .oprdy e.g.blk k.toNat).length)
    | .filmadd _ _ _ _ _ => decide (64 ≤ (e.s.outbox e.g.blk).length)
    | _ => false
  bankFull || other || e.s.engineFull e.b.core i || e.reportHeld i

/-- Whether an instruction is an arrival at a barrier word: a release (R165) that traps at its PC by what the word holds when it arrives, so that
the path stays there until its earlier accesses are performed (DEDUCED from R54, R165 and R282, log entry 23). -/
def isArrival (i : Instr) : Bool := match i with | .bara _ _ _ | .baraw _ _ _ => true | _ => false

/-- Whether an instruction's issue reads memory for an engine: the layout records, format blocks and descriptors of R182, R186 and R233, read once
at issue. R288 has these reads come after every access that happens before the instruction, and after the path's own stores (DEDUCED, log
entry 23). -/
def isRequest (i : Instr) : Bool :=
  match i with
  | .cpy _ _ _ _ _ | .cpym _ _ _ _ _ | .dec _ _ _ _ _ | .chain _ _ _ | .bld _ _ _ | .mmas _ _ _ _ _ _
  | .memit _ _ _ => true
  | _ => false

/-- Whether a NEVAL is the first to look up the handle of an active thread, so that its issue reads the network's format blocks (R396). -/
def Env.readsNet (e : Env) (i : Instr) : Bool :=
  match i with
  | .neval _ _ _ b _ _ => (threadsOf e.p.mask).any fun t => (SMap.find? (e.s.ctx e.b.ctx).netCopies (e.vec b t).val.toNat).isNone
  | _ => false

/-- Whether an earlier access of the path, or a fence (R162), holds back the access to a barrier word that the issue of a barrier instruction
makes: BARI's write, BARW's read (R163). -/
def Env.wordHeld (e : Env) (i : Instr) : Bool :=
  let held (kind : ReqKind) (a : BitVec 7) : Bool :=
    match e.barHome a with | .ok h => e.s.accessHeld kind e.gk e.p.mask h 8 1 | .error _ => false
  match i with | .bari _ _ a _ => held .store a | .barw _ a _ => held .load a | _ => false

/-- Whether accesses the path made earlier hold its next instruction back. -/
def Env.orderHeld (e : Env) (i : Instr) : Bool :=
  (isArrival i && e.s.outstanding e.gk e.p.mask) || ((isRequest i || e.readsNet i) && e.s.uncleared e.gk e.p.mask e.s.seq) || e.wordHeld i

/-- Whether the extended set's last writes hold RREL back (R118). -/
def Env.setHeld (e : Env) (i : Instr) : Bool :=
  match i with | .rrel _ => e.b.holder == some e.g.gix && e.g.extPending | _ => false

/-! ### Standing of a path (R23, R452) -/

/-- How near a LIVE path is to issuing, the nearest first (R452). -/
inductive Standing where
  | ready | unit | fixed | memory | other
  deriving DecidableEq, Repr

/-- What an instruction waits for as: a word with a field that its row must hold at zero waits for the operands and the unit of its row, as its
other fields name them; none for a word whose opcode is assigned to no instruction. -/
def shapeOf (i : Instr) : Option Instr :=
  match i with
  | .unassignedOpcode w =>
    match decode w 0 with | .error (.reservedField _ j) => some j | .ok (.unassignedOpcode _) => none | .ok j => some j | .error .truncated => none
  | _ => some i

/-- Whether an instruction needs no unit and waits for nothing but its countdown: one whose opcode lies outside the group's role (R23), or whose
opcode is assigned to none, so that it names no unit and no operand (DESIGN CHOICE: R23 speaks of the role alone; log entry 93). -/
def Env.trapsAtOnce (e : Env) (i : Instr) : Bool :=
  (shapeOf i).isNone || (match opcode i with | some o => !roleAllows (e.b.roles.getD e.g.gix 0) o | none => true)

/-- Whether a LIVE path stands where another of its group does and waits to merge with it (R31, R246). -/
def Env.mergeHeld (e : Env) : Bool := (List.range 8).any fun j => j != e.pi && e.p.st == .live && e.p.mergesWith (e.g.path j)

/-- Whether a path's countdown runs, or it waits to merge. -/
def Env.counting (e : Env) : Bool := decide (e.s.clock < e.p.ready) || e.mergeHeld

/-- The standing of a LIVE path whose next instruction is i. -/
def Env.standing (e : Env) (i : Instr) : Standing :=
  if e.counting then .fixed
  else if e.trapsAtOnce i then .ready
  else if e.fixedHeld ((shapeOf i).getD i) then .fixed
  else
    let ps := e.awaits ((shapeOf i).getD i)
    if ps.any fun p => p.cls == .load || p.cls == .store then .memory
    else if !ps.isEmpty then .other
    else if e.orderHeld i then .memory
    else if e.setHeld i || e.s.ecntHeld e.b e.g.blk i then .other
    else if !e.s.unitFree e.b.core (unitOf i) || e.queueFull i then .unit
    else .ready

/-- The standing of a path's fetch: a fault on it is taken when the countdown has ended (R37). -/
def Env.codeStanding (e : Env) : Standing × Except Cause Instr :=
  match e.s.fetch e.b.ctx e.b.core (8 * e.gk + e.pi) e.p.pc with
  | .ok i => (e.standing i, .ok i)
  | .error c => (if e.counting then .fixed else .ready, .error c)

/-- Whether what a path has fetched needs the pair's scalar unit (R25, R27). -/
def Env.needsScalar (e : Env) (code : Except Cause Instr) : Bool :=
  match code with | .ok i => unitOf i == .scalar && !e.trapsAtOnce i | .error _ => false

/-- Whether a group has stopped issuing to leave its core: its block is being moved (R383), its context suspended (R381), or it is evicted for the
placement in hand (R379). -/
def State.stopped (s : State) (gk : Nat) (g : Grp) : Bool :=
  (s.dev.leap.any fun l => l.1 == g.blk) || (match s.blk g.blk with | some b => s.suspending b.ctx | none => false) || (s.turn.2.2 != 0 && s.leaving.contains gk)

/-- What a group offers: its ready path with the lowest PC, ties to the lower index (R24), with what it has fetched, and whether it needs the pair's
scalar unit (R27), which an instruction outside the role does not (R23). -/
structure Offer where
  gk : Nat
  pi : Nat
  pc : DWord
  age : Nat
  promoted : Bool
  code : Except Cause Instr
  scalar : Bool

/-- The better of two offers of one group (R24 step 1). -/
def Offer.first (a b : Offer) : Offer := if b.pc.toNat < a.pc.toNat then b else a

/-- The candidate of a resident group (R24). -/
def State.candidate (s : State) (gk : Nat) (g : Grp) : Option Offer :=
  if s.stopped gk g then none
  else (List.range 8).foldl (fun (o : Option Offer) i =>
    if (g.path i).st != .live then o
    else match s.envOf gk i with
      | none => o
      | some e =>
        match e.codeStanding with
        | (.ready, code) =>
          let x : Offer := ⟨gk, i, e.p.pc, g.age, g.promoted, code, e.needsScalar code⟩
          match o with | none => some x | some y => some (y.first x)
        | _ => o) none

/-- The choice among groups (R24 step 2, R26): promoted ones first, then the oldest age stamp. -/
def Offer.before (a b : Offer) : Bool := (a.promoted && !b.promoted) || (a.promoted == b.promoted && decide (a.age < b.age))
def chooseOffer (os : List Offer) : Option Offer :=
  os.foldl (fun b o => match b with | none => some o | some x => if o.before x then some o else some x) none

/-- The offers of a core's resident groups. -/
def State.offers (s : State) (core : Nat) : List Offer := (s.residents core).filterMap fun e => s.candidate e.1 e.2

/-- Whether a core issues nothing in this clock (R35), by its own CYCLE (R13). -/
def State.withheld (s : State) (core : Nat) : Bool :=
  let g := (s.dev.grant core).1
  decide (g < 16) && decide (g ≤ s.cycleOf core % 16)

/-! ### The shared scalar unit (R27) -/

/-- The even core of a pair and the other core of the pair. -/
def evenOf (core : Nat) : Nat := core / 2 * 2
def partner (core : Nat) : Nat := if core % 2 = 0 then core + 1 else core - 1

/-- Whether a core offers the pair's unit an instruction in this clock. -/
def State.offersScalar (s : State) (core : Nat) : Bool :=
  !s.withheld core && decide ((s.core core).offered ≤ s.clock) && (match chooseOffer (s.offers core) with | some o => o.scalar | none => false)

/-- Whether the unit takes a core's uniform instruction, and the pair's record after the choice: the toggle changes only where both offer. -/
def State.scalarGrant (s : State) (core : Nat) : Bool × State :=
  let k := evenOf core
  let taken : State := s.updCore k fun c => { c with ssu := some s.clock }
  if (s.core k).ssu == some s.clock then (false, s)
  else if !s.offersScalar (partner core) then (true, taken)
  else
    let mine := (s.core k).toggle == (core % 2 == 1)
    let flip (x : State) : State := x.updCore k fun c => { c with toggle := !c.toggle }
    if mine then (true, flip taken) else (false, flip s)

/-- The instruction a core issues in this clock, if any, whether its scalar unit refused one, and the state after the choice (R24, R27). -/
def State.pickIssue (s : State) (core : Nat) : Option Offer × Bool × State :=
  let os := s.offers core
  match chooseOffer os with
  | none => (none, false, s)
  | some o =>
    if !o.scalar then (some o, false, s)
    else
      match s.scalarGrant core with
      | (true, s1) => (some o, false, s1)
      | (false, s1) => (chooseOffer (os.filter fun x => !x.scalar), true, s1)

/-! ### What an issue leaves behind -/

/-- The counter word of an issue (R452, R453). -/
def issueLeaf (i : Instr) : Nat :=
  match unitOf i with
  | .vector => if holdOf i = 12 then 4 else 2
  | .special => 5 | .loadStore => 6 | .engine => 7 | .control => 8 | .scalar => 9

/-- Instructions whose issue is no progress (R251). -/
def idles (i : Instr) : Bool :=
  match i with
  | .ld _ _ _ _ _ _ _ _ | .ldU _ _ _ _ _ _ _ _ | .ldpoll _ _ _ _ _ _ _ _ | .ldpollU _ _ _ _ _ _ _ _ | .brc _ _ _ _ _ | .brx _ _ | .br _ _ | .brq _ _ _ _ _
  | .jmps _ _ | .icmp _ _ _ _ _ | .icmpU _ _ _ _ _ | .fcmp _ _ _ _ _ | .fcmpU _ _ _ _ _ | .dcmp _ _ _ _ _ | .dcmpU _ _ _ _ _ | .mov _ _ _ | .movU _ _ _ | .movi _ _ _
  | .moviU _ _ _ | .movu _ _ _ | .movuX _ _ _ | .cmov _ _ _ _ _ _ | .cmovU _ _ _ _ _ _ | .nop _ | .yield _ | .sread _ _ _ | .sreadU _ _ _ | .join _ => true
  | _ => false

/-- The unit is held from the clock of issue (R25), also by an instruction that then traps (DESIGN CHOICE: R25 says 'an issued instruction';
log entry 96). -/
def Core.take (c : Core) (clock : Nat) (i : Instr) : Core :=
  let u := unitOf i
  if u = .scalar then c else { c with units := SMap.put c.units u.code (max (SMap.get 0 c.units u.code) (clock + holdOf i)) }

/-- Starvation counts after a choice (R26): the chosen group's returns to 0, the others that had a candidate wait one clock more. -/
def State.starveOthers (s : State) (os : List Offer) (chosen : Nat) : State :=
  { s with groups := s.groups.map fun (e : Nat × Grp) =>
      (e.1, if e.1 == chosen then { e.2 with starve := 0, promoted := false }
            else if os.any fun o => o.gk == e.1 then { e.2 with starve := e.2.starve + 1 } else e.2) }

/-- What an issue leaves behind before the instruction's own effect: the unit, unless it needs none, the counts of starvation and progress, the
path's stamp (R247), the counters, and whether another group had a ready path (R382). -/
def State.bookIssue (s : State) (core : Nat) (os : List Offer) (gk pi : Nat) (i : Instr) : State :=
  let free := match s.envOf gk pi with | some e => e.trapsAtOnce i | none => false
  let crowd := os.any fun o => o.gk != gk
  let s1 := (s.starveOthers os gk).updCore core fun c =>
    { (if free then c else c.take s.clock i) with issuedIn := c.issuedIn + 1, crowdedIn := c.crowdedIn + if crowd then 1 else 0 }
  let s2 := s1.count core (issueLeaf i) 1
  s2.updGrp gk fun g =>
    { Path.set g pi { g.path pi with stamp := s.clock } with issued := idles i, progress := if idles i then g.progress else 0 }

/-- The leaf of a clock in which a core with an unexited resident group issued nothing (R452 rule 4): none where there is no such group. -/
def State.idleLeaf (s : State) (core : Nat) (refused : Bool) : Option Nat :=
  let gs := (s.residents core).filter fun e => e.2.alive != 0
  if gs.isEmpty then none
  else if refused then some 11
  else
    let leafOf (gk : Nat) (g : Grp) (i : Nat) : Nat :=
      match (g.path i).st with
      | .free => 99 | .parked => 16 | .stopped => 17
      | .live => match (s.envOf gk i).map fun (e : Env) => e.codeStanding.1 with
        | some .unit | some .ready => 12 | some .fixed => 13 | some .memory => 14 | some .other => 15 | none => 99
    some (gs.foldl (fun n e => (List.range 8).foldl (fun n i => min n (leafOf e.1 e.2 i)) n) 17)

/-- A clock in which a core issued nothing (R26, R382, R452). -/
def State.bookIdle (s : State) (core : Nat) (os : List Offer) (refused : Bool) : State :=
  let s1 := s.starveOthers os (2 ^ 70)
  let s2 := match s.idleLeaf core refused with | some n => s1.count core n 1 | none => s1
  if os.isEmpty then s2 else s2.updCore core fun c => { c with crowdedIn := c.crowdedIn + 1 }

/-! ### CHORUS_TILE_CLOSE (R308) -/

/-- Whether every group with an unwritten Chorus row has no ready path. -/
def State.chorusStuck (s : State) (core : Nat) : Bool :=
  let gks := ((s.mx core).tiles.flatMap fun t => t.rows.map (·.gk)).eraseDups
  gks.all fun gk => match s.grp gk with | some g => !g.resident || (s.candidate gk g).isNone | none => true

/-- CHORUS_TILE_CLOSE [core]: every open tile closes (R308). -/
def eventChorusTileClose (s : State) : State :=
  let core := s.arg 0
  if (s.mx core).tiles.any (fun t => t.st == 0) && s.chorusStuck core then s.closeAll core else s

end Sys2Proof.Machine
end

