-- ==== Sys2Proof/Machine/Events.lean ====
section
/-! DEFINITION. The meaning of each event row of the table, as the dispatch calls it: what the event does is in the files of its unit; an
event that is not due changes nothing. -/
namespace Sys2Proof.Machine
open Sys2Proof Host

/-- STALL_COUNTDOWN_EXPIRY (R28). -/
def execStallCountdownExpiry (s : State) : Outcome State Fault Refusal := .next (eventStallCountdownExpiry s)

/-- UNIT_RELEASE (R25). -/
def execUnitRelease (s : State) : Outcome State Fault Refusal := .next (eventUnitRelease s)

/-- STARVATION_PROMOTION (R26). -/
def execStarvationPromotion (s : State) : Outcome State Fault Refusal := .next (eventStarvationPromotion s)

/-- GRANT_CHANGE (R35). -/
def execGrantChange (s : State) : Outcome State Fault Refusal := .next (eventGrantChange s)

/-- FIXED_LATENCY_RESULT (R466). -/
def execFixedLatencyResult (s : State) : Outcome State Fault Refusal := .next (eventFixedLatencyResult s)

/-- VARIABLE_RESULT_WRITE (R32). -/
def execVariableResultWrite (s : State) : Outcome State Fault Refusal := .next (eventVariableResultWrite s)

/-- PATH_MERGE (R246). -/
def execPathMerge (s : State) : Outcome State Fault Refusal := .next (eventPathMerge s)

/-- SPILL_RETURN (R248). -/
def execSpillReturn (s : State) : Outcome State Fault Refusal := .next (eventSpillReturn s)

/-- SPILL_ROTATION (R248). -/
def execSpillRotation (s : State) : Outcome State Fault Refusal := .next (eventSpillRotation s)

/-- HANG_REPORT (R251). -/
def execHangReport (s : State) : Outcome State Fault Refusal := .next (eventHangReport s)

/-- LDPOLL_BACKOFF_EXPIRY (R161). -/
def execLdpollBackoffExpiry (s : State) : Outcome State Fault Refusal := .next (eventLdpollBackoffExpiry s)

/-- MWAIT_WAKE (R171). -/
def execMwaitWake (s : State) : Outcome State Fault Refusal := .next (eventMwaitWake s)

/-- LOAD_AT_HOME (R279). -/
def execLoadAtHome (s : State) : Outcome State Fault Refusal := .next (eventLoadAtHome s)

/-- STORE_PERFORMED (R279). -/
def execStorePerformed (s : State) : Outcome State Fault Refusal := .next (eventStorePerformed s)

/-- ATOMIC_AT_HOME (R151). -/
def execAtomicAtHome (s : State) : Outcome State Fault Refusal := .next (eventAtomicAtHome s)

/-- ATOMIC_MERGE (R275). -/
def execAtomicMerge (s : State) : Outcome State Fault Refusal := .next (eventAtomicMerge s)

/-- FULL_EMPTY_AT_HOME (R159). -/
def execFullEmptyAtHome (s : State) : Outcome State Fault Refusal := .next (eventFullEmptyAtHome s)

/-- BARRIER_ARRIVAL (R165). -/
def execBarrierArrival (s : State) : Outcome State Fault Refusal := .next (eventBarrierArrival s)

/-- IMPRECISE_STORE_FAULT (R389). -/
def execImpreciseStoreFault (s : State) : Outcome State Fault Refusal := .next (eventImpreciseStoreFault s)

/-- COALESCER_CLOSE (R385). -/
def execCoalescerClose (s : State) : Outcome State Fault Refusal := .next (eventCoalescerClose s)

/-- EVENT_RING_WRITE (R388). -/
def execEventRingWrite (s : State) : Outcome State Fault Refusal := .next (eventEventRingWrite s)

/-- MSIX_MODERATION_EXPIRY (R412). -/
def execMsixModerationExpiry (s : State) : Outcome State Fault Refusal := .next (eventMsixModerationExpiry s)

/-- BLD_LOAD_START (R189). -/
def execBldLoadStart (s : State) : Outcome State Fault Refusal := .next (eventBldLoadStart s)

/-- BLD_COMPLETE (R192). -/
def execBldComplete (s : State) : Outcome State Fault Refusal := .next (eventBldComplete s)

/-- A_ROW_FILL_COMPLETE (R300). -/
def execARowFillComplete (s : State) : Outcome State Fault Refusal := .next (eventARowFillComplete s)

/-- PASS_START (R190). -/
def execPassStart (s : State) : Outcome State Fault Refusal := .next (eventPassStart s)

/-- PASS_END (R299). -/
def execPassEnd (s : State) : Outcome State Fault Refusal := .next (eventPassEnd s)

/-- MMAQ_WRITEBACK (R299). -/
def execMmaqWriteback (s : State) : Outcome State Fault Refusal := .next (eventMmaqWriteback s)

/-- CHORUS_WRITEBACK (R309). -/
def execChorusWriteback (s : State) : Outcome State Fault Refusal := .next (eventChorusWriteback s)

/-- MEMIT_COMPLETE (R196). -/
def execMemitComplete (s : State) : Outcome State Fault Refusal := .next (eventMemitComplete s)

/-- ACCUM_PORT_ACCESS (R197). -/
def execAccumPortAccess (s : State) : Outcome State Fault Refusal := .next (eventAccumPortAccess s)

/-- SLOT_RESTORE (R305). -/
def execSlotRestore (s : State) : Outcome State Fault Refusal := .next (eventSlotRestore s)

/-- LEASE_CLAIM_LAPSE (R187). -/
def execLeaseClaimLapse (s : State) : Outcome State Fault Refusal := .next (eventLeaseClaimLapse s)

/-- LEASE_FREE (R187). -/
def execLeaseFree (s : State) : Outcome State Fault Refusal := .next (eventLeaseFree s)

/-- CHORUS_WINDOW_CLOSE (R307). -/
def execChorusWindowClose (s : State) : Outcome State Fault Refusal := .next (eventChorusWindowClose s)

/-- CHORUS_TILE_CLOSE (R308). -/
def execChorusTileClose (s : State) : Outcome State Fault Refusal := .next (eventChorusTileClose s)

/-- CHORUS_HANDLE_LOAD_START (R306). -/
def execChorusHandleLoadStart (s : State) : Outcome State Fault Refusal := .next (eventChorusHandleLoadStart s)

/-- CHORUS_HANDLE_LOAD_END (R310). -/
def execChorusHandleLoadEnd (s : State) : Outcome State Fault Refusal := .next (eventChorusHandleLoadEnd s)

/-- COPY_ARRIVAL (R230). -/
def execCopyArrival (s : State) : Outcome State Fault Refusal := .next (eventCopyArrival s)

/-- COPY_COMPLETE (R208). -/
def execCopyComplete (s : State) : Outcome State Fault Refusal := .next (eventCopyComplete s)

/-- DEC_CHUNK_DECODE (R276). -/
def execDecChunkDecode (s : State) : Outcome State Fault Refusal := .next (eventDecChunkDecode s)

/-- CHAIN_COMPLETE (R334). -/
def execChainComplete (s : State) : Outcome State Fault Refusal := .next (eventChainComplete s)

/-- TBLLD_RELOAD (R234). -/
def execTblldReload (s : State) : Outcome State Fault Refusal := .next (eventTblldReload s)

/-- TRAVERSAL_REPORT (R213). -/
def execTraversalReport (s : State) : Outcome State Fault Refusal := .next (eventTraversalReport s)

/-- FILM_OUTBOX_DRAIN (R267). -/
def execFilmOutboxDrain (s : State) : Outcome State Fault Refusal := .next (eventFilmOutboxDrain s)

/-- FILM_RECORD_APPLY (R221). -/
def execFilmRecordApply (s : State) : Outcome State Fault Refusal := .next (eventFilmRecordApply s)

/-- TREE_REQUEST_ARRIVAL (R222). -/
def execTreeRequestArrival (s : State) : Outcome State Fault Refusal := .next (eventTreeRequestArrival s)

/-- TREE_STAGING_ENTER (R224). -/
def execTreeStagingEnter (s : State) : Outcome State Fault Refusal := .next (eventTreeStagingEnter s)

/-- PUT_DELIVERY (R414). -/
def execPutDelivery (s : State) : Outcome State Fault Refusal := .next (eventPutDelivery s)

/-- PUTF_FLAG_WRITE (R239). -/
def execPutfFlagWrite (s : State) : Outcome State Fault Refusal := .next (eventPutfFlagWrite s)

/-- FABRIC_ATOMIC_AT_TARGET (R239). -/
def execFabricAtomicAtTarget (s : State) : Outcome State Fault Refusal := .next (eventFabricAtomicAtTarget s)

/-- PUT_ACK (R240). -/
def execPutAck (s : State) : Outcome State Fault Refusal := .next (eventPutAck s)

/-- FABRIC_DELIVERY_TIMEOUT (R414). -/
def execFabricDeliveryTimeout (s : State) : Outcome State Fault Refusal := .next (eventFabricDeliveryTimeout s)

/-- UALINK_PORT_FAILURE (R414). -/
def execUalinkPortFailure (s : State) : Outcome State Fault Refusal := .next (eventUalinkPortFailure s)

/-- UALINK_PORT_TRAINED (R457). -/
def execUalinkPortTrained (s : State) : Outcome State Fault Refusal := .next (eventUalinkPortTrained s)

/-- POD_BARRIER_ARRIVAL (R415). -/
def execPodBarrierArrival (s : State) : Outcome State Fault Refusal := .next (eventPodBarrierArrival s)

/-- HBAR_COMPLETE (R170). -/
def execHbarComplete (s : State) : Outcome State Fault Refusal := .next (eventHbarComplete s)

/-- HOST_BAR4_REQUEST (R411). -/
def execHostBar4Request (s : State) : Outcome State Fault Refusal := .next (eventHostBar4Request s)

/-- HOST_ATOMIC_COMPLETION (R154). -/
def execHostAtomicCompletion (s : State) : Outcome State Fault Refusal := .next (eventHostAtomicCompletion s)

/-- ARMWORD_FETCHADD (R352). -/
def execArmwordFetchadd (s : State) : Outcome State Fault Refusal := .next (eventArmwordFetchadd s)

/-- ARMWORD_IGNORED (R352). -/
def execArmwordIgnored (s : State) : Outcome State Fault Refusal := .next (eventArmwordIgnored s)

/-- TRIGGER_EDGE (R417). -/
def execTriggerEdge (s : State) : Outcome State Fault Refusal := .next (eventTriggerEdge s)

/-- TRIGGER_BINDING_WRITE (R417). -/
def execTriggerBindingWrite (s : State) : Outcome State Fault Refusal := .next (eventTriggerBindingWrite s)

/-- DISPATCH_TURN (R356). -/
def execDispatchTurn (s : State) : Outcome State Fault Refusal := .next (eventDispatchTurn s)

/-- BLOCK_PLACEMENT (R358). -/
def execBlockPlacement (s : State) : Outcome State Fault Refusal := .next (eventBlockPlacement s)

/-- RESERVING_TIMEOUT (R357). -/
def execReservingTimeout (s : State) : Outcome State Fault Refusal := .next (eventReservingTimeout s)

/-- QUANTUM_EXPIRY (R361). -/
def execQuantumExpiry (s : State) : Outcome State Fault Refusal := .next (eventQuantumExpiry s)

/-- GROUP_EVICT (R379). -/
def execGroupEvict (s : State) : Outcome State Fault Refusal := .next (eventGroupEvict s)

/-- GROUP_RETURN (R380). -/
def execGroupReturn (s : State) : Outcome State Fault Refusal := .next (eventGroupReturn s)

/-- BLOCK_RETIRE (R253). -/
def execBlockRetire (s : State) : Outcome State Fault Refusal := .next (eventBlockRetire s)

/-- TASK_DONE (R362). -/
def execTaskDone (s : State) : Outcome State Fault Refusal := .next (eventTaskDone s)

/-- LEAP_INTERVAL (R382). -/
def execLeapInterval (s : State) : Outcome State Fault Refusal := .next (eventLeapInterval s)

/-- LEAP_MOVE (R383). -/
def execLeapMove (s : State) : Outcome State Fault Refusal := .next (eventLeapMove s)

/-- TLB_WALK_COMPLETE (R375). -/
def execTlbWalkComplete (s : State) : Outcome State Fault Refusal := .next (eventTlbWalkComplete s)

/-- INVAL_COMPLETE (R374). -/
def execInvalComplete (s : State) : Outcome State Fault Refusal := .next (eventInvalComplete s)

/-- DESTROY_COMPLETE (R369). -/
def execDestroyComplete (s : State) : Outcome State Fault Refusal := .next (eventDestroyComplete s)

/-- WUNREG_COMPLETE (R413). -/
def execWunregComplete (s : State) : Outcome State Fault Refusal := .next (eventWunregComplete s)

/-- SCRUB (R435). -/
def execScrub (s : State) : Outcome State Fault Refusal := .next (eventScrub s)

/-- ERROR_LOG_WRITE (R434). -/
def execErrorLogWrite (s : State) : Outcome State Fault Refusal := .next (eventErrorLogWrite s)

/-- CONTROL_STATE_ERROR (R436). -/
def execControlStateError (s : State) : Outcome State Fault Refusal := .next (eventControlStateError s)

/-- PACKAGE_RESET (R456). -/
def execPackageReset (s : State) : Outcome State Fault Refusal := .next (eventPackageReset s)

/-- POWER_LOSS (R458). -/
def execPowerLoss (s : State) : Outcome State Fault Refusal := .next (eventPowerLoss s)

/-- BOOT_STAGE (R457). -/
def execBootStage (s : State) : Outcome State Fault Refusal := .next (eventBootStage s)

/-- BOOT_WATCHDOG_EXPIRY (R457). -/
def execBootWatchdogExpiry (s : State) : Outcome State Fault Refusal := .next (eventBootWatchdogExpiry s)

/-- ARBITER_INTERVAL (R462). -/
def execArbiterInterval (s : State) : Outcome State Fault Refusal := .next (eventArbiterInterval s)

/-- THERMAL_TRIP (R462). -/
def execThermalTrip (s : State) : Outcome State Fault Refusal := .next (eventThermalTrip s)

/-- SYNC_PULSE (R418). -/
def execSyncPulse (s : State) : Outcome State Fault Refusal := .next (eventSyncPulse s)

/-- ORPHAN_READ (R166). -/
def execOrphanRead (s : State) : Outcome State Fault Refusal := .next (eventOrphanRead s)

/-- SYNCLOST_READ (R410). -/
def execSynclostRead (s : State) : Outcome State Fault Refusal := .next (eventSynclostRead s)

/-- IGNORED_ARM_COUNT_READ (R411). -/
def execIgnoredArmCountRead (s : State) : Outcome State Fault Refusal := .next (eventIgnoredArmCountRead s)

/-- CECNT_READ (R432). -/
def execCecntRead (s : State) : Outcome State Fault Refusal := .next (eventCecntRead s)

/-- TOKREJ_READ (R443). -/
def execTokrejRead (s : State) : Outcome State Fault Refusal := .next (eventTokrejRead s)

/-- TRDROP_READ (R449). -/
def execTrdropRead (s : State) : Outcome State Fault Refusal := .next (eventTrdropRead s)

/-- REGISTER_WRITE (R18). -/
def execRegisterWrite (s : State) : Outcome State Fault Refusal := .next (eventRegisterWrite s)

/-- CREATE (R369). -/
def execCreate (s : State) : Outcome State Fault Refusal := .next (eventCreate s)

/-- DESTROY (R369). -/
def execDestroy (s : State) : Outcome State Fault Refusal := .next (eventDestroy s)

/-- INVAL (R374). -/
def execInval (s : State) : Outcome State Fault Refusal := .next (eventInval s)

/-- SUSPEND (R381). -/
def execSuspend (s : State) : Outcome State Fault Refusal := .next (eventSuspend s)

/-- RESUME (R381). -/
def execResume (s : State) : Outcome State Fault Refusal := .next (eventResume s)

/-- PRESUME (R390). -/
def execPresume (s : State) : Outcome State Fault Refusal := .next (eventPresume s)

/-- PFAULT (R390). -/
def execPfault (s : State) : Outcome State Fault Refusal := .next (eventPfault s)

/-- CANCEL (R364). -/
def execCancel (s : State) : Outcome State Fault Refusal := .next (eventCancel s)

/-- TBUILD (R404). -/
def execTbuild (s : State) : Outcome State Fault Refusal := .next (eventTbuild s)

/-- TDROP (R404). -/
def execTdrop (s : State) : Outcome State Fault Refusal := .next (eventTdrop s)

/-- WREG (R413). -/
def execWreg (s : State) : Outcome State Fault Refusal := .next (eventWreg s)

/-- WUNREG (R413). -/
def execWunreg (s : State) : Outcome State Fault Refusal := .next (eventWunreg s)

/-- ATTEST (R461). -/
def execAttest (s : State) : Outcome State Fault Refusal := .next (eventAttest s)

/-- RECOVER (R460). -/
def execRecover (s : State) : Outcome State Fault Refusal := .next (eventRecover s)

/-- RETRY (R460). -/
def execRetry (s : State) : Outcome State Fault Refusal := .next (eventRetry s)

/-- VERIFY (R442). -/
def execVerify (s : State) : Outcome State Fault Refusal := .next (s.dbgOpen State.verify)

/-- CLOSE (R442). -/
def execClose (s : State) : Outcome State Fault Refusal := .next (s.dbgOpen State.close)

/-- HALT (R445). -/
def execHalt (s : State) : Outcome State Fault Refusal := .next (s.dbgOpen State.halt)

/-- RUN (R446). -/
def execRun (s : State) : Outcome State Fault Refusal := .next (s.dbgOpen State.run)

/-- REGRD (R447). -/
def execRegrd (s : State) : Outcome State Fault Refusal := .next (s.dbgOpen State.regrd)

/-- REGWR (R447). -/
def execRegwr (s : State) : Outcome State Fault Refusal := .next (s.dbgOpen State.regwr)

/-- SNAP (R455). -/
def execSnap (s : State) : Outcome State Fault Refusal := .next (s.dbgOpen State.snapAll)

/-- CNTCLR (R443). -/
def execCntclr (s : State) : Outcome State Fault Refusal := .next (s.dbgOpen State.cntClear)

/-- SYNC_PULSE_END (R418). -/
def execSyncPulseEnd (s : State) : Outcome State Fault Refusal := .next (eventSyncPulseEnd s)

/-- LEAP_FORWARD_ACK (R384). -/
def execLeapForwardAck (s : State) : Outcome State Fault Refusal := .next (eventLeapForwardAck s)

/-- TBUILD_COMPLETE (R405). -/
def execTbuildComplete (s : State) : Outcome State Fault Refusal := .next (eventTbuildComplete s)

/-- ATTEST_COMPLETE (R461). -/
def execAttestComplete (s : State) : Outcome State Fault Refusal := .next (eventAttestComplete s)

/-- RECOVER_COMPLETE (R460). -/
def execRecoverComplete (s : State) : Outcome State Fault Refusal := .next (eventRecoverComplete s)

/-- SUSPEND_COMPLETE (R381). -/
def execSuspendComplete (s : State) : Outcome State Fault Refusal := .next (eventSuspendComplete s)

/-- TEST_PORT_INSTRUCTION [code, value] (R440): IDCODE and BYPASS, and every code while TAP and CPDBG are closed, change nothing; another
code acts on a unit whose behaviour the spec does not give. -/
def execTestPortInstruction (s : State) : Outcome State Fault Refusal := if s.testPortOpen then .refused .testPort else .next s

end Sys2Proof.Machine
end

