-- ==== Sys2Proof/Machine/Integer.lean ====
section
/-! DEFINITION. Integer, logic, compare and move instructions of both sets (R97 to R104). -/
namespace Sys2Proof.Machine
open Sys2Proof Host

/-! ### Results (R98, R99) -/

/-- The high half of the signed product. -/
def mulHigh (a b : Word) : Word := BitVec.ofInt 32 (a.toInt * b.toInt / 2 ^ 32)
/-- The high half of the unsigned product. -/
def mulHighU (a b : Word) : Word := BitVec.ofNat 32 (a.toNat * b.toNat / 2 ^ 32)
/-- Shifts: a count of 32 or more saturates (R98). -/
def shiftL (a b : Word) : Word := if b.toNat < 32 then a <<< b.toNat else 0
def shiftR (a b : Word) : Word := if b.toNat < 32 then a >>> b.toNat else 0
def shiftA (a b : Word) : Word := a.sshiftRight (min b.toNat 32)
def popCount (a : Word) : Word := BitVec.ofNat 32 ((List.range 32).filter fun i => a.getLsbD i).length
def leadingZeros (a : Word) : Word :=
  BitVec.ofNat 32 (match ((List.range 32).filter fun i => a.getLsbD i).getLast? with | some i => 31 - i | none => 32)
def bitReverse (a : Word) : Word := BitVec.ofNat 32 ((List.range 32).foldl (fun n i => 2 * n + (a.getLsbD i).toNat) 0)
/-- The effective length of a field descriptor (R99). -/
def fieldLen (b : Word) : Nat :=
  let pos := b.toNat % 256
  if pos < 32 then min (b.toNat / 256 % 256) (32 - pos) else 0
def bitExtract (a b : Word) : Word :=
  let n := fieldLen b
  let f := a.toNat / 2 ^ (b.toNat % 256) % 2 ^ n
  if n = 0 then 0
  else if b.getLsbD 16 && decide (2 ^ (n - 1) ≤ f) then BitVec.ofNat 32 (f + (2 ^ 32 - 2 ^ n)) else BitVec.ofNat 32 f
def bitInsert (a b d : Word) : Word :=
  let n := fieldLen b
  let pos := b.toNat % 256
  if n = 0 then d
  else
    let m : Word := BitVec.ofNat 32 ((2 ^ n - 1) * 2 ^ pos)
    (d &&& ~~~m) ||| ((a <<< pos) &&& m)

/-! ### Shapes -/

/-- A lane operation on A and B (R98, R100): poison is the OR of the sources'. -/
def laneBin (d a b : BitVec 7) (f : Word → Word → Word) (e : Env) (t : Nat) : TRes :=
  let x := e.vec a t; let y := e.vec b t
  { vw := [(e.g.num d, ⟨f x.val y.val, x.poison || y.poison⟩)] }
/-- A lane operation on A. -/
def laneUn (d a : BitVec 7) (f : Word → Word) (e : Env) (t : Nat) : TRes :=
  let x := e.vec a t
  { vw := [(e.g.num d, ⟨f x.val, x.poison⟩)] }
/-- A lane operation on A, B and D as third source (R40). -/
def laneTri (d a b : BitVec 7) (f : Word → Word → Word → Word) (e : Env) (t : Nat) : TRes :=
  let x := e.vec a t; let y := e.vec b t; let z := e.vec d t
  { vw := [(e.g.num d, ⟨f x.val y.val z.val, x.poison || y.poison || z.poison⟩)] }
/-- A lane carry operation (R98, R100): a poisoned source traps POISON, because the carry is a commit point. -/
def laneCarry (d a b : BitVec 7) (f : Word → Word → Bool → Word × Bool) (e : Env) (t : Nat) : TRes :=
  let x := e.vec a t; let y := e.vec b t
  if x.poison || y.poison then { err := some (trap .poison) }
  else
    let r := f x.val y.val (e.g.pr 6 t)
    { vw := [(e.g.num d, ⟨r.1, false⟩)], pw := [(6, r.2)] }
def uniBin (d a b : BitVec 7) (f : Word → Word → Word) (e : Env) : URes :=
  let x := e.uni a; let y := e.uni b
  { sw := [(d.toNat, ⟨f x.val y.val, x.poison || y.poison⟩)] }
def uniUn (d a : BitVec 7) (f : Word → Word) (e : Env) : URes :=
  let x := e.uni a
  { sw := [(d.toNat, ⟨f x.val, x.poison⟩)] }
def uniTri (d a b : BitVec 7) (f : Word → Word → Word → Word) (e : Env) : URes :=
  let x := e.uni a; let y := e.uni b; let z := e.uni d
  { sw := [(d.toNat, ⟨f x.val y.val z.val, x.poison || y.poison || z.poison⟩)] }
def uniCarry (d a b : BitVec 7) (f : Word → Word → Bool → Word × Bool) (e : Env) : URes :=
  let x := e.uni a; let y := e.uni b
  if x.poison || y.poison then { err := some (trap .poison) }
  else
    let r := f x.val y.val (e.g.qr 6)
    { sw := [(d.toNat, ⟨r.1, false⟩)], qw := [(6, r.2)] }

/-! ### Meanings -/


/-- IADD (R98): lane. -/
def execIadd (stl : BitVec 3) (d a b : BitVec 7) (s : State) : Outcome State Fault Refusal :=
  issueLane (.iadd stl d a b) (laneBin d a b (· + ·)) s
/-- IADD (R98): uniform. -/
def execIaddU (stl : BitVec 3) (d a b : BitVec 7) (s : State) : Outcome State Fault Refusal :=
  issueUniform (.iaddU stl d a b) (uniBin d a b (· + ·)) s
/-- ISUB (R98): lane. -/
def execIsub (stl : BitVec 3) (d a b : BitVec 7) (s : State) : Outcome State Fault Refusal :=
  issueLane (.isub stl d a b) (laneBin d a b (· - ·)) s
/-- ISUB (R98): uniform. -/
def execIsubU (stl : BitVec 3) (d a b : BitVec 7) (s : State) : Outcome State Fault Refusal :=
  issueUniform (.isubU stl d a b) (uniBin d a b (· - ·)) s
/-- IMUL (R98): lane. -/
def execImul (stl : BitVec 3) (d a b : BitVec 7) (s : State) : Outcome State Fault Refusal :=
  issueLane (.imul stl d a b) (laneBin d a b (· * ·)) s
/-- IMUL (R98): uniform. -/
def execImulU (stl : BitVec 3) (d a b : BitVec 7) (s : State) : Outcome State Fault Refusal :=
  issueUniform (.imulU stl d a b) (uniBin d a b (· * ·)) s
/-- IMULH (R98): lane. -/
def execImulh (stl : BitVec 3) (d a b : BitVec 7) (s : State) : Outcome State Fault Refusal :=
  issueLane (.imulh stl d a b) (laneBin d a b (mulHigh)) s
/-- IMULH (R98): uniform. -/
def execImulhU (stl : BitVec 3) (d a b : BitVec 7) (s : State) : Outcome State Fault Refusal :=
  issueUniform (.imulhU stl d a b) (uniBin d a b (mulHigh)) s
/-- IMULHU (R98): lane. -/
def execImulhu (stl : BitVec 3) (d a b : BitVec 7) (s : State) : Outcome State Fault Refusal :=
  issueLane (.imulhu stl d a b) (laneBin d a b (mulHighU)) s
/-- IMULHU (R98): uniform. -/
def execImulhuU (stl : BitVec 3) (d a b : BitVec 7) (s : State) : Outcome State Fault Refusal :=
  issueUniform (.imulhuU stl d a b) (uniBin d a b (mulHighU)) s
/-- IMIN (R98): lane. -/
def execImin (stl : BitVec 3) (d a b : BitVec 7) (s : State) : Outcome State Fault Refusal :=
  issueLane (.imin stl d a b) (laneBin d a b (fun x y => if x.slt y then x else y)) s
/-- IMIN (R98): uniform. -/
def execIminU (stl : BitVec 3) (d a b : BitVec 7) (s : State) : Outcome State Fault Refusal :=
  issueUniform (.iminU stl d a b) (uniBin d a b (fun x y => if x.slt y then x else y)) s
/-- IMAX (R98): lane. -/
def execImax (stl : BitVec 3) (d a b : BitVec 7) (s : State) : Outcome State Fault Refusal :=
  issueLane (.imax stl d a b) (laneBin d a b (fun x y => if x.slt y then y else x)) s
/-- IMAX (R98): uniform. -/
def execImaxU (stl : BitVec 3) (d a b : BitVec 7) (s : State) : Outcome State Fault Refusal :=
  issueUniform (.imaxU stl d a b) (uniBin d a b (fun x y => if x.slt y then y else x)) s
/-- IMINU (R98): lane. -/
def execIminu (stl : BitVec 3) (d a b : BitVec 7) (s : State) : Outcome State Fault Refusal :=
  issueLane (.iminu stl d a b) (laneBin d a b (fun x y => if x.ult y then x else y)) s
/-- IMINU (R98): uniform. -/
def execIminuU (stl : BitVec 3) (d a b : BitVec 7) (s : State) : Outcome State Fault Refusal :=
  issueUniform (.iminuU stl d a b) (uniBin d a b (fun x y => if x.ult y then x else y)) s
/-- IMAXU (R98): lane. -/
def execImaxu (stl : BitVec 3) (d a b : BitVec 7) (s : State) : Outcome State Fault Refusal :=
  issueLane (.imaxu stl d a b) (laneBin d a b (fun x y => if x.ult y then y else x)) s
/-- IMAXU (R98): uniform. -/
def execImaxuU (stl : BitVec 3) (d a b : BitVec 7) (s : State) : Outcome State Fault Refusal :=
  issueUniform (.imaxuU stl d a b) (uniBin d a b (fun x y => if x.ult y then y else x)) s
/-- AND (R98): lane. -/
def execAnd (stl : BitVec 3) (d a b : BitVec 7) (s : State) : Outcome State Fault Refusal :=
  issueLane (.and stl d a b) (laneBin d a b (· &&& ·)) s
/-- AND (R98): uniform. -/
def execAndU (stl : BitVec 3) (d a b : BitVec 7) (s : State) : Outcome State Fault Refusal :=
  issueUniform (.andU stl d a b) (uniBin d a b (· &&& ·)) s
/-- OR (R98): lane. -/
def execOr (stl : BitVec 3) (d a b : BitVec 7) (s : State) : Outcome State Fault Refusal :=
  issueLane (.or stl d a b) (laneBin d a b (· ||| ·)) s
/-- OR (R98): uniform. -/
def execOrU (stl : BitVec 3) (d a b : BitVec 7) (s : State) : Outcome State Fault Refusal :=
  issueUniform (.orU stl d a b) (uniBin d a b (· ||| ·)) s
/-- XOR (R98): lane. -/
def execXor (stl : BitVec 3) (d a b : BitVec 7) (s : State) : Outcome State Fault Refusal :=
  issueLane (.xor stl d a b) (laneBin d a b (· ^^^ ·)) s
/-- XOR (R98): uniform. -/
def execXorU (stl : BitVec 3) (d a b : BitVec 7) (s : State) : Outcome State Fault Refusal :=
  issueUniform (.xorU stl d a b) (uniBin d a b (· ^^^ ·)) s
/-- ANDN (R98): lane. -/
def execAndn (stl : BitVec 3) (d a b : BitVec 7) (s : State) : Outcome State Fault Refusal :=
  issueLane (.andn stl d a b) (laneBin d a b (fun x y => x &&& ~~~y)) s
/-- ANDN (R98): uniform. -/
def execAndnU (stl : BitVec 3) (d a b : BitVec 7) (s : State) : Outcome State Fault Refusal :=
  issueUniform (.andnU stl d a b) (uniBin d a b (fun x y => x &&& ~~~y)) s
/-- SHL (R98): lane. -/
def execShl (stl : BitVec 3) (d a b : BitVec 7) (s : State) : Outcome State Fault Refusal :=
  issueLane (.shl stl d a b) (laneBin d a b (shiftL)) s
/-- SHL (R98): uniform. -/
def execShlU (stl : BitVec 3) (d a b : BitVec 7) (s : State) : Outcome State Fault Refusal :=
  issueUniform (.shlU stl d a b) (uniBin d a b (shiftL)) s
/-- SHR (R98): lane. -/
def execShr (stl : BitVec 3) (d a b : BitVec 7) (s : State) : Outcome State Fault Refusal :=
  issueLane (.shr stl d a b) (laneBin d a b (shiftR)) s
/-- SHR (R98): uniform. -/
def execShrU (stl : BitVec 3) (d a b : BitVec 7) (s : State) : Outcome State Fault Refusal :=
  issueUniform (.shrU stl d a b) (uniBin d a b (shiftR)) s
/-- SAR (R98): lane. -/
def execSar (stl : BitVec 3) (d a b : BitVec 7) (s : State) : Outcome State Fault Refusal :=
  issueLane (.sar stl d a b) (laneBin d a b (shiftA)) s
/-- SAR (R98): uniform. -/
def execSarU (stl : BitVec 3) (d a b : BitVec 7) (s : State) : Outcome State Fault Refusal :=
  issueUniform (.sarU stl d a b) (uniBin d a b (shiftA)) s
/-- ROTL (R98): lane. -/
def execRotl (stl : BitVec 3) (d a b : BitVec 7) (s : State) : Outcome State Fault Refusal :=
  issueLane (.rotl stl d a b) (laneBin d a b (fun x y => x.rotateLeft (y.toNat % 32))) s
/-- ROTL (R98): uniform. -/
def execRotlU (stl : BitVec 3) (d a b : BitVec 7) (s : State) : Outcome State Fault Refusal :=
  issueUniform (.rotlU stl d a b) (uniBin d a b (fun x y => x.rotateLeft (y.toNat % 32))) s
/-- BFE (R98): lane. -/
def execBfe (stl : BitVec 3) (d a b : BitVec 7) (s : State) : Outcome State Fault Refusal :=
  issueLane (.bfe stl d a b) (laneBin d a b (bitExtract)) s
/-- BFE (R98): uniform. -/
def execBfeU (stl : BitVec 3) (d a b : BitVec 7) (s : State) : Outcome State Fault Refusal :=
  issueUniform (.bfeU stl d a b) (uniBin d a b (bitExtract)) s
/-- IADDC (R98, R100): lane. -/
def execIaddc (stl : BitVec 3) (d a b : BitVec 7) (s : State) : Outcome State Fault Refusal :=
  issueLane (.iaddc stl d a b) (laneCarry d a b addCarry) s
/-- IADDC (R98, R100): uniform. -/
def execIaddcU (stl : BitVec 3) (d a b : BitVec 7) (s : State) : Outcome State Fault Refusal :=
  issueUniform (.iaddcU stl d a b) (uniCarry d a b addCarry) s
/-- ISUBB (R98, R100): lane. -/
def execIsubb (stl : BitVec 3) (d a b : BitVec 7) (s : State) : Outcome State Fault Refusal :=
  issueLane (.isubb stl d a b) (laneCarry d a b subBorrow) s
/-- ISUBB (R98, R100): uniform. -/
def execIsubbU (stl : BitVec 3) (d a b : BitVec 7) (s : State) : Outcome State Fault Refusal :=
  issueUniform (.isubbU stl d a b) (uniCarry d a b subBorrow) s
/-- IMAD (R98, R99): lane. -/
def execImad (stl : BitVec 3) (d a b : BitVec 7) (s : State) : Outcome State Fault Refusal :=
  issueLane (.imad stl d a b) (laneTri d a b (fun x y z => x * y + z)) s
/-- IMAD (R98, R99): uniform. -/
def execImadU (stl : BitVec 3) (d a b : BitVec 7) (s : State) : Outcome State Fault Refusal :=
  issueUniform (.imadU stl d a b) (uniTri d a b (fun x y z => x * y + z)) s
/-- BFI (R98, R99): lane. -/
def execBfi (stl : BitVec 3) (d a b : BitVec 7) (s : State) : Outcome State Fault Refusal :=
  issueLane (.bfi stl d a b) (laneTri d a b (bitInsert)) s
/-- BFI (R98, R99): uniform. -/
def execBfiU (stl : BitVec 3) (d a b : BitVec 7) (s : State) : Outcome State Fault Refusal :=
  issueUniform (.bfiU stl d a b) (uniTri d a b (bitInsert)) s
/-- POPC (R98, R102): lane. -/
def execPopc (stl : BitVec 3) (d a : BitVec 7) (s : State) : Outcome State Fault Refusal :=
  issueLane (.popc stl d a) (laneUn d a popCount) s
/-- POPC (R98, R102): uniform. -/
def execPopcU (stl : BitVec 3) (d a : BitVec 7) (s : State) : Outcome State Fault Refusal :=
  issueUniform (.popcU stl d a) (uniUn d a popCount) s
/-- CLZ (R98, R102): lane. -/
def execClz (stl : BitVec 3) (d a : BitVec 7) (s : State) : Outcome State Fault Refusal :=
  issueLane (.clz stl d a) (laneUn d a leadingZeros) s
/-- CLZ (R98, R102): uniform. -/
def execClzU (stl : BitVec 3) (d a : BitVec 7) (s : State) : Outcome State Fault Refusal :=
  issueUniform (.clzU stl d a) (uniUn d a leadingZeros) s
/-- BREV (R98, R102): lane. -/
def execBrev (stl : BitVec 3) (d a : BitVec 7) (s : State) : Outcome State Fault Refusal :=
  issueLane (.brev stl d a) (laneUn d a bitReverse) s
/-- BREV (R98, R102): uniform. -/
def execBrevU (stl : BitVec 3) (d a : BitVec 7) (s : State) : Outcome State Fault Refusal :=
  issueUniform (.brevU stl d a) (uniUn d a bitReverse) s
/-- MOV (R98, R102): lane. -/
def execMov (stl : BitVec 3) (d a : BitVec 7) (s : State) : Outcome State Fault Refusal :=
  issueLane (.mov stl d a) (laneUn d a id) s
/-- MOV (R98, R102): uniform. -/
def execMovU (stl : BitVec 3) (d a : BitVec 7) (s : State) : Outcome State Fault Refusal :=
  issueUniform (.movU stl d a) (uniUn d a id) s
/-- ICMP (R41, R102): lane; a poisoned source traps POISON. -/
def execIcmp (stl : BitVec 3) (c : BitVec 4) (p : BitVec 3) (a b : BitVec 7) (s : State) : Outcome State Fault Refusal :=
  issueLane (.icmp stl c p a b) (fun e t =>
    let x := e.vec a t; let y := e.vec b t
    if x.poison || y.poison then { err := some (trap .poison) } else { pw := [(p.toNat, intCond c x.val y.val)] }) s
/-- ICMP (R41, R102): uniform. -/
def execIcmpU (stl : BitVec 3) (c : BitVec 4) (p : BitVec 3) (a b : BitVec 7) (s : State) : Outcome State Fault Refusal :=
  issueUniform (.icmpU stl c p a b) (fun e =>
    let x := e.uni a; let y := e.uni b
    if x.poison || y.poison then { err := some (trap .poison) } else { qw := [(p.toNat, intCond c x.val y.val)] }) s
/-- CMOV (R102): lane; D keeps its value and poison where the predicate is false. -/
def execCmov (stl : BitVec 3) (d : BitVec 7) (k n : BitVec 1) (p : BitVec 3) (b : BitVec 7) (s : State) : Outcome State Fault Refusal :=
  issueLane (.cmov stl d k n p b) (fun e t => { vw := if e.pred k n p t then [(e.g.num d, e.vec b t)] else [] }) s
/-- CMOV (R102): uniform. -/
def execCmovU (stl : BitVec 3) (d : BitVec 7) (k n : BitVec 1) (p : BitVec 3) (b : BitVec 7) (s : State) : Outcome State Fault Refusal :=
  issueUniform (.cmovU stl d k n p b) (fun e => { sw := if e.upred k n p then [(d.toNat, e.uni b)] else [] }) s
/-- MOVI (R42, R102): lane. -/
def execMovi (stl : BitVec 3) (d : BitVec 7) (imm : BitVec 14) (s : State) : Outcome State Fault Refusal :=
  issueLane (.movi stl d imm) (fun e _ => { vw := [(e.g.num d, ⟨imm.signExtend 32, false⟩)] }) s
/-- MOVI (R42, R102): uniform. -/
def execMoviU (stl : BitVec 3) (d : BitVec 7) (imm : BitVec 14) (s : State) : Outcome State Fault Refusal :=
  issueUniform (.moviU stl d imm) (fun _ => { sw := [(d.toNat, ⟨imm.signExtend 32, false⟩)] }) s
/-- MOVU to a vector register (R102). -/
def execMovu (stl : BitVec 3) (d a : BitVec 7) (s : State) : Outcome State Fault Refusal :=
  issueLane (.movu stl d a) (fun e _ => { vw := [(e.g.num d, e.uni a)] }) s
/-- MOVU to an index register, once for the group (R102): an index-register result is a commit point for poison. -/
def execMovuX (stl : BitVec 3) (d a : BitVec 7) (s : State) : Outcome State Fault Refusal :=
  issueUniform (.movuX stl d a) (fun e =>
    if (e.uni a).poison then { err := some (trap .poison) } else { xw := [(d.toNat, (e.uni a).val)] }) s
/-- RDLANE (R103): a thread not active in the issuing path reads as 0, poison clear. -/
def execRdlane (stl : BitVec 3) (d a t : BitVec 7) (s : State) : Outcome State Fault Refusal :=
  issueUniform (.rdlane stl d a t) (fun e =>
    { sw := [(d.toNat, if e.p.mask.getLsbD t.toNat then e.vec a t.toNat else RegVal.zero)] }) s
/-- LIMM (R104): lane. -/
def execLimm (stl : BitVec 3) (d : BitVec 7) (imm : BitVec 32) (s : State) : Outcome State Fault Refusal :=
  issueLane (.limm stl d imm) (fun e _ => { vw := [(e.g.num d, ⟨imm, false⟩)] }) s
/-- LIMM (R104): uniform. -/
def execLimmU (stl : BitVec 3) (d : BitVec 7) (imm : BitVec 32) (s : State) : Outcome State Fault Refusal :=
  issueUniform (.limmU stl d imm) (fun _ => { sw := [(d.toNat, ⟨imm, false⟩)] }) s
/-- IADDI (R104): lane. -/
def execIaddi (stl : BitVec 3) (d a : BitVec 7) (imm : BitVec 32) (s : State) : Outcome State Fault Refusal :=
  issueLane (.iaddi stl d a imm) (laneUn d a (· + imm)) s
/-- IADDI (R104): uniform. -/
def execIaddiU (stl : BitVec 3) (d a : BitVec 7) (imm : BitVec 32) (s : State) : Outcome State Fault Refusal :=
  issueUniform (.iaddiU stl d a imm) (uniUn d a (· + imm)) s
/-- LEA (R104): no access and no check. -/
def execLea (stl : BitVec 3) (d a : BitVec 7) (off : BitVec 20) (s : State) : Outcome State Fault Refusal :=
  issueUniform (.lea stl d a off) (fun e =>
    let (x, z) := e.upair a
    let y := x + off.signExtend 64
    { sw := [(d.toNat, ⟨y.extractLsb' 0 32, z⟩), (d.toNat + 1, ⟨y.extractLsb' 32 32, z⟩)] }) s

end Sys2Proof.Machine
end

