-- ==== Sys2Proof/Machine/Tasks.lean ====
section
/-! DEFINITION. The task instructions TARM, TSTAT, TRESET and TMARK (R235 to R237, R242, R450). -/
namespace Sys2Proof.Machine
open Sys2Proof Host

/-- A TCB index operand (R235): poison, then the table size. -/
def Env.tcbIndex (e : Env) (a : BitVec 7) : Except Trap Nat :=
  let x := e.uni a
  if x.poison then .error (trap .poison)
  else if (e.s.ctx e.b.ctx).tcbcnt ≤ x.val.toNat then .error (trap .task) else .ok x.val.toNat

/-- TARM (R235, R236): a release at .PKG, then the arm at the TCB's home, in the order of its clock (R351). -/
def execTarm (stl : BitVec 3) (a : BitVec 7) (s : State) : Outcome State Fault Refusal :=
  issueEffect (.tarm stl a) (fun e =>
    match e.tcbIndex a with
    | .error t => .error t
    | .ok idx => .ok (e.release s (.tarm e.b.ctx idx))) s

/-- A release takes effect (R194, R235). -/
def State.perform (s : State) (a : Act) : State :=
  let s1 := { s with acts := s.acts.filter fun x => x.id != a.id }
  match a.kind with
  | .oprdy bk bank => match s1.blk bk with | some b => s1.addToken b.core bk bank | none => s1
  | .tarm ctx idx => s1.armLater ⟨1, a.id, a.core, ctx, idx, 0⟩

/-- The release that takes effect next: of those whose path's earlier accesses are performed (R282), in ascending core and in issue order of one
core (R351). -/
def State.actNow (s : State) : Option State :=
  ((s.acts.filter fun a => !s.unsettled a.gk a.mask a.id).foldl (fun (b : Option Act) a =>
    match b with | none => some a | some x => if a.core < x.core then some a else some x) none).map s.perform

/-- TSTAT (R235, R242, R348): a TCB that cannot be read gives 0 and a KIND 8 record; an image that reads WAITING or READY is held from then on. -/
def execTstat (stl : BitVec 3) (d a x : BitVec 7) (s : State) : Outcome State Fault Refusal :=
  issueEffect (.tstat stl d a x) (fun e =>
    if e.b.det then .error (trap .determ)
    else match e.tcbIndex a with
      | .error t => .error t
      | .ok idx =>
        let s := s.meetTcb e.b.ctx idx
        match s.tcb e.b.ctx idx with
        | .error c => .ok ((s.report e.b.core (checkRec e.b.ctx idx c.code idx)).uniformResult e.gk d.toNat [0] false)
        | .ok t =>
          let s := if t.status = 1 ∨ t.status = 2 then s.setTask e.b.ctx idx t else s
          let w : Word := match x.toNat with
            | 0 => BitVec.ofNat 32 t.status | 1 => t.depcnt | 2 => BitVec.ofNat 32 t.retired | _ => BitVec.ofNat 32 t.overarm
          .ok (s.uniformResult e.gk d.toNat [w] false)) s

/-- TRESET (R237). -/
def execTreset (stl : BitVec 3) (a b : BitVec 7) (s : State) : Outcome State Fault Refusal :=
  issueEffect (.treset stl a b) (fun e =>
    if (e.uni b).poison then .error (trap .poison)
    else match e.tcbIndex a with
      | .error t => .error t
      | .ok idx => match s.taskReset e.b.ctx idx e.b.task (e.uni b).val with
        | .error c => .error (trap c)
        | .ok s1 => .ok s1) s

/-- TMARK (R235, R450). -/
def execTmark (stl : BitVec 3) (mark : BitVec 32) (s : State) : Outcome State Fault Refusal :=
  issueEffect (.tmark stl mark) (fun e => .ok (s.traceRec e.gk e.pi e.p.pc e.p.mask 7 mark.toNat)) s

end Sys2Proof.Machine
end

