-- ==== Sys2Proof/Machine/Dispatch.lean ====
section
/-! DEFINITION. The one match from instructions to their meanings. -/
namespace Sys2Proof.Machine
open Sys2Proof

/-- The meaning of an instruction or of an event. -/
def exec (i : Instr) (s : State) : Host.Outcome State Fault Refusal :=
  match i with
  | .iadd stl d a b => Sys2Proof.Machine.execIadd stl d a b s
  | .isub stl d a b => Sys2Proof.Machine.execIsub stl d a b s
  | .iaddc stl d a b => Sys2Proof.Machine.execIaddc stl d a b s
  | .isubb stl d a b => Sys2Proof.Machine.execIsubb stl d a b s
  | .imul stl d a b => Sys2Proof.Machine.execImul stl d a b s
  | .imulh stl d a b => Sys2Proof.Machine.execImulh stl d a b s
  | .imulhu stl d a b => Sys2Proof.Machine.execImulhu stl d a b s
  | .imad stl d a b => Sys2Proof.Machine.execImad stl d a b s
  | .imin stl d a b => Sys2Proof.Machine.execImin stl d a b s
  | .imax stl d a b => Sys2Proof.Machine.execImax stl d a b s
  | .iminu stl d a b => Sys2Proof.Machine.execIminu stl d a b s
  | .imaxu stl d a b => Sys2Proof.Machine.execImaxu stl d a b s
  | .and stl d a b => Sys2Proof.Machine.execAnd stl d a b s
  | .or stl d a b => Sys2Proof.Machine.execOr stl d a b s
  | .xor stl d a b => Sys2Proof.Machine.execXor stl d a b s
  | .andn stl d a b => Sys2Proof.Machine.execAndn stl d a b s
  | .shl stl d a b => Sys2Proof.Machine.execShl stl d a b s
  | .shr stl d a b => Sys2Proof.Machine.execShr stl d a b s
  | .sar stl d a b => Sys2Proof.Machine.execSar stl d a b s
  | .rotl stl d a b => Sys2Proof.Machine.execRotl stl d a b s
  | .popc stl d a => Sys2Proof.Machine.execPopc stl d a s
  | .clz stl d a => Sys2Proof.Machine.execClz stl d a s
  | .brev stl d a => Sys2Proof.Machine.execBrev stl d a s
  | .bfe stl d a b => Sys2Proof.Machine.execBfe stl d a b s
  | .bfi stl d a b => Sys2Proof.Machine.execBfi stl d a b s
  | .icmp stl c p a b => Sys2Proof.Machine.execIcmp stl c p a b s
  | .fcmp stl c p a b => Sys2Proof.Machine.execFcmp stl c p a b s
  | .cmov stl d k n p b => Sys2Proof.Machine.execCmov stl d k n p b s
  | .mov stl d a => Sys2Proof.Machine.execMov stl d a s
  | .movi stl d imm => Sys2Proof.Machine.execMovi stl d imm s
  | .dcmp stl c p a b => Sys2Proof.Machine.execDcmp stl c p a b s
  | .movu stl d a => Sys2Proof.Machine.execMovu stl d a s
  | .movuX stl d a => Sys2Proof.Machine.execMovuX stl d a s
  | .fadd stl d a b => Sys2Proof.Machine.execFadd stl d a b s
  | .fsub stl d a b => Sys2Proof.Machine.execFsub stl d a b s
  | .fmul stl d a b => Sys2Proof.Machine.execFmul stl d a b s
  | .ffma stl d a b => Sys2Proof.Machine.execFfma stl d a b s
  | .fmin stl d a b => Sys2Proof.Machine.execFmin stl d a b s
  | .fmax stl d a b => Sys2Proof.Machine.execFmax stl d a b s
  | .fcpys stl d a b => Sys2Proof.Machine.execFcpys stl d a b s
  | .fcvt stl d a c m => Sys2Proof.Machine.execFcvt stl d a c m s
  | .frnd stl d a m => Sys2Proof.Machine.execFrnd stl d a m s
  | .fclass stl d a => Sys2Proof.Machine.execFclass stl d a s
  | .dadd stl d a b => Sys2Proof.Machine.execDadd stl d a b s
  | .dmul stl d a b => Sys2Proof.Machine.execDmul stl d a b s
  | .dfma stl d a b => Sys2Proof.Machine.execDfma stl d a b s
  | .dmin stl d a b => Sys2Proof.Machine.execDmin stl d a b s
  | .dmax stl d a b => Sys2Proof.Machine.execDmax stl d a b s
  | .dcvt stl d a c m => Sys2Proof.Machine.execDcvt stl d a c m s
  | .rcp stl d a => Sys2Proof.Machine.execRcp stl d a s
  | .rsq stl d a => Sys2Proof.Machine.execRsq stl d a s
  | .sqrt stl d a => Sys2Proof.Machine.execSqrt stl d a s
  | .exp2 stl d a => Sys2Proof.Machine.execExp2 stl d a s
  | .log2 stl d a => Sys2Proof.Machine.execLog2 stl d a s
  | .sinpi stl d a => Sys2Proof.Machine.execSinpi stl d a s
  | .cospi stl d a => Sys2Proof.Machine.execCospi stl d a s
  | .tanh stl d a => Sys2Proof.Machine.execTanh stl d a s
  | .sigm stl d a => Sys2Proof.Machine.execSigm stl d a s
  | .erf stl d a => Sys2Proof.Machine.execErf stl d a s
  | .gelu stl d a => Sys2Proof.Machine.execGelu stl d a s
  | .silu stl d a => Sys2Proof.Machine.execSilu stl d a s
  | .zadd stl d a b => Sys2Proof.Machine.execZadd stl d a b s
  | .zmul stl d a b => Sys2Proof.Machine.execZmul stl d a b s
  | .zfma stl d a b => Sys2Proof.Machine.execZfma stl d a b s
  | .zop stl d a o => Sys2Proof.Machine.execZop stl d a o s
  | .wadd stl d a b => Sys2Proof.Machine.execWadd stl d a b s
  | .wsub stl d a b => Sys2Proof.Machine.execWsub stl d a b s
  | .wmul stl d a b => Sys2Proof.Machine.execWmul stl d a b s
  | .wfma stl d a b => Sys2Proof.Machine.execWfma stl d a b s
  | .wmin stl d a b => Sys2Proof.Machine.execWmin stl d a b s
  | .wmax stl d a b => Sys2Proof.Machine.execWmax stl d a b s
  | .wscl stl d a b => Sys2Proof.Machine.execWscl stl d a b s
  | .wbcst stl d a => Sys2Proof.Machine.execWbcst stl d a s
  | .wsum stl d a => Sys2Proof.Machine.execWsum stl d a s
  | .wexp stl d a => Sys2Proof.Machine.execWexp stl d a s
  | .whero stl d a => Sys2Proof.Machine.execWhero stl d a s
  | .wlut stl d a b => Sys2Proof.Machine.execWlut stl d a b s
  | .wcmf stl d a b => Sys2Proof.Machine.execWcmf stl d a b s
  | .wrots stl d a b => Sys2Proof.Machine.execWrots stl d a b s
  | .wmuel stl d a b => Sys2Proof.Machine.execWmuel stl d a b s
  | .wfres stl d a b => Sys2Proof.Machine.execWfres stl d a b s
  | .vote stl d k n p m => Sys2Proof.Machine.execVote stl d k n p m s
  | .shfl stl d a m c => Sys2Proof.Machine.execShfl stl d a m c s
  | .pushl stl d a b => Sys2Proof.Machine.execPushl stl d a b s
  | .tred stl d a o => Sys2Proof.Machine.execTred stl d a o s
  | .brc stl off k n p => Sys2Proof.Machine.execBrc stl off k n p s
  | .brx stl a => Sys2Proof.Machine.execBrx stl a s
  | .callx stl d a => Sys2Proof.Machine.execCallx stl d a s
  | .ret stl a => Sys2Proof.Machine.execRet stl a s
  | .exit stl => Sys2Proof.Machine.execExit stl s
  | .xsend stl g a c => Sys2Proof.Machine.execXsend stl g a c s
  | .xrecv stl d g c => Sys2Proof.Machine.execXrecv stl d g c s
  | .rng stl d a b => Sys2Proof.Machine.execRng stl d a b s
  | .sread stl d n => Sys2Proof.Machine.execSread stl d n s
  | .waitr stl q => Sys2Proof.Machine.execWaitr stl q s
  | .join stl => Sys2Proof.Machine.execJoin stl s
  | .trapp stl code k n p => Sys2Proof.Machine.execTrapp stl code k n p s
  | .ld stl d a size sign scope subop off => Sys2Proof.Machine.execLd stl d a size sign scope subop off s
  | .st stl d a size sign scope subop off => Sys2Proof.Machine.execSt stl d a size sign scope subop off s
  | .ldw stl d a size sign scope subop off => Sys2Proof.Machine.execLdw stl d a size sign scope subop off s
  | .stw stl d a size sign scope subop off => Sys2Proof.Machine.execStw stl d a size sign scope subop off s
  | .ldfe stl d a size sign scope subop off => Sys2Proof.Machine.execLdfe stl d a size sign scope subop off s
  | .stfe stl d a size sign scope subop off => Sys2Proof.Machine.execStfe stl d a size sign scope subop off s
  | .atom stl d a b size sign scope subop off => Sys2Proof.Machine.execAtom stl d a b size sign scope subop off s
  | .red stl a b size sign scope subop off => Sys2Proof.Machine.execRed stl a b size sign scope subop off s
  | .atomf stl d a b size sign scope subop off => Sys2Proof.Machine.execAtomf stl d a b size sign scope subop off s
  | .cvtfx stl d a dir rm fxw frac => Sys2Proof.Machine.execCvtfx stl d a dir rm fxw frac s
  | .atomx stl a b size sign scope subop off => Sys2Proof.Machine.execAtomx stl a b size sign scope subop off s
  | .ldpoll stl d a size sign scope subop off => Sys2Proof.Machine.execLdpoll stl d a size sign scope subop off s
  | .filmadd stl a b film nch => Sys2Proof.Machine.execFilmadd stl a b film nch s
  | .limm stl d imm => Sys2Proof.Machine.execLimm stl d imm s
  | .iaddi stl d a imm => Sys2Proof.Machine.execIaddi stl d a imm s
  | .fmuli stl d a imm => Sys2Proof.Machine.execFmuli stl d a imm s
  | .trace stl d a b pop flags mask => Sys2Proof.Machine.execTrace stl d a b pop flags mask s
  | .spawn stl k p a b sel => Sys2Proof.Machine.execSpawn stl k p a b sel s
  | .hita stl d sel => Sys2Proof.Machine.execHita stl d sel s
  | .hitc stl d a sel => Sys2Proof.Machine.execHitc stl d a sel s
  | .tex stl d a desc samp => Sys2Proof.Machine.execTex stl d a desc samp s
  | .wtex stl d a b desc samp => Sys2Proof.Machine.execWtex stl d a b desc samp s
  | .neval stl d a b nin nout => Sys2Proof.Machine.execNeval stl d a b nin nout s
  | .mmaq stl d a b slot km nm win => Sys2Proof.Machine.execMmaq stl d a b slot km nm win s
  | .mrd stl d b tile col row => Sys2Proof.Machine.execMrd stl d b tile col row s
  | .mwr stl d b tile col row => Sys2Proof.Machine.execMwr stl d b tile col row s
  | .msync stl bank => Sys2Proof.Machine.execMsync stl bank s
  | .oprdy stl bank => Sys2Proof.Machine.execOprdy stl bank s
  | .tdraw stl d a b tree strat keyed vchk => Sys2Proof.Machine.execTdraw stl d a b tree strat keyed vchk s
  | .tupd stl a tree => Sys2Proof.Machine.execTupd stl a tree s
  | .tins stl d a tree => Sys2Proof.Machine.execTins stl d a tree s
  | .iaddU stl d a b => Sys2Proof.Machine.execIaddU stl d a b s
  | .isubU stl d a b => Sys2Proof.Machine.execIsubU stl d a b s
  | .iaddcU stl d a b => Sys2Proof.Machine.execIaddcU stl d a b s
  | .isubbU stl d a b => Sys2Proof.Machine.execIsubbU stl d a b s
  | .imulU stl d a b => Sys2Proof.Machine.execImulU stl d a b s
  | .imulhU stl d a b => Sys2Proof.Machine.execImulhU stl d a b s
  | .imulhuU stl d a b => Sys2Proof.Machine.execImulhuU stl d a b s
  | .imadU stl d a b => Sys2Proof.Machine.execImadU stl d a b s
  | .iminU stl d a b => Sys2Proof.Machine.execIminU stl d a b s
  | .imaxU stl d a b => Sys2Proof.Machine.execImaxU stl d a b s
  | .iminuU stl d a b => Sys2Proof.Machine.execIminuU stl d a b s
  | .imaxuU stl d a b => Sys2Proof.Machine.execImaxuU stl d a b s
  | .andU stl d a b => Sys2Proof.Machine.execAndU stl d a b s
  | .orU stl d a b => Sys2Proof.Machine.execOrU stl d a b s
  | .xorU stl d a b => Sys2Proof.Machine.execXorU stl d a b s
  | .andnU stl d a b => Sys2Proof.Machine.execAndnU stl d a b s
  | .shlU stl d a b => Sys2Proof.Machine.execShlU stl d a b s
  | .shrU stl d a b => Sys2Proof.Machine.execShrU stl d a b s
  | .sarU stl d a b => Sys2Proof.Machine.execSarU stl d a b s
  | .rotlU stl d a b => Sys2Proof.Machine.execRotlU stl d a b s
  | .popcU stl d a => Sys2Proof.Machine.execPopcU stl d a s
  | .clzU stl d a => Sys2Proof.Machine.execClzU stl d a s
  | .brevU stl d a => Sys2Proof.Machine.execBrevU stl d a s
  | .bfeU stl d a b => Sys2Proof.Machine.execBfeU stl d a b s
  | .bfiU stl d a b => Sys2Proof.Machine.execBfiU stl d a b s
  | .icmpU stl c p a b => Sys2Proof.Machine.execIcmpU stl c p a b s
  | .fcmpU stl c p a b => Sys2Proof.Machine.execFcmpU stl c p a b s
  | .cmovU stl d k n p b => Sys2Proof.Machine.execCmovU stl d k n p b s
  | .movU stl d a => Sys2Proof.Machine.execMovU stl d a s
  | .moviU stl d imm => Sys2Proof.Machine.execMoviU stl d imm s
  | .dcmpU stl c p a b => Sys2Proof.Machine.execDcmpU stl c p a b s
  | .rdlane stl d a t => Sys2Proof.Machine.execRdlane stl d a t s
  | .faddU stl d a b => Sys2Proof.Machine.execFaddU stl d a b s
  | .fsubU stl d a b => Sys2Proof.Machine.execFsubU stl d a b s
  | .fmulU stl d a b => Sys2Proof.Machine.execFmulU stl d a b s
  | .ffmaU stl d a b => Sys2Proof.Machine.execFfmaU stl d a b s
  | .fminU stl d a b => Sys2Proof.Machine.execFminU stl d a b s
  | .fmaxU stl d a b => Sys2Proof.Machine.execFmaxU stl d a b s
  | .fcpysU stl d a b => Sys2Proof.Machine.execFcpysU stl d a b s
  | .fcvtU stl d a c m => Sys2Proof.Machine.execFcvtU stl d a c m s
  | .frndU stl d a m => Sys2Proof.Machine.execFrndU stl d a m s
  | .fclassU stl d a => Sys2Proof.Machine.execFclassU stl d a s
  | .daddU stl d a b => Sys2Proof.Machine.execDaddU stl d a b s
  | .dmulU stl d a b => Sys2Proof.Machine.execDmulU stl d a b s
  | .dfmaU stl d a b => Sys2Proof.Machine.execDfmaU stl d a b s
  | .dminU stl d a b => Sys2Proof.Machine.execDminU stl d a b s
  | .dmaxU stl d a b => Sys2Proof.Machine.execDmaxU stl d a b s
  | .dcvtU stl d a c m => Sys2Proof.Machine.execDcvtU stl d a c m s
  | .br stl off => Sys2Proof.Machine.execBr stl off s
  | .brq stl off k n p => Sys2Proof.Machine.execBrq stl off k n p s
  | .call stl off => Sys2Proof.Machine.execCall stl off s
  | .jmps stl a => Sys2Proof.Machine.execJmps stl a s
  | .exitg stl => Sys2Proof.Machine.execExitg stl s
  | .yield stl => Sys2Proof.Machine.execYield stl s
  | .nop stl => Sys2Proof.Machine.execNop stl s
  | .bkpt stl code => Sys2Proof.Machine.execBkpt stl code s
  | .trap stl code => Sys2Proof.Machine.execTrap stl code s
  | .sreadU stl d n => Sys2Proof.Machine.execSreadU stl d n s
  | .swrite stl n a => Sys2Proof.Machine.execSwrite stl n a s
  | .waitblk stl a => Sys2Proof.Machine.execWaitblk stl a s
  | .racq stl => Sys2Proof.Machine.execRacq stl s
  | .rrel stl => Sys2Proof.Machine.execRrel stl s
  | .lease stl k p a => Sys2Proof.Machine.execLease stl k p a s
  | .lrel stl => Sys2Proof.Machine.execLrel stl s
  | .bari stl k a b => Sys2Proof.Machine.execBari stl k a b s
  | .bara stl d a => Sys2Proof.Machine.execBara stl d a s
  | .barw stl a b => Sys2Proof.Machine.execBarw stl a b s
  | .baraw stl d a => Sys2Proof.Machine.execBaraw stl d a s
  | .nbar stl v n b => Sys2Proof.Machine.execNbar stl v n b s
  | .hbar stl c => Sys2Proof.Machine.execHbar stl c s
  | .fence stl k c => Sys2Proof.Machine.execFence stl k c s
  | .mwait stl d a b => Sys2Proof.Machine.execMwait stl d a b s
  | .swaitp stl g a b => Sys2Proof.Machine.execSwaitp stl g a b s
  | .ssig stl g a => Sys2Proof.Machine.execSsig stl g a s
  | .cpy stl r t c a => Sys2Proof.Machine.execCpy stl r t c a s
  | .cpym stl r t c a => Sys2Proof.Machine.execCpym stl r t c a s
  | .dec stl r t c a => Sys2Proof.Machine.execDec stl r t c a s
  | .chain stl c a => Sys2Proof.Machine.execChain stl c a s
  | .ewait stl c a => Sys2Proof.Machine.execEwait stl c a s
  | .ecnt stl d c o => Sys2Proof.Machine.execEcnt stl d c o s
  | .mmas stl y l k n a => Sys2Proof.Machine.execMmas stl y l k n a s
  | .bld stl n a => Sys2Proof.Machine.execBld stl n a s
  | .memit stl k a => Sys2Proof.Machine.execMemit stl k a s
  | .tcommit stl d t => Sys2Proof.Machine.execTcommit stl d t s
  | .tver stl d t e => Sys2Proof.Machine.execTver stl d t e s
  | .tblld stl k a c => Sys2Proof.Machine.execTblld stl k a c s
  | .tarm stl a => Sys2Proof.Machine.execTarm stl a s
  | .tstat stl d a e => Sys2Proof.Machine.execTstat stl d a e s
  | .treset stl a b => Sys2Proof.Machine.execTreset stl a b s
  | .wcnt stl d a e => Sys2Proof.Machine.execWcnt stl d a e s
  | .wwait stl e a b => Sys2Proof.Machine.execWwait stl e a b s
  | .ffence stl a => Sys2Proof.Machine.execFfence stl a s
  | .ldU stl d a size sign scope subop off => Sys2Proof.Machine.execLdU stl d a size sign scope subop off s
  | .stU stl d a size sign scope subop off => Sys2Proof.Machine.execStU stl d a size sign scope subop off s
  | .atomU stl d a b size sign scope subop off => Sys2Proof.Machine.execAtomU stl d a b size sign scope subop off s
  | .redU stl a b size sign scope subop off => Sys2Proof.Machine.execRedU stl a b size sign scope subop off s
  | .limmU stl d imm => Sys2Proof.Machine.execLimmU stl d imm s
  | .iaddiU stl d a imm => Sys2Proof.Machine.execIaddiU stl d a imm s
  | .ldpollU stl d a size sign scope subop off => Sys2Proof.Machine.execLdpollU stl d a size sign scope subop off s
  | .lea stl d a off => Sys2Proof.Machine.execLea stl d a off s
  | .put stl a win => Sys2Proof.Machine.execPut stl a win s
  | .putf stl a win => Sys2Proof.Machine.execPutf stl a win s
  | .faar stl d a win => Sys2Proof.Machine.execFaar stl d a win s
  | .casr stl d a win => Sys2Proof.Machine.execCasr stl d a win s
  | .tmark stl mark => Sys2Proof.Machine.execTmark stl mark s
  | .unassignedOpcode w => Sys2Proof.Machine.execUnassignedOpcode w s
  | .stallCountdownExpiry => Sys2Proof.Machine.execStallCountdownExpiry s
  | .unitRelease => Sys2Proof.Machine.execUnitRelease s
  | .starvationPromotion => Sys2Proof.Machine.execStarvationPromotion s
  | .grantChange => Sys2Proof.Machine.execGrantChange s
  | .fixedLatencyResult => Sys2Proof.Machine.execFixedLatencyResult s
  | .variableResultWrite => Sys2Proof.Machine.execVariableResultWrite s
  | .pathMerge => Sys2Proof.Machine.execPathMerge s
  | .spillReturn => Sys2Proof.Machine.execSpillReturn s
  | .spillRotation => Sys2Proof.Machine.execSpillRotation s
  | .hangReport => Sys2Proof.Machine.execHangReport s
  | .ldpollBackoffExpiry => Sys2Proof.Machine.execLdpollBackoffExpiry s
  | .mwaitWake => Sys2Proof.Machine.execMwaitWake s
  | .loadAtHome => Sys2Proof.Machine.execLoadAtHome s
  | .storePerformed => Sys2Proof.Machine.execStorePerformed s
  | .atomicAtHome => Sys2Proof.Machine.execAtomicAtHome s
  | .atomicMerge => Sys2Proof.Machine.execAtomicMerge s
  | .fullEmptyAtHome => Sys2Proof.Machine.execFullEmptyAtHome s
  | .barrierArrival => Sys2Proof.Machine.execBarrierArrival s
  | .impreciseStoreFault => Sys2Proof.Machine.execImpreciseStoreFault s
  | .coalescerClose => Sys2Proof.Machine.execCoalescerClose s
  | .eventRingWrite => Sys2Proof.Machine.execEventRingWrite s
  | .msixModerationExpiry => Sys2Proof.Machine.execMsixModerationExpiry s
  | .bldLoadStart => Sys2Proof.Machine.execBldLoadStart s
  | .bldComplete => Sys2Proof.Machine.execBldComplete s
  | .aRowFillComplete => Sys2Proof.Machine.execARowFillComplete s
  | .passStart => Sys2Proof.Machine.execPassStart s
  | .passEnd => Sys2Proof.Machine.execPassEnd s
  | .mmaqWriteback => Sys2Proof.Machine.execMmaqWriteback s
  | .chorusWriteback => Sys2Proof.Machine.execChorusWriteback s
  | .memitComplete => Sys2Proof.Machine.execMemitComplete s
  | .accumPortAccess => Sys2Proof.Machine.execAccumPortAccess s
  | .slotRestore => Sys2Proof.Machine.execSlotRestore s
  | .leaseClaimLapse => Sys2Proof.Machine.execLeaseClaimLapse s
  | .leaseFree => Sys2Proof.Machine.execLeaseFree s
  | .chorusWindowClose => Sys2Proof.Machine.execChorusWindowClose s
  | .chorusTileClose => Sys2Proof.Machine.execChorusTileClose s
  | .chorusHandleLoadStart => Sys2Proof.Machine.execChorusHandleLoadStart s
  | .chorusHandleLoadEnd => Sys2Proof.Machine.execChorusHandleLoadEnd s
  | .copyArrival => Sys2Proof.Machine.execCopyArrival s
  | .copyComplete => Sys2Proof.Machine.execCopyComplete s
  | .decChunkDecode => Sys2Proof.Machine.execDecChunkDecode s
  | .chainComplete => Sys2Proof.Machine.execChainComplete s
  | .tblldReload => Sys2Proof.Machine.execTblldReload s
  | .traversalReport => Sys2Proof.Machine.execTraversalReport s
  | .filmOutboxDrain => Sys2Proof.Machine.execFilmOutboxDrain s
  | .filmRecordApply => Sys2Proof.Machine.execFilmRecordApply s
  | .treeRequestArrival => Sys2Proof.Machine.execTreeRequestArrival s
  | .treeStagingEnter => Sys2Proof.Machine.execTreeStagingEnter s
  | .putDelivery => Sys2Proof.Machine.execPutDelivery s
  | .putfFlagWrite => Sys2Proof.Machine.execPutfFlagWrite s
  | .fabricAtomicAtTarget => Sys2Proof.Machine.execFabricAtomicAtTarget s
  | .putAck => Sys2Proof.Machine.execPutAck s
  | .fabricDeliveryTimeout => Sys2Proof.Machine.execFabricDeliveryTimeout s
  | .ualinkPortFailure => Sys2Proof.Machine.execUalinkPortFailure s
  | .ualinkPortTrained => Sys2Proof.Machine.execUalinkPortTrained s
  | .podBarrierArrival => Sys2Proof.Machine.execPodBarrierArrival s
  | .hbarComplete => Sys2Proof.Machine.execHbarComplete s
  | .hostBar4Request => Sys2Proof.Machine.execHostBar4Request s
  | .hostAtomicCompletion => Sys2Proof.Machine.execHostAtomicCompletion s
  | .armwordFetchadd => Sys2Proof.Machine.execArmwordFetchadd s
  | .armwordIgnored => Sys2Proof.Machine.execArmwordIgnored s
  | .triggerEdge => Sys2Proof.Machine.execTriggerEdge s
  | .triggerBindingWrite => Sys2Proof.Machine.execTriggerBindingWrite s
  | .dispatchTurn => Sys2Proof.Machine.execDispatchTurn s
  | .blockPlacement => Sys2Proof.Machine.execBlockPlacement s
  | .reservingTimeout => Sys2Proof.Machine.execReservingTimeout s
  | .quantumExpiry => Sys2Proof.Machine.execQuantumExpiry s
  | .groupEvict => Sys2Proof.Machine.execGroupEvict s
  | .groupReturn => Sys2Proof.Machine.execGroupReturn s
  | .blockRetire => Sys2Proof.Machine.execBlockRetire s
  | .taskDone => Sys2Proof.Machine.execTaskDone s
  | .leapInterval => Sys2Proof.Machine.execLeapInterval s
  | .leapMove => Sys2Proof.Machine.execLeapMove s
  | .tlbWalkComplete => Sys2Proof.Machine.execTlbWalkComplete s
  | .invalComplete => Sys2Proof.Machine.execInvalComplete s
  | .destroyComplete => Sys2Proof.Machine.execDestroyComplete s
  | .wunregComplete => Sys2Proof.Machine.execWunregComplete s
  | .scrub => Sys2Proof.Machine.execScrub s
  | .errorLogWrite => Sys2Proof.Machine.execErrorLogWrite s
  | .controlStateError => Sys2Proof.Machine.execControlStateError s
  | .packageReset => Sys2Proof.Machine.execPackageReset s
  | .powerLoss => Sys2Proof.Machine.execPowerLoss s
  | .bootStage => Sys2Proof.Machine.execBootStage s
  | .bootWatchdogExpiry => Sys2Proof.Machine.execBootWatchdogExpiry s
  | .arbiterInterval => Sys2Proof.Machine.execArbiterInterval s
  | .thermalTrip => Sys2Proof.Machine.execThermalTrip s
  | .syncPulse => Sys2Proof.Machine.execSyncPulse s
  | .orphanRead => Sys2Proof.Machine.execOrphanRead s
  | .synclostRead => Sys2Proof.Machine.execSynclostRead s
  | .ignoredArmCountRead => Sys2Proof.Machine.execIgnoredArmCountRead s
  | .cecntRead => Sys2Proof.Machine.execCecntRead s
  | .tokrejRead => Sys2Proof.Machine.execTokrejRead s
  | .trdropRead => Sys2Proof.Machine.execTrdropRead s
  | .registerWrite => Sys2Proof.Machine.execRegisterWrite s
  | .create => Sys2Proof.Machine.execCreate s
  | .destroy => Sys2Proof.Machine.execDestroy s
  | .inval => Sys2Proof.Machine.execInval s
  | .suspend => Sys2Proof.Machine.execSuspend s
  | .resume => Sys2Proof.Machine.execResume s
  | .presume => Sys2Proof.Machine.execPresume s
  | .pfault => Sys2Proof.Machine.execPfault s
  | .cancel => Sys2Proof.Machine.execCancel s
  | .tbuild => Sys2Proof.Machine.execTbuild s
  | .tdrop => Sys2Proof.Machine.execTdrop s
  | .wreg => Sys2Proof.Machine.execWreg s
  | .wunreg => Sys2Proof.Machine.execWunreg s
  | .attest => Sys2Proof.Machine.execAttest s
  | .recover => Sys2Proof.Machine.execRecover s
  | .retry => Sys2Proof.Machine.execRetry s
  | .verify => Sys2Proof.Machine.execVerify s
  | .close => Sys2Proof.Machine.execClose s
  | .halt => Sys2Proof.Machine.execHalt s
  | .run => Sys2Proof.Machine.execRun s
  | .regrd => Sys2Proof.Machine.execRegrd s
  | .regwr => Sys2Proof.Machine.execRegwr s
  | .snap => Sys2Proof.Machine.execSnap s
  | .cntclr => Sys2Proof.Machine.execCntclr s
  | .syncPulseEnd => Sys2Proof.Machine.execSyncPulseEnd s
  | .leapForwardAck => Sys2Proof.Machine.execLeapForwardAck s
  | .tbuildComplete => Sys2Proof.Machine.execTbuildComplete s
  | .attestComplete => Sys2Proof.Machine.execAttestComplete s
  | .recoverComplete => Sys2Proof.Machine.execRecoverComplete s
  | .suspendComplete => Sys2Proof.Machine.execSuspendComplete s
  | .testPortInstruction => Sys2Proof.Machine.execTestPortInstruction s

end Sys2Proof.Machine
end

