-- ==== Sys2Proof/Machine/Meet.lean ====
section
/-! DEFINITION. Errors that the reads an instruction makes at its issue find (R427, R431): its words in memory, the records and descriptors it
captures, and table entries. -/
namespace Sys2Proof.Machine
open Sys2Proof

/-- The virtual ranges an instruction reads at its issue. -/
def Env.issueReads (e : Env) : Instr → List (Nat × Nat)
  | .bld _ _ a => let ws := (e.block a 8).1; [(word64 ws 2, 16), (word64 ws 4, 32)]
  | .mmas _ _ _ _ _ a => let ws := (e.block a 7).1; [(word64 ws 2, 16), (word64 ws 4, 32)]
  | .memit _ _ a => [(word64 (e.block a 5).1 2, 32)]
  | .cpy _ _ _ _ a | .cpym _ _ _ _ a => let ws := (e.block a 9).1; [(word64 ws 4, 32), (word64 ws 6, 32)]
  | .dec _ _ _ _ a => [(word64 (e.block a 9).1 6, 32)]
  | .chain _ _ a =>
    let va := word64 (e.block a 2).1 0
    (va, 192) :: match e.s.loadNow (e.g.agent e.b) va 192 with
      | .ok (d, _) =>
        let c : Chain := { d := d, l := [], orm := 0, rrm := 0, srn := 0, key := 0, bid := 0, gix := 0 }
        ((List.range 4).filter c.used).map fun i => (c.f (256 + 64 * i) 64, 32)
      | .error _ => []
  | _ => []

/-- The ranges of the table area an instruction looks up (R392): offset and bytes. -/
def Env.issueTables (e : Env) : Instr → List (Nat × Nat)
  | .tex _ _ _ desc samp | .wtex _ _ _ _ desc samp => [(0x80000 + 64 * desc.toNat, 64), (0x84000 + 16 * samp.toNat, 16)]
  | .wlut _ _ _ b => (threadsOf e.p.mask).map fun t => (0x40000 + 1024 * ((e.vec b t).val.toNat % 256), 1024)
  | .wcmf _ _ _ _ => (List.range 4).map fun c => (0x40000 + 1024 * (((SMap.get 0 e.g.x 3).toNat + c) % 256), 1024)
  | .neval _ _ _ b _ _ => (threadsOf e.p.mask).map fun t => (64 * ((e.vec b t).val.toNat % 4096), 64)
  | _ => []

/-- The reads an instruction makes at its issue meet their lines; one that the checks of R34 trap makes none but its own words' (R427; log entry
105). -/
def State.meetIssue (s : State) (gk pi : Nat) (i : Instr) : State :=
  if s.mem.latent.isEmpty then s
  else match s.envOf gk pi with
    | none => s
    | some e =>
      let fetch (s : State) (pc : DWord) : State := match s.fetchHome e.b.ctx e.b.core pc with | .ok h => (s.meetWord (some e.b.ctx) h 4).1 | .error _ => s
      let word (s : State) : State :=
        let s1 := fetch s e.p.pc
        if i.length = 8 && e.p.pc.toNat % 64 == 60 then fetch s1 (e.p.pc + 4) else s1
      if (e.issueTrap i).isSome then word s
      else
        let s1 := (e.issueTables i).foldl (fun (s : State) r => ((s.ctx e.b.ctx).tabLines r.1 r.2).foldl (fun s l => (s.meetWord (some e.b.ctx) l.1 l.2).1) s) (word s)
        (e.issueReads i).foldl (fun s r => s.meetVa (e.g.agent e.b) r.1 r.2) s1

end Sys2Proof.Machine
end

