-- ==== Sys2Proof/Machine/Registers.lean ====
section
/-! DEFINITION. What a 64-bit read of BAR0 returns (R18): read-only and read-write fields their values, write-only ones zero (R441), reserved ones
zero. A read of a field that clears is an event of its own (Machine/Device.lean); any other read changes nothing (log entry 118). -/
namespace Sys2Proof.Machine
open Sys2Proof Host

/-- Word j of 64 bits of a number. -/
def wordAt (x j : Nat) : Nat := x / 2 ^ (64 * j) % 2 ^ 64
/-- A bit as a number. -/
def bit (b : Bool) : Nat := if b then 1 else 0

/-- The device registers (R410). -/
def Dev.deviceWord (d : Dev) : Nat :=
  d.synclost % 2 ^ 16 * 2 ^ 48 + d.syncpend % 2 ^ 16 * 2 ^ 32 + bit d.faben * 2 ^ 23 + d.podcnt % 2 ^ 9 * 2 ^ 14 + d.pkgid % 2 ^ 9
/-- The error registers (R432), by word. -/
def ErrLog.word (l : ErrLog) (j : Nat) : Nat :=
  if j = 0 then l.cons.toNat * 2 ^ 32 + l.prod.toNat else l.cecnt % 2 ^ 32 * 2 ^ 32 + l.cedrop % 2 ^ 16 * 2 ^ 16 + l.scrubh % 2 ^ 8
/-- The debug status word (R443). -/
def Dev.debugWord (d : Dev) : Nat :=
  d.lastrej % 2 ^ 8 * 2 ^ 32 + d.tokrej % 2 ^ 16 * 2 ^ 16 + d.kept.lcs % 4 * 2 ^ 9 + bit d.bkpten * 2 ^ 8 + d.opened.toNat
/-- CSTS (R443). -/
def Dev.csts (d : Dev) : Nat := bit d.dbusy.isSome * 2 ^ 63 + d.dresult % 256
/-- The trace registers (R449). -/
def Dev.traceRegs (d : Dev) : Nat :=
  d.trbase % 2 ^ 64 * 2 ^ 192 + d.trprod % 2 ^ 32 * 2 ^ 160 + d.trcons % 2 ^ 32 * 2 ^ 128 + d.trdrop % 2 ^ 32 * 2 ^ 96
    + d.trkinds % 2 ^ 12 * 2 ^ 48 + d.trlog2 % 2 ^ 8 * 2 ^ 40 + bit d.tren
/-- The boot status register (R456): LASTRSN and FSC from the copy of the persistent area in force. -/
def State.bootWord (s : State) : Nat :=
  let d := s.dev
  d.kept.lastrsn % 2 ^ 8 * 2 ^ 32 + d.rsn % 2 ^ 8 * 2 ^ 24 + d.kept.fsc % 2 ^ 8 * 2 ^ 16 + d.stage % 2 ^ 8 * 2 ^ 8
    + bit s.fatal * 4 + bit d.axolotl * 2 + bit d.ready
/-- A word of a core's counters, its snapshot or its ORPHAN (R166, R453, R455). -/
def State.counterWord (s : State) (core o : Nat) : Nat :=
  if o < 0xB8 then s.counter core (o / 8) % 2 ^ 64
  else if 0x100 ≤ o ∧ o < 0x1B8 then (if o = 0x100 then (s.core core).snapseq else SMap.get 0 (s.core core).snap ((o - 0x100) / 8)) % 2 ^ 64
  else if o = 0x1C0 then (s.core core).orphan % 2 ^ 32
  else 0
/-- A word of a context's block (R324, R352, R367, R391, R411, R415, R417). -/
def State.ctxWord (s : State) (ctx o : Nat) : Nat :=
  let c := s.ctx ctx
  if o < 0x80 then wordAt c.desc.toNat (o / 8)
  else if 0x200 ≤ o ∧ o < 0x400 then wordAt (SMap.get 0 c.films ((o - 0x200) / 64)).toNat ((o - 0x200) / 8 % 8)
  else if o = 0x400 ∨ o = 0x408 then wordAt c.tab.toNat ((o - 0x400) / 8)
  else if 0x600 ≤ o ∧ o < 0x640 then (c.bind ((o - 0x600) / 8)).toNat
  else if o = 0x640 then c.podgrp.toNat
  else if o = 0x648 then c.ignored % 2 ^ 32
  else 0

/-- What a 64-bit read at a BAR0 offset returns. -/
def State.readReg (s : State) (off : Nat) : Nat :=
  let d := s.dev
  if off % 8 ≠ 0 then 0
  else if 0x100000 ≤ off ∧ off < 0x140000 then s.ctxWord ((off - 0x100000) / 0x1000) (off % 0x1000)
  else if 0x180000 ≤ off ∧ off < 0x200000 then (SMap.get 0 d.staging ((off - 0x180000) / 8)).toNat
  else if 0x20000 ≤ off ∧ off < 0x20000 + 0x200 * 1152 then s.counterWord ((off - 0x20000) / 0x200) (off % 0x200)
  else if 0x10000 ≤ off ∧ off < 0x10000 + 8112 then (List.range 8).foldr (fun i n => (d.report.getD (off - 0x10000 + i) 0).toNat + 256 * n) 0
  else if 0x8000 ≤ off ∧ off < 0x8000 + 7984 then 0
  else if 0x4400 ≤ off ∧ off < 0x4C00 then
    wordAt (match SMap.find? d.stops ((off - 0x4400) / 32) with | some x => x.image.toNat | none => 0) ((off - 0x4400) / 8 % 4)
  else if 0x4100 ≤ off ∧ off < 0x4180 then wordAt (SMap.get 0 d.comps ((off - 0x4100) / 16)).toNat (off / 8 % 2)
  else if 0x4040 ≤ off ∧ off < 0x4060 then wordAt d.nonce.toNat ((off - 0x4040) / 8)
  else if 0x3000 ≤ off ∧ off < 0x4000 then
    (d.kept.bad.getD ((off - 0x3000) / 4) 0).toNat + 2 ^ 32 * (d.kept.bad.getD ((off - 0x3000) / 4 + 1) 0).toNat
  else if 0x2000 ≤ off ∧ off < 0x3000 then wordAt (SMap.get 0 s.errlog.recs ((off - 0x2000) / 64)).toNat ((off - 0x2000) / 8 % 8)
  else match off with
    | 0x0000 => d.deviceWord
    | 0x1000 => d.arg0.toNat
    | 0x1008 => d.arg1.toNat
    | 0x1010 => d.arg2.toNat
    | 0x1018 => d.arg3.toNat
    | 0x1028 => d.sts
    | 0x1800 => s.errlog.word 0
    | 0x1808 => s.errlog.word 1
    | 0x4000 => d.debugWord
    | 0x4010 => d.darg0.toNat
    | 0x4018 => d.darg1.toNat
    | 0x4020 => d.csts
    | 0x4028 => d.data.toNat
    | 0x5000 => wordAt d.traceRegs 0
    | 0x5008 => wordAt d.traceRegs 1
    | 0x5010 => wordAt d.traceRegs 2
    | 0x5018 => wordAt d.traceRegs 3
    | 0x6000 => s.bootWord
    | 0x6040 => wordAt d.power 0
    | 0x6048 => wordAt d.power 1
    | _ => 0

end Sys2Proof.Machine
end

