-- ==== Sys2Proof/Machine/Sched.lean ====
section
/-! DEFINITION. What happens next (log entry 3): the events the clock makes due, the changes that follow at once, the events that may come in
any order and the inputs, the offer of each core's issue slot in ascending order within a clock, and the passing of a clock. -/
namespace Sys2Proof.Machine
open Sys2Proof Host

/-- Something that may happen: an event and what it acts on. -/
abbrev Occ := Instr × List Nat

/-- An event takes place, and its trace records are made (R450). -/
def State.occur (s : State) (o : Occ) : Outcome State Fault Refusal :=
  match exec o.1 { s with subject := o.2, issuer := none } with
  | .next t => .next (t.traceChange s none)
  | r => r

/-- Whether an event would change anything. -/
def State.alters (s : State) (f : State → State) (subj : List Nat) : Bool := decide (f { s with subject := subj } ≠ { s with subject := subj })

/-- A list with something in it where a condition holds. -/
def when (c : Bool) (l : List Occ) : List Occ := if c then l else []

/-! ### What the clock makes due -/

/-- Of a path (R28, R161, R171). -/
def State.duePath (s : State) (gk i : Nat) (p : Path) : List Occ :=
  when (p.ready != 0 && decide (p.ready ≤ s.clock)) [(.stallCountdownExpiry, [gk, i])]
    ++ (match p.st, p.wait with
        | .parked, .ldpoll next _ poll => when (poll.op == 0 && decide (next ≤ s.clock)) [(.ldpollBackoffExpiry, [gk, i])]
        | .parked, .mwait _ _ _ 2 _ _ => [(.mwaitWake, [gk, i])]
        | _, _ => [])

/-- Of a group (R26, R29, R248, R251). -/
def State.dueGroup (s : State) (gk : Nat) (g : Grp) : List Occ :=
  if !g.resident then []
  else when (match g.firstReady with | some n => decide (n ≤ s.clock) | none => false) [(.fixedLatencyResult, [gk])]
    ++ (List.range 8).flatMap (fun i => s.duePath gk i (g.path i))
    ++ when ((g.spillRec 0).isSome && g.freeEntry.isSome) [(.spillReturn, [gk])]
    ++ when (!g.spilled.isEmpty && g.freeEntry.isNone && s.alters eventSpillRotation [gk]) [(.spillRotation, [gk])]
    ++ when (decide (2048 ≤ g.starve) && !g.promoted) [(.starvationPromotion, [gk])]
    ++ when (decide (2 ^ 20 ≤ g.progress)) [(.hangReport, [gk])]

/-- Of a core (R25, R187, R299, R307, R308, R385). -/
def State.dueCore (s : State) (k : Nat) (c : Core) : List Occ :=
  let m := c.mx
  ((c.units.filter fun u => decide (u.2 ≤ s.clock)).map fun u => (Instr.unitRelease, [k, u.1]))
    ++ when (match c.coalescer with | x :: _ => decide (x.1 + 256 ≤ s.clock) | [] => false) [(.coalescerClose, [k])]
    ++ ((m.windows.filter fun w => decide (w.2 ≤ s.clock)).map fun w => (Instr.chorusWindowClose, [k, w.1]))
    ++ when (match m.pass with | some x => decide (x.2.2 ≤ s.clock) | none => false) [(.passEnd, [k])]
    ++ ((m.cmds.filter fun x => x.kind == .mmaq && x.st == 4 && decide (x.until' ≤ s.clock)).map fun x => (Instr.mmaqWriteback, [k, x.id]))
    ++ ((m.tiles.filter fun t => t.st == 3 && decide (t.ready ≤ s.clock)).map fun t => (Instr.chorusWriteback, [k, t.id]))
    ++ when (m.claim.isSome && s.alters eventLeaseClaimLapse [k]) [(.leaseClaimLapse, [k])]
    ++ when m.drained [(.leaseFree, [k])]
    ++ when ((!m.cmds.isEmpty || !m.tiles.isEmpty) && s.alters eventPassStart [k]) [(.passStart, [k])]
    ++ when (decide (c.offered ≤ s.clock) && m.tiles.any (fun t => t.st == 0) && s.chorusStuck k) [(.chorusTileClose, [k])]

/-- Of what runs whether the package is READY or not, and in its fatal state: the arbiter (R35, R462), messages (R412), the sync output (R418). -/
def State.duePower (s : State) : List Occ :=
  let d := s.dev
  when (decide (4096 * (d.arbiter + 1) ≤ s.clock))
      ((List.range 8).flatMap (fun k => when (decide (115 < Config.sensor (8 + k) d.arbiter)) [(Instr.thermalTrip, [Config.sensor (8 + k) d.arbiter])])
        ++ [(.arbiterInterval, [])])
    ++ ((d.grants.filter fun g => g.2.1 != g.2.2 && s.cycleOf g.1 % 16 == 0).map fun g => (Instr.grantChange, [g.1]))
    ++ ((d.msix.filter fun v => v.2.2 && decide (v.2.1 + 4095 ≤ s.clock)).map fun v => (Instr.msixModerationExpiry, [v.1]))
    ++ when (d.sync != 0 && decide (d.syncUntil ≤ s.clock)) [(.syncPulseEnd, [])]

/-- Of the rest of the device (R357, R382, R414, R417). -/
def State.dueDevice (s : State) : List Occ :=
  let d := s.dev
  s.duePower ++ ((s.fab.filter fun o => s.fabLate o && (s.dev.portFor o.pkg 0).isNone && (!o.left.isEmpty)).map fun o => (Instr.fabricDeliveryTimeout, [o.id]))
    ++ when s.turnOver [(.dispatchTurn, [])]
    ++ ((List.range 8).filter fun i => d.edgeDue s.clock i).map (fun i => (Instr.triggerEdge, [i, (d.trigger i).1, 1]))
    ++ when (decide (s.clock % 65536 = 0 ∧ s.clock ≠ 0) && s.cores.any fun (e : Nat × Core) => e.2.issuedIn != 0 || e.2.crowdedIn != 0) [(.leapInterval, [])]
    ++ (s.tasks.filter fun (e : Nat × Task) => decide (e.2.since + 65536 ≤ s.clock) && s.reservingDue (e.1 / 65536) (e.1 % 65536)).map fun e => (Instr.reservingTimeout, [e.1 / 65536, e.1 % 65536])

/-- Everything the clock has made due, in the order it is done. -/
def State.due (s : State) : List Occ :=
  s.groups.flatMap (fun (e : Nat × Grp) => s.dueGroup e.1 e.2) ++ s.cores.flatMap (fun (e : Nat × Core) => s.dueCore e.1 e.2) ++ s.dueDevice

/-! ### What follows at once -/

/-- The paths of resident groups picked. -/
def State.findPath (s : State) (f : Nat → Grp → Nat → Bool) : Option (Nat × Nat) :=
  s.groups.findSome? fun (e : Nat × Grp) =>
    if e.2.resident then ((List.range 8).find? fun i => f e.1 e.2 i).map fun i => (e.1, i) else none

/-- A LIVE path that must be held before it issues (R444 to R446). -/
def State.holdNow (s : State) : Option State :=
  match s.findPath fun gk g i => (g.path i).st == .live && (match s.envOf gk i with | some e => e.mustHold.isSome | none => false) with
  | none => none
  | some (gk, i) => match s.envOf gk i with
    | some e => e.mustHold.map fun h => s.hold gk i h.1 h.2
    | none => none

/-- A parked path whose wait is over goes on (R249). -/
def State.wakeNow (s : State) : Option State :=
  match s.findPath fun gk g i => (g.path i).st == .parked && (s.waitHolds gk i).isSome with
  | none => none
  | some (gk, i) => s.waitHolds gk i

/-- A group that has exited with the extended set gives it up (R118). -/
def State.exitNow (s : State) : Option State := s.blocks.findSome? fun (e : Nat × Blk) => s.exitRelease e.1

/-- A path on its way to a spill area has its record written (R31, R247). -/
def State.spillNow (s : State) : Option State :=
  s.groups.findSome? fun (e : Nat × Grp) => if e.2.resident then e.2.spillDue.map fun k => s.writeSpill e.1 k else none

/-- A trace record goes to the buffer (R449); one that would go where there is no memory stops the run. -/
def State.traceNow (s : State) : Option (Outcome State Fault Refusal) :=
  let d := s.dev
  if d.tracing.isEmpty then none
  else if !d.traceFull && (hbmLinear (d.trbase + 64 * (d.trprod % 2 ^ d.trlog2))).isNone then some (.fault .noSuchAddress)
  else some (.next s.traceWrite)

/-- A task that has met R362 becomes DONE before anything else reaches the home (R365). -/
def State.doneNow (s : State) : Option Occ :=
  (List.find? (fun (e : Nat × Task) => s.taskMet (e.1 / 65536) (e.1 % 65536)) s.tasks).map fun e => (.taskDone, [e.1 / 65536, e.1 % 65536])

/-- Merges (R246). -/
def State.mergeNow (s : State) : Option Occ :=
  (List.find? (fun (e : Nat × Grp) => e.2.resident && e.2.mergePair.isSome) s.groups).map fun e => (.pathMerge, [e.1])

/-- What follows at once from the state as it stands. -/
def State.atOnce (s : State) : Option (Outcome State Fault Refusal) :=
  match s.traceNow with
  | some r => some r
  | none => match s.holdNow with
    | some t => some (.next t)
    | none => match s.mergeNow.or s.doneNow with
      | some o => some (s.occur o)
      | none => match s.returnNow with
      | some gk => some (s.occur (.groupReturn, [gk]))
      | none => ((((((((s.lookUpNow.or s.owedNow).or s.feNow).or s.syncNow).or s.actNow).or s.exitNow).or s.failNow).or s.spillNow).or s.wakeNow).map fun t => .next (t.traceChange s none)

/-! ### What may come, in any order -/

/-- Requests that may be combined with a store, in issue order (R272). -/
def State.combinable (s : State) (r : MemReq) : List Nat := ((s.reqs.dropWhile fun x => x.rid != r.rid).drop 1).filterMap fun x => if r.combines x then some x.rid else none

/-- What may become of a request (R150 to R159, R270 to R275). -/
def State.mayRequest (s : State) (r : MemReq) : List Occ :=
  if r.cause ≠ 0 then when (r.kind == .store) [(.impreciseStoreFault, [r.rid])]
  else if (s.enabled r.rid).isNone then []
  else match r.kind with
    | .load => (Instr.loadAtHome, [r.rid]) :: when (decide (1 < r.parts.length)) ((List.range r.parts.length).map fun k => (Instr.loadAtHome, [r.rid, k + 1]))
    | .store => ((List.range ((s.combinable r).length + 1)).map fun n => (Instr.storePerformed, r.rid :: (s.combinable r).take n))
        ++ when r.divides ((List.range r.parts.length).map fun k => (Instr.storePerformed, [r.rid, 2 ^ 64 + k]))
    | .atomic =>
      if r.queued.isSome then []
      else if r.onHost then [(.hostAtomicCompletion, [r.rid, 1]), (.hostAtomicCompletion, [r.rid, 0])]
      else (.atomicAtHome, [r.rid]) :: (s.reqs.filter fun x => s.mayMerge x r).map fun x => (Instr.atomicMerge, [x.rid, r.rid])
    | .ldfe _ | .stfe _ => when r.queued.isNone [(.fullEmptyAtHome, [r.rid])]
    | .fence _ | .acquire | .refused => []

/-- Walks that may finish (R375). -/
def State.mayWalk (s : State) : List Occ := (s.walks.filter fun w => w.st == 2).map fun w => (Instr.tlbWalkComplete, [w.die, w.ctx, w.page])

/-- What may become of the matrix commands and handles of a core (R190 to R197, R305, R306). -/
def mayMatrix (k : Nat) (c : Core) : List Occ :=
  c.mx.cmds.flatMap (fun x => match x.kind with
      | .bld => [(Instr.bldLoadStart, [k, x.id]), (.bldComplete, [k, x.id])]
      | .mmas => [(.aRowFillComplete, [k, x.id]), (.slotRestore, [k, x.bk, x.slot])]
      | .memit => [(.memitComplete, [k, x.id])]
      | .mrd | .mwr => [(.accumPortAccess, [k, x.id])]
      | .mmaq => [(.slotRestore, [k, x.bk, x.slot])])
    ++ c.mx.tiles.flatMap (fun t => [(Instr.chorusHandleLoadStart, [k, t.ctx, t.handle]), (.chorusHandleLoadEnd, [k, t.ctx, t.handle])])

/-- What may become of an engine command (R208, R230 to R234, R334). -/
def mayEngine (c : EngCmd) : List Occ :=
  match c.kind with
  | 6 => [(.decChunkDecode, [c.id]), (.copyComplete, [c.id])]
  | 7 => [(.chainComplete, [c.id, 1]), (.chainComplete, [c.id, 64])]
  | 8 => [(.tblldReload, [c.id])]
  | _ => (c.left.map fun a => (Instr.copyArrival, [c.id, a.1, a.2])) ++ when c.left.isEmpty [(.copyComplete, [c.id])]

/-- What may become of a fabric operation of this package (R239 to R241, R414). -/
def State.mayFabric (s : State) (o : FabOp) : List Occ :=
  when (o.kind ≤ 1) ((o.left.filter fun k => s.fabReady o k).map fun k => (Instr.putDelivery, [0, o.id, k]))
    ++ when (o.kind == 1 && o.pkg == s.dev.pkgid) [(.putfFlagWrite, [0, o.id])]
    ++ when (2 ≤ o.kind) [(.fabricAtomicAtTarget, [0, o.id])]
    ++ when (o.stage == 2) [(.putAck, [0, o.id])]
    ++ when (s.fabLate o) [(.fabricDeliveryTimeout, [o.id])]

/-- Fabric traffic that has waited for its context (R381). -/
def State.mayLink (s : State) : List Occ :=
  (s.dev.linkWait.zipIdx.filter fun x => !s.linkHeld (x.1.2.getD 0 0)).map fun x =>
    (match x.1.1 with | 0 => Instr.putDelivery | 1 => .putfFlagWrite | _ => .fabricAtomicAtTarget, [2, x.2])

/-- What may become of a group and its threads (R213, R379, R380). -/
def State.mayGroup (s : State) (gk : Nat) (g : Grp) : List Occ :=
  ((g.travs.filter fun t => t.2.due).map fun t => (Instr.traversalReport, [gk, t.1]))
    ++ when (g.resident && (match s.blk g.blk with | some b => s.suspending b.ctx | none => false)) [(.groupEvict, [gk])]

/-- What may become of a block (R170, R221, R253, R384). -/
def State.mayBlock (s : State) (bk : Nat) (b : Blk) : List Occ :=
  (b.hbarArr.filterMap fun a => if s.hbarMet b a.1 then some (Instr.hbarComplete, [bk, a.1]) else none)
    ++ when (!(s.outbox bk).isEmpty) [(.filmOutboxDrain, [bk])]
    ++ when (s.mayRetire bk) [(.blockRetire, [bk])]
    ++ b.fwd.map fun k => (Instr.leapForwardAck, [bk, k])

/-- What may become of a command of R369 or R443 in progress. -/
def Dev.mayCommand (d : Dev) : List Occ :=
  (match d.busy with
    | none => []
    | some (code, _, begun) =>
      match code, begun with
      | 1, _ => [(.create, [])] | 2, false => [(.destroy, [])] | 2, true => [(.destroyComplete, [])]
      | 3, false => [(.inval, [])] | 3, true => [(.invalComplete, [])] | 4, false => [(.suspend, [])] | 4, true => [(.suspendComplete, [])]
      | 5, _ => [(.resume, [])] | 6, _ => [(.presume, [])] | 7, _ => [(.pfault, [])] | 8, _ => [(.cancel, [])]
      | 9, false => [(.tbuild, [])] | 9, true => [(.tbuildComplete, [])] | 10, _ => [(.tdrop, [])]
      | 11, _ => [(.wreg, [])] | 12, false => [(.wunreg, [])] | 12, true => [(.wunregComplete, [])]
      | 16, false => [(.attest, [])] | 16, true => [(.attestComplete, [])] | 17, false => [(.recover, [])] | 17, true => [(.recoverComplete, [])]
      | 18, _ => [(.retry, [])] | _, _ => [])
    ++ (match d.dbusy with
    | none => []
    | some 1 => [(.verify, [])] | some 2 => [(.close, [])] | some 3 => [(.halt, [])] | some 4 => [(.run, [])] | some 5 => [(.regrd, [])]
    | some 6 => [(.regwr, [])] | some 7 => [(.snap, [])] | some _ => [(.cntclr, [])])

/-- What may come from outside next: the earliest input (log entry 4). -/
def State.mayInput (s : State) : List Occ := s.inputs.take 1

/-- What may come while the package is READY, in no fixed order. -/
def State.choices (s : State) : List Occ :=
  s.mayInput ++ s.dev.mayCommand
    ++ (List.range s.results.length).map (fun i => (Instr.variableResultWrite, [i]))
    ++ s.reqs.flatMap s.mayRequest ++ s.mayWalk
    ++ (List.range s.bars.length).map (fun i => (Instr.barrierArrival, [i]))
    ++ (s.records.map (fun (r : Rec) => r.ctx)).eraseDups.map (fun c => (Instr.eventRingWrite, [c]))
    ++ when (!s.errlog.held.isEmpty) [(.errorLogWrite, [])]
    ++ when (!s.mem.latent.isEmpty) [(.scrub, [])]
    ++ s.cores.flatMap (fun (e : Nat × Core) => mayMatrix e.1 e.2)
    ++ s.ecmds.flatMap mayEngine
    ++ s.groups.flatMap (fun (e : Nat × Grp) => s.mayGroup e.1 e.2)
    ++ s.blocks.flatMap (fun (e : Nat × Blk) => s.mayBlock e.1 e.2)
    ++ ((s.films.filter fun r => r.place != 0).map (fun r => (r.ctx, r.film))).eraseDups.map (fun f => (Instr.filmRecordApply, [f.1, f.2]))
    ++ s.treeReqs.map (fun r => (Instr.treeRequestArrival, [r.id, r.thread]))
    ++ s.ctxs.flatMap (fun (e : Nat × Ctx) => (e.2.trees.filter fun t => match t.2.waiting with | r :: _ => !t.2.fullFor r | [] => false).map fun t => (Instr.treeStagingEnter, [e.1, t.1]))
    ++ s.fab.flatMap s.mayFabric ++ s.mayLink
    ++ when (s.dev.sync == 0 && decide (0 < s.dev.syncpend)) [(.syncPulse, [])]
    ++ when (s.turn.2.2 != 0 && s.turnOpen) [(.blockPlacement, [])]
    ++ s.dev.leap.map (fun l => (Instr.leapMove, [l.1, l.2]))

/-- How the next stage of boot goes: open, but for what the flash and the fuses decide (R457; log entry 8). -/
def State.bootSubject (s : State) : List Nat :=
  let x := Config.pick (2 * s.seq + 1)
  if s.dev.stage = 3 then (if x % 9 = 0 then [0] else [0, x / 9 % 1152]) else [x % 2, x / 2]

/-- What may come before READY, in Axolotl mode and in the fatal state (R457, R459, R462). -/
def State.bootChoices (s : State) : List Occ :=
  s.mayInput ++ s.dev.mayCommand ++ when (s.dev.sync == 0 && decide (0 < s.dev.syncpend)) [(.syncPulse, [])]
    ++ when (!s.dev.ready && !s.dev.axolotl) [if s.bootLate && s.dev.rsn == 0 then (.bootWatchdogExpiry, []) else (.bootStage, s.bootSubject)]
    ++ when (!s.errlog.held.isEmpty) [(.errorLogWrite, [])]

/-! ### The offers of a clock -/

/-- The lowest core with a resident group that has not been offered this clock. -/
def State.nextCore (s : State) : Option Nat :=
  s.groups.foldl (fun (m : Option Nat) (e : Nat × Grp) =>
    if !e.2.resident then m
    else match s.blk e.2.blk with
      | none => m
      | some b => if s.clock < (s.core b.core).offered then m
                  else match m with | none => some b.core | some k => some (min k b.core)) none

/-- The issue of an offer: what it leaves behind, the errors its reads find (R427), the instruction's meaning, its trace records (R24, R450); a fetch
that faults traps (R37), and the clock counts as path control's (DESIGN CHOICE, log entry 125). -/
def State.issueOffer (s : State) (core : Nat) (os : List Offer) (o : Offer) : Outcome State Fault Refusal :=
  match s.envOf o.gk o.pi, o.code with
  | some e, .ok i =>
    let u : State := { ((s.bookIssue core os o.gk o.pi i).lookUp e.b.ctx core e.p.pc.toNat (fun l => l.x)).meetIssue o.gk o.pi i with issuer := some (o.gk, o.pi) }
    match exec i u with
    | .next t => .next ({ t with issuer := none }.traceIssue i o.gk o.pi u)
    | r => r
  | some e, .error c => .next ((((s.starveOthers os o.gk).count core 8 1).trapEntry o.gk o.pi (trap c) e.p.mask e.p.pc.toNat).traceChange s none)
  | none, _ => .next s

/-- A core's issue slot in this clock. -/
def State.offerCore (s : State) (core : Nat) : Outcome State Fault Refusal :=
  let s0 := s.updCore core fun c => { c with offered := s.clock + 1 }
  if s.withheld core then
    .next ((s0.count core 3 1).updCore core fun c => { c with crowdedIn := c.crowdedIn + if (s.offers core).isEmpty then 0 else 1 })
  else match s.pickIssue core with
    | (none, refused, s1) => .next ((s1.updCore core fun c => { c with offered := s.clock + 1 }).bookIdle core (s.offers core) refused)
    | (some o, _, s1) => (s1.updCore core fun c => { c with offered := s.clock + 1 }).issueOffer core (s.offers core) o

/-! ### The clock -/

/-- A clock passes: progress counts (R251), quanta (R361), withheld clocks of cores without groups (R452). -/
def State.tick (s : State) : State :=
  let busy (bk : Nat) : Bool := s.groups.any fun (e : Nat × Grp) => e.2.blk == bk && e.2.resident
  let idle := (s.dev.grants.map (·.1)).filter fun k => s.withheld k && (s.residents k).isEmpty
  let s1 := idle.foldl (fun s k => s.count k 3 1) s
  { s1 with
    clock := s.clock + 1, closing := false, dev := { s1.dev with flashing := false, wasImage := none }
    groups := s1.groups.map fun (e : Nat × Grp) => (e.1, if e.2.resident && e.2.alive != 0 then { e.2 with progress := e.2.progress + 1 } else e.2)
    blocks := s1.blocks.map fun (e : Nat × Blk) =>
      (e.1, if decide (e.2.used + 1 < e.2.quantum * 1024) && busy e.1 then { e.2 with used := e.2.used + 1 } else e.2) }

/-- A block whose quantum ends with this clock (R361). -/
def State.quantumEnd (s : State) : Option Nat :=
  (List.find? (fun (e : Nat × Blk) => decide (0 < e.2.quantum ∧ e.2.used + 1 = e.2.quantum * 1024)
    && s.groups.any fun (x : Nat × Grp) => x.2.blk == e.1 && x.2.resident) s.blocks).map (·.1)

/-- The next issue slot of the clock, or its end: the arms that reached the home in it (R351), a quantum that ends with it, and its passing. -/
def State.goAhead (s : State) : Outcome State Fault Refusal :=
  match s.nextCore with
  | some k => s.offerCore k
  | none => match s.armNow with
    | some t => .next { t with closing := true }
    | none => match s.quantumEnd with
      | some bk => { s with closing := true }.occur (.quantumExpiry, [bk])
      | none => .next s.noteBlocked.tick

/-- One of the events that may come, or none of them: what otherwise happens (R12; log entry 3). An input that comes leaves the list. -/
def State.choose' (s : State) (cs : List Occ) (go : State → Outcome State Fault Refusal) : Outcome State Fault Refusal :=
  if cs.isEmpty then go s
  else
    let n := Config.pick (2 * s.seq) % (cs.length + 1)
    let s1 := { s with seq := s.seq + 1 }
    match cs[n]? with
    | none => go s1
    | some o => (if n = 0 && !s.inputs.isEmpty then { s1 with inputs := s.inputs.drop 1 } else s1).occur o

/-- Whether a core has been offered this clock: what an issue of the clock starts comes in a later one (log entry 3). -/
def State.offering (s : State) : Bool := s.cores.any fun (e : Nat × Core) => decide (s.clock < e.2.offered)

/-- What happens next. -/
def State.advance (s : State) : Outcome State Fault Refusal :=
  if !s.dev.ready || s.fatal then
    match s.duePower with
    | o :: _ => s.occur o
    | [] => s.choose' s.bootChoices fun s => .next s.tick
  else match s.due with
    | o :: _ => s.occur o
    | [] => match s.atOnce with
      | some r => r
      | none => if s.offering || s.closing then s.goAhead else s.choose' s.choices State.goAhead

/-! ### An instruction placed (log entry 12) -/

/-- Where the placed program lies: its tables, and its address. -/
def placedRoot : Nat := 0x10000
def placedTable : Nat := 0x20000
def placedCode : Nat := 0x100000

/-- The words of an instruction of `nbits` bits, lowest byte first, the bits above zero, up to two words. -/
def placedBytes (nbits w : Nat) : Nat := w % 2 ^ nbits

/-- Memory with a table that maps the lowest 1 GiB of a context onto the lowest 1 GiB of HBM (R371, R372), and the words at the PC. -/
def Memory.withProgram (m : Memory) (nbits w : Nat) : Memory :=
  (((m.writeLE placedRoot 8 (placedTable + 1)).writeLE placedTable 8 0x5F).writeLE placedCode 8 (placedBytes nbits w))

/-- A task of one block of one group, running. -/
def Task.placed' : Task :=
  { status := 3, depcnt := 0, overarm := 0, retired := 0, kept := false
    desc := BitVec.ofNat 1024 (placedCode + 2 ^ 128 + 2 ^ 168 + 128 * 2 ^ 192 + 2 ^ 208), succ := [], queued := 0, placed := 1, since := 0, reserving := none
    done := [], pfx := 0, ending := 0, fault := none, later := 0 }

/-- Its block, on core 0. -/
def Blk.placed' : Blk :=
  { ctx := 0, task := 0, bid := 0, core := 0, frame := 0, gpb := 1, regs := 128, xregs := 0, roles := [0], nblk := 1, clsz := 0, fbase := 0, fsize := 8192
    spawn := 0, lease := 0, det := false, gang := false, preemptible := false, migratable := false, mark := false, check := false
    entry := BitVec.ofNat 64 placedCode, quantum := 0, used := 0, counters := [], dones := [], named := [], xr := [], holder := none, turn := 0, mdones := []
    tiles := none, hbarArr := [], xreqs := [], hbarDone := [], olds := [], fwd := [], suspended := false, stackKinds := [], dropped := [], retained := false
    evicted := false, images := [], leaseKept := none, claimKept := false }

/-- The machine with the words placed: READY and with nothing under way, context 0 valid, and one group whose path stands at them. -/
def State.withProgram (s : State) (nbits w : Nat) : State :=
  let m : Memory := { s.mem with poison := [], latent := [] }
  let c := ((s.ctx 0).setField 0 2 1).setField 656 64 placedRoot
  let d : Dev := { s.dev with ready := true, axolotl := false, busy := none, dbusy := none, grants := [], opened := 0, stops := [], stopWait := [], comps := []
                              tracing := [], msix := [], leap := [], sync := 0, syncpend := 0, arbiter := s.clock / 4096 }
  { s with
    mem := m.withProgram nbits w, fatal := false, reqs := [], loads := [], bars := [], tlb := [], walks := [], results := [], codeWas := [], spoiled := [], issuer := none, subject := []
    closing := false, seq := s.seq + 1, looked := s.seq + 1, groups := [(0, Grp.start 0 0 0 0 (BitVec.ofNat 64 placedCode) 0 s.clock)], blocks := [(0, Blk.placed')], cores := []
    ctxs := SMap.put (s.ctxs.map fun (e : Nat × Ctx) => (e.1, { e.2 with trees := [] })) 0 { c with frames := [0], trees := [] }
    tasks := [(0, Task.placed')], records := [], errlog := { s.errlog with held := [] }, acts := [], arms := [], ecmds := [], films := [], treeReqs := [], fab := [], inputs := [], dev := d }

end Sys2Proof.Machine
end

