-- ==== Sys2Proof/Machine/Step.lean ====
section
/-! DEFINITION. The step, and an instruction placed where the step fetches its next one. -/
namespace Sys2Proof.Machine
open Sys2Proof Host

/-- One step of the machine. -/
def step (s : State) : Outcome State Fault Refusal := s.advance

/-- The machine with an instruction of `nbits` bits, numbered as the opcode table numbers them, where the next step fetches. A program
comes to run only through a task that system software makes READY (log entry 12); this stands for all of that. -/
def State.withFetchWord (s : State) (nbits w : Nat) : State := s.withProgram nbits w

end Sys2Proof.Machine
end

