-- ==== Sys2Proof/Safety.lean ====
section
/-! DEFINITION. The terms of claims: when an instruction issues without a trap, where its path goes on, the pending result it leaves, and
the invariants of the machine. -/
namespace Sys2Proof.Machine
open Sys2Proof

/-- The instruction passes the checks of R34 and reads no faulted Chorus or exchange destination (R178, R204). -/
def Env.Clear (e : Env) (i : Instr) : Prop := e.issueTrap i = none ∧ ∀ t ∈ e.readers i, e.deferred i t = none

/-- The state in which the issuing path goes on at `pc` after instruction i and its group is otherwise `g`: nothing outside the group
differs from the state of issue. -/
def Env.goesOn (e : Env) (i : Instr) (pc : DWord) (g : Grp) : State := e.s.setGrp e.gk (Path.set g e.pi (e.advance i pc e.p))

/-- The issuing path goes on at `pc` in a state that already holds the instruction's effect. -/
def Env.goesOnIn (e : Env) (i : Instr) (pc : DWord) (s1 : State) : State := s1.updPath e.gk e.pi (e.advance i pc)

/-- The pending result of a lane instruction: per active thread its register and predicate writes, and the OR of the flags. -/
def Env.laneFix (e : Env) (lat : Nat) (vw : Nat → List (Nat × RegVal)) (pw : Nat → List (Nat × Bool)) (fl : Nat → Flags) : FixRes :=
  { ready := e.s.clock + lat, mask := e.p.mask
    vw := (threadsOf e.p.mask).flatMap fun t => (vw t).map fun w => (128 * w.1 + t, w.2)
    sw := [], qw := [], xw := []
    pw := (threadsOf e.p.mask).flatMap fun t => (pw t).map fun w => (128 * w.1 + t, w.2)
    flags := (threadsOf e.p.mask).foldl (fun f t => f ||| fl t) 0, spec := none }

/-- The state after a lane instruction whose result is readable after `lat` clocks and no thread of which traps (R29): the path goes on
at the next instruction, and the result is pending; an SR rounding advances the thread's sequence (R83). -/
def Env.laneDone (e : Env) (i : Instr) (lat : Nat) (vw : Nat → List (Nat × RegVal)) (pw : Nat → List (Nat × Bool)) (fl : Nat → Flags)
    (sr : Bool) : State :=
  e.goesOn i (e.nextPc i) { e.seeChorus i e.g with
    fixed := e.g.fixed ++ (if e.p.mask = 0 then [] else [e.laneFix lat vw pw fl])
    srn := bumpSeq e.g.srn (if sr then threadsOf e.p.mask else []) }

/-- The state after a uniform instruction whose result is readable after `lat` clocks and which does not trap, the path going on at
`pc`: only the general, predicate and index registers named, the flags and the special register named are to be written. -/
def Env.uniDone (e : Env) (i : Instr) (pc : DWord) (lat : Nat) (sw : List (Nat × RegVal)) (qw : List (Nat × Bool)) (xw : List (Nat × Word))
    (fl : Flags) (sr : Bool) (spec : Option (Nat × Word)) : State :=
  e.goesOn i pc { e.seeChorus i e.g with
    fixed := e.g.fixed ++ [{ ready := e.s.clock + lat, mask := e.p.mask, vw := [], sw := sw, pw := [], qw := qw, xw := xw, flags := fl, spec := spec }]
    srn := bumpSeq e.g.srn (if sr then [127] else []) }

/-- The state after a lane instruction whose results arrive after a time that is not fixed (R32): destinations marked pending, the
result of every active thread on its way under a fresh operation number. -/
def Env.variableDone (e : Env) (i : Instr) (vw : Nat → List (Nat × RegVal)) (fl : Nat → Flags) : State :=
  let ts := threadsOf e.p.mask
  let rs : List (Nat × TRes) := ts.map fun t => (t, { vw := vw t, fl := fl t })
  let t := e.goesOn i (e.nextPc i) { e.seeChorus i e.g with pend := e.g.pend ++ marksOf e.s.seq .other rs }
  { t with
    seq := e.s.seq + 1
    results := if ts = [] then e.s.results else e.s.results ++ [
      { id := e.s.seq, gk := e.gk, cls := .other, mask := maskOf ts
        vw := ts.flatMap fun t => (vw t).map fun w => (128 * w.1 + t, w.2)
        sw := [], flags := ts.foldl (fun f t => f ||| fl t) 0 }] }

/-! ### What an instruction answers -/

/-- Wherever this lane instruction issues clear and `ok` holds of what it reads, it completes: these registers and predicates of each active
thread, and these flags, are pending for `lat` clocks, and nothing else changes but the path going on. -/
def LaneGives (i : Instr) (lat : Nat) (ok : Env → Prop) (vw : Env → Nat → List (Nat × RegVal)) (pw : Env → Nat → List (Nat × Bool))
    (fl : Env → Nat → Flags) (sr : Bool) : Prop :=
  ∀ s e, s.env = some e → e.Clear i → ok e → exec i s = .next (e.laneDone i lat (vw e) (pw e) (fl e) sr)

/-- A lane integer, logic or move instruction: D takes a word, its poison the OR of the sources' (R90, R100). -/
def LaneWord (i : Instr) (d : BitVec 7) (srcs : List (BitVec 7)) (r : Env → Nat → Word) : Prop :=
  LaneGives i 3 (fun _ => True) (fun e t => [(e.g.num d, ⟨r e t, srcs.any fun f => (e.vec f t).poison⟩)]) (fun _ _ => []) (fun _ _ => 0) false

/-- Wherever this uniform instruction issues clear and `ok` holds of what it reads, it completes, going on at the next instruction. -/
def UniGives (i : Instr) (lat : Nat) (ok : Env → Prop) (sw : Env → List (Nat × RegVal)) (qw : Env → List (Nat × Bool))
    (xw : Env → List (Nat × Word)) (fl : Env → Flags) (sr : Bool) (spec : Env → Option (Nat × Word)) : Prop :=
  ∀ s e, s.env = some e → e.Clear i → ok e →
    exec i s = .next (e.uniDone i (e.nextPc i) lat (sw e) (qw e) (xw e) (fl e) sr (spec e))

/-- A uniform integer, logic or move instruction: D takes a word, its poison the OR of the sources' (R90, R100). -/
def UniWord (i : Instr) (d : BitVec 7) (srcs : List (BitVec 7)) (r : Env → Word) : Prop :=
  UniGives i 2 (fun _ => True) (fun e => [(d.toNat, ⟨r e, srcs.any fun f => (e.uni f).poison⟩)]) (fun _ => []) (fun _ => []) (fun _ => 0) false
    (fun _ => none)

/-- Wherever this lane instruction issues clear and `ok` holds, it completes with its results on their way for a time that is not fixed. -/
def VariableGives (i : Instr) (ok : Env → Prop) (vw : Env → Nat → List (Nat × RegVal)) (fl : Env → Nat → Flags) : Prop :=
  ∀ s e, s.env = some e → e.Clear i → ok e → exec i s = .next (e.variableDone i (vw e) (fl e))

/-- No active thread raises an enabled flag (R86, R89). -/
def Quiet (fl : Env → Nat → Flags) (e : Env) : Prop := ∀ t ∈ threadsOf e.p.mask, fl e t &&& e.g.enables = 0
/-- A uniform instruction raises no enabled flag. -/
def UniQuiet (fl : Env → Flags) (e : Env) : Prop := fl e &&& e.g.enables = 0

/-- An FP32 lane instruction (R29, R121): D takes an element and its flags; its poison is the OR of the sources'. -/
def LaneF32 (i : Instr) (d : BitVec 7) (srcs : List (BitVec 7)) (sr : Bool) (r : Env → Nat → Nat × Flags) : Prop :=
  LaneGives i 6 (Quiet fun e t => (r e t).2) (fun e t => [(e.g.num d, ⟨BitVec.ofNat 32 (r e t).1, srcs.any fun f => (e.vec f t).poison⟩)])
    (fun _ _ => []) (fun e t => (r e t).2) sr
/-- An FP64 lane instruction (R29): D names a pair. -/
def LaneF64 (i : Instr) (d : BitVec 7) (srcs : List (BitVec 7)) (r : Env → Nat → Nat × Flags) : Prop :=
  LaneGives i 15 (Quiet fun e t => (r e t).2)
    (fun e t => let z := srcs.any fun f => (e.pair f t).2
      [(2 * e.g.num d, ⟨BitVec.ofNat 32 (r e t).1, z⟩), (2 * e.g.num d + 1, ⟨BitVec.ofNat 32 ((r e t).1 / 2 ^ 32), z⟩)])
    (fun _ _ => []) (fun e t => (r e t).2) false
/-- An FP32 uniform instruction (R29, R132). -/
def UniF32 (i : Instr) (d : BitVec 7) (srcs : List (BitVec 7)) (sr : Bool) (r : Env → Nat × Flags) : Prop :=
  UniGives i 4 (UniQuiet fun e => (r e).2) (fun e => [(d.toNat, ⟨BitVec.ofNat 32 (r e).1, srcs.any fun f => (e.uni f).poison⟩)]) (fun _ => []) (fun _ => [])
    (fun e => (r e).2) sr (fun _ => none)
/-- An FP64 uniform instruction. -/
def UniF64 (i : Instr) (d : BitVec 7) (srcs : List (BitVec 7)) (r : Env → Nat × Flags) : Prop :=
  UniGives i 4 (UniQuiet fun e => (r e).2)
    (fun e => let z := srcs.any fun f => (e.upair f).2
      [(d.toNat, ⟨BitVec.ofNat 32 (r e).1, z⟩), (d.toNat + 1, ⟨BitVec.ofNat 32 ((r e).1 / 2 ^ 32), z⟩)]) (fun _ => []) (fun _ => [])
    (fun e => (r e).2) false (fun _ => none)

/-- A spectral instruction (R137, R138): the slots of D's register group, each with its value and flags. -/
def LanePacket (i : Instr) (d : BitVec 7) (ws : Env → Nat → List (Nat × (RegVal × Flags))) : Prop :=
  LaneGives i 6 (Quiet fun e t => (ws e t).foldl (fun f w => f ||| w.2.2) 0) (fun e t => (ws e t).map fun w => (8 * e.g.num d + w.1, w.2.1))
    (fun _ _ => []) (fun e t => (ws e t).foldl (fun f w => f ||| w.2.2) 0) false

/-- Wherever every active thread of this lane instruction meets the trap `t`, and the instruction passes the checks of R34, all threads trap
and no register, predicate or memory is written (R54). -/
def AllTrap (i : Instr) (t : Trap) (bad : Env → Nat → Prop) : Prop :=
  ∀ s e, s.env = some e → e.Clear i → e.p.mask ≠ 0 → (∀ u ∈ threadsOf e.p.mask, bad e u) →
    exec i s = .next ((s.setGrp e.gk (e.seeChorusBut i e.p.mask e.p.mask e.g)).trapEntry e.gk e.pi t e.p.mask noVa)

/-- Wherever this uniform instruction issues clear and meets the trap `t`, all threads trap, and nothing is written (R54). -/
def UniTraps (i : Instr) (t : Trap) (bad : Env → Prop) : Prop :=
  ∀ s e, s.env = some e → e.Clear i → bad e → exec i s = .next ((s.setGrp e.gk (e.seeChorus i e.g)).trapEntry e.gk e.pi t e.p.mask noVa)

/-! ### Frames -/

/-- The registers of a group as before (R33, R110): vector, uniform, predicate, index and special registers, and the threads not exited. -/
structure Grp.SameRegs (g' g : Grp) : Prop where
  v : g'.v = g.v
  s : g'.s = g.s
  p : g'.p = g.p
  q : g'.q = g.q
  x : g'.x = g.x
  flags : g'.flags = g.flags
  rmode : g'.rmode = g.rmode
  bankc : g'.bankc = g.bankc
  partn : g'.partn = g.partn
  trapCause : g'.trapCause = g.trapCause
  trapPc : g'.trapPc = g.trapPc
  trapMask : g'.trapMask = g.trapMask
  alive : g'.alive = g.alive

/-- Memory, the blocks, cores, contexts, tasks, windows and the device as before, and every group but one. -/
structure State.SameBut (t s : State) (gk : Nat) : Prop where
  mem : t.mem = s.mem
  blocks : t.blocks = s.blocks
  cores : t.cores = s.cores
  ctxs : t.ctxs = s.ctxs
  tasks : t.tasks = s.tasks
  windows : t.windows = s.windows
  dev : t.dev = s.dev
  errlog : t.errlog = s.errlog
  clock : t.clock = s.clock
  groups : ∀ k, k ≠ gk → t.grp k = s.grp k

/-- The path goes on at the next instruction with its threads. -/
def Env.onward (e : Env) (i : Instr) (g' : Grp) : Prop := g'.path e.pi = e.advance i (e.nextPc i) e.p

/-- Every access of the instruction passes the checks of R149, thread by thread, with these parts. -/
def Env.MemOk (e : Env) (i : Instr) (uni : Bool) (a : BitVec 7) (off : BitVec 20) (n : Nat) (need : Need) (align fe : Bool)
    (ps : Nat → List Part) : Prop :=
  ∀ t ∈ e.memThreads uni, e.memCheck i uni (e.ea uni a off t) n need align fe t = .ok (ps t)

/-- The instruction completes with results on their way (R32): the path goes on, registers and everything outside the group stay, the destinations
are pending under a fresh operation of the class, and the result holds these writes of every active thread, and the texture lookups still to be made. -/
def Env.Sends (e : Env) (i : Instr) (cls : OpClass) (looks : List Look) (vw : Nat → List (Nat × RegVal)) (fl : Nat → Flags) : Prop :=
  ∃ t g', exec i e.s = .next t ∧ t.grp e.gk = some g' ∧ e.onward i g' ∧ g'.SameRegs (e.seeChorus i e.g) ∧ t.SameBut e.s e.gk
    ∧ g'.pend = e.g.pend ++ marksOf e.s.seq cls ((threadsOf e.p.mask).map fun t => (t, { vw := vw t, fl := fl t }))
    ∧ t.results = e.s.results ++ [{ id := e.s.seq, gk := e.gk, cls := cls, mask := maskOf (threadsOf e.p.mask), sw := [],
                                    vw := (threadsOf e.p.mask).flatMap fun t => (vw t).map fun w => (128 * w.1 + t, w.2),
                                    flags := (threadsOf e.p.mask).foldl (fun f t => f ||| fl t) 0, looks := looks }]

/-- A table after writes of these keys, each at most once: the written ones hold what was written, all others what they held. -/
def Wrote {α : Type} [DecidableEq α] (d : α) (new old : SMap α) (ws : List (Nat × α)) : Prop :=
  (∀ w ∈ ws, (∀ u ∈ ws, u.1 = w.1 → u = w) → SMap.get d new w.1 = w.2) ∧ ∀ k, (∀ w ∈ ws, w.1 ≠ k) → SMap.get d new k = SMap.get d old k

/-- The register tables of a group stand in their canonical form. -/
def Grp.tidy (g : Grp) : Prop :=
  SMap.wf RegVal.zero g.v = true ∧ SMap.wf RegVal.zero g.s = true ∧ SMap.wf 0 g.p = true ∧ SMap.wf false g.q = true ∧ SMap.wf 0 g.x = true

/-! ### Invariants -/

/-- What the spec says the device's registers always hold: PODCNT and PKGID (R410), the trace buffer's size (R449), TTHROT, PKGW and
DIEW (R462), SCRUBH (R433). -/
structure State.RegistersLegal (s : State) : Prop where
  podcnt : 1 ≤ s.dev.podcnt ∧ s.dev.podcnt ≤ 288
  pkgid : s.dev.pkgid < 288
  trlog2 : 10 ≤ s.dev.trlog2 ∧ s.dev.trlog2 ≤ 24
  tthrot : 70 ≤ s.dev.tthrot ∧ s.dev.tthrot ≤ 105
  pkgw : 400 ≤ s.dev.pkgw ∧ s.dev.pkgw ≤ 3200
  diew : s.dev.diew.length = 8 ∧ s.dev.diew.sum ≤ s.dev.pkgw
  scrubh : 1 ≤ s.errlog.scrubh ∧ s.errlog.scrubh ≤ 168

/-- Memory stands in its canonical form (R264). -/
def State.Canonical (s : State) : Prop := s.mem.wf = true

end Sys2Proof.Machine
end

