-- ==== Sys2Proof/WellFormed.lean ====
section
/-! DEFINITION. Well-formed instructions: every field holds a value the spec gives a meaning (R34 check 1, R39 to R50). An
instruction that is not traps ILLOP when it issues. -/
namespace Sys2Proof

/-- Every field of the instruction holds a legal value. -/
abbrev Instr.WellFormed (i : Instr) : Prop := Machine.fieldsLegal i = true

end Sys2Proof
end

