-- ==== Sys2Proof/Certificates/Slice0/Obligations.lean ====
section
/-! DEFINITION. The statements for the provers. -/
open Sys2Proof Sys2Proof.Machine Host

/-! ### Encoding -/

/-- R36, R39 to R48: words of the spec's examples decode to the instructions they stand for. -/
def Obligations.DecodedWords : Prop :=
  decode 0x60010300 0x40000040 = .ok (.ld 0 4 6 2 0 0 0 0x40)
  ∧ decode 0x22010206 0 = .ok (.fmul 0 4 4 6)
  ∧ decode 0x19244007 0 = .ok (.icmp 1 2 1 0 7)
  ∧ decode 0x541FC0FD 0 = .ok (.brc 0 0x3FFD 0 0 1)
  ∧ decode 0x02210002 0 = .ok (.iaddc 1 4 0 2)
  ∧ decode 0xB6000000 0 = .ok (.nop 0)

/-- R36, R43: decoding the bytes of an instruction of the two sets gives the instruction, whatever its operands, and leaves the bytes
after it. An event has no words; a word with an unassigned opcode stands for itself. -/
def Obligations.DecodeEncode : Prop :=
  ∀ (i : Instr) (w : Word) (x : Option Word) (rest : List Byte), (∀ u, i ≠ .unassignedOpcode u) → encode i = some (w, x) →
    decodeBytes (bytesOfWord w ++ (match x with | some y => bytesOfWord y | none => []) ++ rest) = .ok (i, rest)

/-- R34, R36, R40: a word that decodes has no other reading: encoding what it decodes to gives the word back, the second word with it
where the instruction has one; so no bit of a decoded word is ignored. -/
def Obligations.EncodeDecode : Prop :=
  ∀ (w x : Word) (i : Instr), decode w x = .ok i → ∃ y, encode i = some (w, y) ∧ (y = none ∨ y = some x)

/-! ### Integer, logic, compare and move instructions -/

/-- R29, R98, R100, R102, R104 for the lane set: the result of each instruction without a carry, for every register and value, with latency 3. -/
def Obligations.IntegerLaneResults : Prop :=
  ∀ (st : BitVec 3) (d a b : BitVec 7) (imm : Word),
    let A := fun (e : Env) t => (e.vec a t).val
    let B := fun (e : Env) t => (e.vec b t).val
    let D := fun (e : Env) t => (e.vec d t).val
    LaneWord (.iadd st d a b) d [a, b] (fun e t => BitVec.ofNat 32 ((A e t).toNat + (B e t).toNat))
    ∧ LaneWord (.isub st d a b) d [a, b] (fun e t => BitVec.ofInt 32 ((A e t).toNat - (B e t).toNat))
    ∧ LaneWord (.imul st d a b) d [a, b] (fun e t => BitVec.ofNat 32 ((A e t).toNat * (B e t).toNat))
    ∧ LaneWord (.imulh st d a b) d [a, b] (fun e t => (BitVec.ofInt 64 ((A e t).toInt * (B e t).toInt)).extractLsb' 32 32)
    ∧ LaneWord (.imulhu st d a b) d [a, b] (fun e t => BitVec.ofNat 32 ((A e t).toNat * (B e t).toNat / 2 ^ 32))
    ∧ LaneWord (.imad st d a b) d [a, b, d] (fun e t => BitVec.ofNat 32 ((A e t).toNat * (B e t).toNat + (D e t).toNat))
    ∧ LaneWord (.imin st d a b) d [a, b] (fun e t => BitVec.ofInt 32 (min (A e t).toInt (B e t).toInt))
    ∧ LaneWord (.imax st d a b) d [a, b] (fun e t => BitVec.ofInt 32 (max (A e t).toInt (B e t).toInt))
    ∧ LaneWord (.iminu st d a b) d [a, b] (fun e t => BitVec.ofNat 32 (min (A e t).toNat (B e t).toNat))
    ∧ LaneWord (.imaxu st d a b) d [a, b] (fun e t => BitVec.ofNat 32 (max (A e t).toNat (B e t).toNat))
    ∧ LaneWord (.and st d a b) d [a, b] (fun e t => A e t &&& B e t)
    ∧ LaneWord (.or st d a b) d [a, b] (fun e t => A e t ||| B e t)
    ∧ LaneWord (.xor st d a b) d [a, b] (fun e t => A e t ^^^ B e t)
    ∧ LaneWord (.andn st d a b) d [a, b] (fun e t => A e t &&& ~~~(B e t))
    ∧ LaneWord (.shl st d a b) d [a, b] (fun e t => if (B e t).toNat < 32 then BitVec.ofNat 32 ((A e t).toNat * 2 ^ (B e t).toNat) else 0)
    ∧ LaneWord (.shr st d a b) d [a, b] (fun e t => if (B e t).toNat < 32 then BitVec.ofNat 32 ((A e t).toNat / 2 ^ (B e t).toNat) else 0)
    ∧ LaneWord (.sar st d a b) d [a, b] (fun e t =>
        if (B e t).toNat < 32 then BitVec.ofInt 32 ((A e t).toInt / 2 ^ (B e t).toNat) else if (A e t).toInt < 0 then 0xFFFFFFFF else 0)
    ∧ LaneWord (.rotl st d a b) d [a, b] (fun e t => (A e t).rotateLeft ((B e t).toNat % 32))
    ∧ LaneWord (.popc st d a) d [a] (fun e t => BitVec.ofNat 32 ((List.range 32).countP fun k => (A e t).getLsbD k))
    ∧ LaneWord (.clz st d a) d [a] (fun e t => BitVec.ofNat 32 (if (A e t).toNat = 0 then 32 else 31 - (A e t).toNat.log2))
    ∧ LaneWord (.brev st d a) d [a] (fun e t => (A e t).reverse)
    ∧ LaneWord (.mov st d a) d [a] A
    ∧ LaneWord (.limm st d imm) d [] (fun _ _ => imm)
    ∧ LaneWord (.iaddi st d a imm) d [a] (fun e t => BitVec.ofNat 32 ((A e t).toNat + imm.toNat))

/-- R29, R98, R100, R102, R104 for the uniform set: the result of each instruction without a carry, for every register and value, with latency 2. -/
def Obligations.IntegerUniformResults : Prop :=
  ∀ (st : BitVec 3) (d a b : BitVec 7) (imm : Word),
    let A := fun (e : Env) => (e.uni a).val
    let B := fun (e : Env) => (e.uni b).val
    let D := fun (e : Env) => (e.uni d).val
    UniWord (.iaddU st d a b) d [a, b] (fun e => BitVec.ofNat 32 ((A e).toNat + (B e).toNat))
    ∧ UniWord (.isubU st d a b) d [a, b] (fun e => BitVec.ofInt 32 ((A e).toNat - (B e).toNat))
    ∧ UniWord (.imulU st d a b) d [a, b] (fun e => BitVec.ofNat 32 ((A e).toNat * (B e).toNat))
    ∧ UniWord (.imulhU st d a b) d [a, b] (fun e => (BitVec.ofInt 64 ((A e).toInt * (B e).toInt)).extractLsb' 32 32)
    ∧ UniWord (.imulhuU st d a b) d [a, b] (fun e => BitVec.ofNat 32 ((A e).toNat * (B e).toNat / 2 ^ 32))
    ∧ UniWord (.imadU st d a b) d [a, b, d] (fun e => BitVec.ofNat 32 ((A e).toNat * (B e).toNat + (D e).toNat))
    ∧ UniWord (.iminU st d a b) d [a, b] (fun e => BitVec.ofInt 32 (min (A e).toInt (B e).toInt))
    ∧ UniWord (.imaxU st d a b) d [a, b] (fun e => BitVec.ofInt 32 (max (A e).toInt (B e).toInt))
    ∧ UniWord (.iminuU st d a b) d [a, b] (fun e => BitVec.ofNat 32 (min (A e).toNat (B e).toNat))
    ∧ UniWord (.imaxuU st d a b) d [a, b] (fun e => BitVec.ofNat 32 (max (A e).toNat (B e).toNat))
    ∧ UniWord (.andU st d a b) d [a, b] (fun e => A e &&& B e)
    ∧ UniWord (.orU st d a b) d [a, b] (fun e => A e ||| B e)
    ∧ UniWord (.xorU st d a b) d [a, b] (fun e => A e ^^^ B e)
    ∧ UniWord (.andnU st d a b) d [a, b] (fun e => A e &&& ~~~(B e))
    ∧ UniWord (.shlU st d a b) d [a, b] (fun e => if (B e).toNat < 32 then BitVec.ofNat 32 ((A e).toNat * 2 ^ (B e).toNat) else 0)
    ∧ UniWord (.shrU st d a b) d [a, b] (fun e => if (B e).toNat < 32 then BitVec.ofNat 32 ((A e).toNat / 2 ^ (B e).toNat) else 0)
    ∧ UniWord (.sarU st d a b) d [a, b] (fun e =>
        if (B e).toNat < 32 then BitVec.ofInt 32 ((A e).toInt / 2 ^ (B e).toNat) else if (A e).toInt < 0 then 0xFFFFFFFF else 0)
    ∧ UniWord (.rotlU st d a b) d [a, b] (fun e => (A e).rotateLeft ((B e).toNat % 32))
    ∧ UniWord (.popcU st d a) d [a] (fun e => BitVec.ofNat 32 ((List.range 32).countP fun k => (A e).getLsbD k))
    ∧ UniWord (.clzU st d a) d [a] (fun e => BitVec.ofNat 32 (if (A e).toNat = 0 then 32 else 31 - (A e).toNat.log2))
    ∧ UniWord (.brevU st d a) d [a] (fun e => (A e).reverse)
    ∧ UniWord (.movU st d a) d [a] A
    ∧ UniWord (.limmU st d imm) d [] (fun _ => imm)
    ∧ UniWord (.iaddiU st d a imm) d [a] (fun e => BitVec.ofNat 32 ((A e).toNat + imm.toNat))

/-- R99: the field BFE and BFI name: L = min(LEN, 32 − POS), 0 where POS is 32 or more. BFE takes L bits of A from POS, sign-extended where
SX is set; BFI replaces them in D by the low bits of A. Bits 31 to 17 of the descriptor do not matter. -/
def Obligations.BitFieldResults : Prop :=
  (∀ (a b : Word), let pos := b.toNat % 256; let len := b.toNat / 256 % 256
    let l := if pos < 32 then min len (32 - pos) else 0
    (l = 0 → bitExtract a b = 0)
    ∧ (l ≠ 0 → b.getLsbD 16 = false → bitExtract a b = BitVec.ofNat 32 (a.toNat / 2 ^ pos % 2 ^ l))
    ∧ (l ≠ 0 → b.getLsbD 16 = true → bitExtract a b = ((a >>> pos).setWidth l).signExtend 32))
  ∧ (∀ (a b d : Word) (k : Nat), k < 32 → let pos := b.toNat % 256; let len := b.toNat / 256 % 256
    let l := if pos < 32 then min len (32 - pos) else 0
    (bitInsert a b d).getLsbD k = if pos ≤ k ∧ k < pos + l then a.getLsbD (k - pos) else d.getLsbD k)
  ∧ ∀ (st : BitVec 3) (d a b : BitVec 7),
    LaneWord (.bfe st d a b) d [a, b] (fun e t => bitExtract (e.vec a t).val (e.vec b t).val)
    ∧ LaneWord (.bfi st d a b) d [a, b, d] (fun e t => bitInsert (e.vec a t).val (e.vec b t).val (e.vec d t).val)
    ∧ UniWord (.bfeU st d a b) d [a, b] (fun e => bitExtract (e.uni a).val (e.uni b).val)
    ∧ UniWord (.bfiU st d a b) d [a, b, d] (fun e => bitInsert (e.uni a).val (e.uni b).val (e.uni d).val)

/-- R98, R100, R101: IADDC and ISUBB add or subtract the carry (p6 of the thread, q6) and write the new one beside D; a poisoned source
traps POISON, and neither D nor the carry is written. -/
def Obligations.CarryResults : Prop :=
  ∀ (st : BitVec 3) (d a b : BitVec 7),
    let clean := fun (e : Env) => ∀ t ∈ threadsOf e.p.mask, (e.vec a t).poison = false ∧ (e.vec b t).poison = false
    let uclean := fun (e : Env) => (e.uni a).poison = false ∧ (e.uni b).poison = false
    let dirty := fun (e : Env) t => (e.vec a t).poison = true ∨ (e.vec b t).poison = true
    LaneGives (.iaddc st d a b) 3 clean
      (fun e t => [(e.g.num d, ⟨BitVec.ofNat 32 ((e.vec a t).val.toNat + (e.vec b t).val.toNat + (e.g.pr 6 t).toNat), false⟩)])
      (fun e t => [(6, decide (2 ^ 32 ≤ (e.vec a t).val.toNat + (e.vec b t).val.toNat + (e.g.pr 6 t).toNat))]) (fun _ _ => 0) false
    ∧ LaneGives (.isubb st d a b) 3 clean
      (fun e t => [(e.g.num d, ⟨BitVec.ofInt 32 ((e.vec a t).val.toNat - (e.vec b t).val.toNat - (e.g.pr 6 t).toNat), false⟩)])
      (fun e t => [(6, decide ((e.vec a t).val.toNat < (e.vec b t).val.toNat + (e.g.pr 6 t).toNat))]) (fun _ _ => 0) false
    ∧ UniGives (.iaddcU st d a b) 2 uclean
      (fun e => [(d.toNat, ⟨BitVec.ofNat 32 ((e.uni a).val.toNat + (e.uni b).val.toNat + (e.g.qr 6).toNat), false⟩)])
      (fun e => [(6, decide (2 ^ 32 ≤ (e.uni a).val.toNat + (e.uni b).val.toNat + (e.g.qr 6).toNat))]) (fun _ => []) (fun _ => 0) false (fun _ => none)
    ∧ UniGives (.isubbU st d a b) 2 uclean
      (fun e => [(d.toNat, ⟨BitVec.ofInt 32 ((e.uni a).val.toNat - (e.uni b).val.toNat - (e.g.qr 6).toNat), false⟩)])
      (fun e => [(6, decide ((e.uni a).val.toNat < (e.uni b).val.toNat + (e.g.qr 6).toNat))]) (fun _ => []) (fun _ => 0) false (fun _ => none)
    ∧ AllTrap (.iaddc st d a b) ⟨0x0B, 0⟩ dirty
    ∧ AllTrap (.isubb st d a b) ⟨0x0B, 0⟩ dirty

/-- R29, R41, R102, R103, R104: compares write the predicate their condition gives, a poisoned source trapping POISON; CMOV writes where its predicate is
true and nothing where it is false; moves, selects, immediates and
the exchange of one thread's value deliver it with its poison; MOVU to an index register commits, and traps POISON on a poisoned source. -/
def Obligations.CompareAndMoveResults : Prop :=
  ∀ (st : BitVec 3) (c : BitVec 4) (p : BitVec 3) (d a b t : BitVec 7) (k n : BitVec 1) (imm : BitVec 14) (off : BitVec 20),
    let cond := fun (x y : Word) => match c.toNat with
      | 0 => decide (x = y) | 1 => decide (x ≠ y) | 2 => decide (x.toInt < y.toInt) | 3 => decide (x.toInt ≤ y.toInt)
      | 4 => decide (x.toInt > y.toInt) | 5 => decide (x.toInt ≥ y.toInt) | 6 => decide (x.toNat < y.toNat) | 7 => decide (x.toNat ≤ y.toNat)
      | 8 => decide (x.toNat > y.toNat) | 9 => decide (x.toNat ≥ y.toNat) | _ => false
    LaneGives (.icmp st c p a b) 3 (fun e => ∀ u ∈ threadsOf e.p.mask, (e.vec a u).poison = false ∧ (e.vec b u).poison = false) (fun _ _ => [])
      (fun e u => [(p.toNat, cond (e.vec a u).val (e.vec b u).val)]) (fun _ _ => 0) false
    ∧ UniGives (.icmpU st c p a b) 2 (fun e => (e.uni a).poison = false ∧ (e.uni b).poison = false) (fun _ => [])
      (fun e => [(p.toNat, cond (e.uni a).val (e.uni b).val)]) (fun _ => []) (fun _ => 0) false (fun _ => none)
    ∧ AllTrap (.icmp st c p a b) ⟨0x0B, 0⟩ (fun e u => (e.vec a u).poison = true ∨ (e.vec b u).poison = true)
    ∧ LaneGives (.cmov st d k n p b) 3 (fun _ => True)
      (fun e u => if ((k == 1) || e.g.pr p.toNat u) != (n == 1) then [(e.g.num d, e.vec b u)] else []) (fun _ _ => []) (fun _ _ => 0) false
    ∧ UniGives (.cmovU st d k n p b) 2 (fun _ => True)
      (fun e => if ((k == 1) || e.g.qr p.toNat) != (n == 1) then [(d.toNat, e.uni b)] else []) (fun _ => []) (fun _ => []) (fun _ => 0) false (fun _ => none)
    ∧ LaneWord (.movi st d imm) d [] (fun _ _ => imm.signExtend 32)
    ∧ UniWord (.moviU st d imm) d [] (fun _ => imm.signExtend 32)
    ∧ LaneGives (.movu st d a) 3 (fun _ => True) (fun e _ => [(e.g.num d, e.uni a)]) (fun _ _ => []) (fun _ _ => 0) false
    ∧ UniGives (.movuX st d a) 3 (fun e => (e.uni a).poison = false) (fun _ => []) (fun _ => []) (fun e => [(d.toNat, (e.uni a).val)]) (fun _ => 0) false
      (fun _ => none)
    ∧ UniTraps (.icmpU st c p a b) ⟨0x0B, 0⟩ (fun e => (e.uni a).poison = true ∨ (e.uni b).poison = true)
    ∧ UniTraps (.movuX st d a) ⟨0x0B, 0⟩ (fun e => (e.uni a).poison = true)
    ∧ UniGives (.rdlane st d a t) 2 (fun _ => True)
      (fun e => [(d.toNat, if e.p.mask.getLsbD t.toNat then e.vec a t.toNat else ⟨0, false⟩)]) (fun _ => []) (fun _ => []) (fun _ => 0) false (fun _ => none)
    ∧ UniGives (.lea st d a off) 2 (fun _ => True)
      (fun e => let x := (e.sreg (a.toNat + 1)).val ++ (e.sreg a.toNat).val + off.signExtend 64
        let z := (e.sreg a.toNat).poison || (e.sreg (a.toNat + 1)).poison
        [(d.toNat, ⟨x.extractLsb' 0 32, z⟩), (d.toNat + 1, ⟨x.extractLsb' 32 32, z⟩)]) (fun _ => []) (fun _ => []) (fun _ => 0) false (fun _ => none)

/-! ### Floating point, conversions, special functions, complex and spectral instructions -/

/-- R121, R123, R124, R125, R127: each lane operation rounds its exact result once under the mode in force (R120), latency 6, or 15 for FP64; the
threads raise its flags. Of numbers the exact result is the sum, the product, or the product and the sum, and what round_to makes of it is stated beside R85; x − x is +0,
or −0 under RDN, of x not 0; ∞ − ∞ and 0 × ∞ give the canonical NaN with IV; a NaN gives it too, with IV where it is signalling. -/
def Obligations.FloatLaneResults : Prop :=
  ∀ (st : BitVec 3) (d a b : BitVec 7) (imm : Word),
    let m := fun (e : Env) => arithMode e.g
    let A := fun (e : Env) t => (e.vec a t).val.toNat
    let B := fun (e : Env) t => (e.vec b t).val.toNat
    let D := fun (e : Env) t => (e.vec d t).val.toNat
    let A2 := fun (e : Env) t => (e.pair a t).1.toNat
    let B2 := fun (e : Env) t => (e.pair b t).1.toNat
    let D2 := fun (e : Env) t => (e.pair d t).1.toNat
    LaneF32 (.fadd st d a b) d [a, b] false (fun e t => fAdd .fp32 (m e) (A e t) (B e t))
    ∧ LaneF32 (.fsub st d a b) d [a, b] false (fun e t => fSub .fp32 (m e) (A e t) (B e t))
    ∧ LaneF32 (.fmul st d a b) d [a, b] false (fun e t => fMul .fp32 (m e) (A e t) (B e t))
    ∧ LaneF32 (.ffma st d a b) d [a, b, d] false (fun e t => fFma .fp32 (m e) (A e t) (B e t) (D e t))
    ∧ LaneF32 (.fmin st d a b) d [a, b] false (fun e t => fMinMax .fp32 false (A e t) (B e t))
    ∧ LaneF32 (.fmax st d a b) d [a, b] false (fun e t => fMinMax .fp32 true (A e t) (B e t))
    ∧ LaneF32 (.fcpys st d a b) d [a, b] false (fun e t => (A e t % 2 ^ 31 + B e t / 2 ^ 31 * 2 ^ 31, 0))
    ∧ LaneF32 (.fmuli st d a imm) d [a] false (fun e t => fMul .fp32 (m e) (A e t) imm.toNat)
    ∧ LaneF64 (.dadd st d a b) d [a, b] (fun e t => fAdd .fp64 (m e) (A2 e t) (B2 e t))
    ∧ LaneF64 (.dmul st d a b) d [a, b] (fun e t => fMul .fp64 (m e) (A2 e t) (B2 e t))
    ∧ LaneF64 (.dfma st d a b) d [a, b, d] (fun e t => fFma .fp64 (m e) (A2 e t) (B2 e t) (D2 e t))
    ∧ LaneF64 (.dmin st d a b) d [a, b] (fun e t => fMinMax .fp64 false (A2 e t) (B2 e t))
    ∧ LaneF64 (.dmax st d a b) d [a, b] (fun e t => fMinMax .fp64 true (A2 e t) (B2 e t))
    ∧ (∀ (f : Fmt) (mode : RMode) (x y z : Nat) (p q r : Rat), (f = .fp32 ∨ f = .fp64) → f.value x = .num p → f.value y = .num q → f.value z = .num r →
        let si := fun (l : List Nat) => if l.any f.subnormal then fSI else 0
        let rounds := fun (g : Nat × Flags) (v : Rat) (l : List Nat) => v ≠ 0 → g = ((roundTo f mode (.num v)).1, (roundTo f mode (.num v)).2 ||| si l)
        rounds (fAdd f mode x y) (p + q) [x, y] ∧ rounds (fSub f mode x y) (p - q) [x, y] ∧ rounds (fMul f mode x y) (p * q) [x, y]
        ∧ rounds (fFma f mode x y z) (p * q + r) [x, y, z]
        ∧ (p = q → f.value (fSub f mode x y).1 = .zero (decide (mode = .rdn)) ∧ (fSub f mode x y).2 = si [x, y])
        ∧ (fMinMax f false x y).1 = (if q < p then y else x) ∧ (fMinMax f true x y).1 = (if p < q then y else x))
    ∧ (∀ (f : Fmt) (mode : RMode) (x y : Nat), (f = .fp32 ∨ f = .fp64) →
        let bad := fun (g : Nat × Flags) => g.1 = f.qnan ∧ g.2 &&& fIV ≠ 0
        (∀ sg, f.value x = .inf sg → f.value y = .inf (!sg) → bad (fAdd f mode x y)) ∧ (∀ sg, f.value x = .inf sg → f.value y = .inf sg → bad (fSub f mode x y))
        ∧ (∀ sg sh, f.value x = .inf sg → f.value y = .zero sh → bad (fMul f mode x y) ∧ bad (fMul f mode y x))
        ∧ (∀ sn, f.value x = .nan sn → (fAdd f mode x y).1 = f.qnan ∧ (fAdd f mode y x).1 = f.qnan ∧ (fMul f mode x y).1 = f.qnan ∧ (fMul f mode y x).1 = f.qnan
          ∧ (sn = true → bad (fAdd f mode x y) ∧ bad (fMul f mode x y))))

/-- R132: the uniform operations compute as the lane ones, once, with latency 4. -/
def Obligations.FloatUniformResults : Prop :=
  ∀ (st : BitVec 3) (d a b : BitVec 7),
    let m := fun (e : Env) => arithMode e.g
    let A := fun (e : Env) => (e.uni a).val.toNat
    let B := fun (e : Env) => (e.uni b).val.toNat
    let D := fun (e : Env) => (e.uni d).val.toNat
    let A2 := fun (e : Env) => (e.upair a).1.toNat
    let B2 := fun (e : Env) => (e.upair b).1.toNat
    let D2 := fun (e : Env) => (e.upair d).1.toNat
    UniF32 (.faddU st d a b) d [a, b] false (fun e => fAdd .fp32 (m e) (A e) (B e))
    ∧ UniF32 (.fsubU st d a b) d [a, b] false (fun e => fSub .fp32 (m e) (A e) (B e))
    ∧ UniF32 (.fmulU st d a b) d [a, b] false (fun e => fMul .fp32 (m e) (A e) (B e))
    ∧ UniF32 (.ffmaU st d a b) d [a, b, d] false (fun e => fFma .fp32 (m e) (A e) (B e) (D e))
    ∧ UniF32 (.fminU st d a b) d [a, b] false (fun e => fMinMax .fp32 false (A e) (B e))
    ∧ UniF32 (.fmaxU st d a b) d [a, b] false (fun e => fMinMax .fp32 true (A e) (B e))
    ∧ UniF32 (.fcpysU st d a b) d [a, b] false (fun e => (A e % 2 ^ 31 + B e / 2 ^ 31 * 2 ^ 31, 0))
    ∧ UniF64 (.daddU st d a b) d [a, b] (fun e => fAdd .fp64 (m e) (A2 e) (B2 e))
    ∧ UniF64 (.dmulU st d a b) d [a, b] (fun e => fMul .fp64 (m e) (A2 e) (B2 e))
    ∧ UniF64 (.dfmaU st d a b) d [a, b, d] (fun e => fFma .fp64 (m e) (A2 e) (B2 e) (D2 e))
    ∧ UniF64 (.dminU st d a b) d [a, b] (fun e => fMinMax .fp64 false (A2 e) (B2 e))
    ∧ UniF64 (.dmaxU st d a b) d [a, b] (fun e => fMinMax .fp64 true (A2 e) (B2 e))

/-- R41, R126, R132: floating-point compares write the predicate of their condition and raise the flags of the comparison; a poisoned source
traps POISON. Where both sources are numbers, zeros among them, the condition is that of their exact values; against a NaN only the unordered conditions
hold. IV is raised for a signalling NaN, and for any NaN by LT, LE, GT and GE.

R73, R82, R85: round_to of a nonzero number in an IEEE format: without a flag exactly where the number is a value of the format; RDN gives the greatest value not
above it and RUP the least not below, or an infinity where there is none; RTZ the one of these nearer 0; RNE and RNA a nearest value, of two the one with even bits and
the one of greater magnitude, and an infinity from half a unit above the largest value on; NX where the result is not the number, and UF beside it where the result's
magnitude is below the smallest normal value.

R128 to R132, R145: conversions, rounding to integral values and classes; SR conversions advance the sequence of the threads (R83). -/
def Obligations.FloatComparesAndConversions : Prop :=
  ((∀ (st : BitVec 3) (c : BitVec 4) (p : BitVec 3) (a b : BitVec 7),
    let clean := fun (e : Env) => ∀ u ∈ threadsOf e.p.mask, (e.vec a u).poison = false ∧ (e.vec b u).poison = false
    let clean2 := fun (e : Env) => ∀ u ∈ threadsOf e.p.mask, (e.pair a u).2 = false ∧ (e.pair b u).2 = false
    let R := fun (e : Env) u => fCmp .fp32 c.toNat (e.vec a u).val.toNat (e.vec b u).val.toNat
    let R2 := fun (e : Env) u => fCmp .fp64 c.toNat (e.pair a u).1.toNat (e.pair b u).1.toNat
    let U := fun (e : Env) => fCmp .fp32 c.toNat (e.uni a).val.toNat (e.uni b).val.toNat
    let U2 := fun (e : Env) => fCmp .fp64 c.toNat (e.upair a).1.toNat (e.upair b).1.toNat
    LaneGives (.fcmp st c p a b) 3 (fun e => clean e ∧ Quiet (fun e u => (R e u).2) e) (fun _ _ => []) (fun e u => [(p.toNat, (R e u).1)])
      (fun e u => (R e u).2) false
    ∧ LaneGives (.dcmp st c p a b) 15 (fun e => clean2 e ∧ Quiet (fun e u => (R2 e u).2) e) (fun _ _ => []) (fun e u => [(p.toNat, (R2 e u).1)])
      (fun e u => (R2 e u).2) false
    ∧ UniGives (.fcmpU st c p a b) 4 (fun e => ((e.uni a).poison = false ∧ (e.uni b).poison = false) ∧ UniQuiet (fun e => (U e).2) e) (fun _ => [])
      (fun e => [(p.toNat, (U e).1)]) (fun _ => []) (fun e => (U e).2) false (fun _ => none)
    ∧ UniGives (.dcmpU st c p a b) 4 (fun e => ((e.upair a).2 = false ∧ (e.upair b).2 = false) ∧ UniQuiet (fun e => (U2 e).2) e) (fun _ => [])
      (fun e => [(p.toNat, (U2 e).1)]) (fun _ => []) (fun e => (U2 e).2) false (fun _ => none)
    ∧ AllTrap (.fcmp st c p a b) ⟨0x0B, 0⟩ (fun e u => (e.vec a u).poison = true ∨ (e.vec b u).poison = true)
    ∧ AllTrap (.dcmp st c p a b) ⟨0x0B, 0⟩ (fun e u => (e.pair a u).2 = true ∨ (e.pair b u).2 = true))
  ∧ (∀ (fmt : Fmt) (x y : Nat) (p q : Rat),
      let num := fun (n : Nat) (r : Rat) => fmt.value n = .num r ∨ (r = 0 ∧ ∃ sg, fmt.value n = .zero sg)
      num x p → num y q → (fCmp fmt 0 x y).1 = decide (p = q) ∧ (fCmp fmt 1 x y).1 = decide (p ≠ q) ∧ (fCmp fmt 2 x y).1 = decide (p < q)
      ∧ (fCmp fmt 3 x y).1 = decide (p ≤ q) ∧ (fCmp fmt 4 x y).1 = decide (q < p) ∧ (fCmp fmt 5 x y).1 = decide (q ≤ p)
      ∧ (fCmp fmt 10 x y).1 = true ∧ (fCmp fmt 11 x y).1 = false ∧ (fCmp fmt 12 x y).1 = decide (p = q) ∧ (fCmp fmt 13 x y).1 = decide (p ≠ q))
  ∧ (∀ (fmt : Fmt) (c x y : Nat) (sn : Bool), fmt.value x = .nan sn ∨ fmt.value y = .nan sn →
      (fCmp fmt c x y).1 = decide (c = 11 ∨ c = 12 ∨ c = 13))
  ∧ ∀ (fmt : Fmt) (c x y : Nat),
      ((fCmp fmt c x y).2 &&& fIV ≠ 0 ↔ (fmt.value x = .nan true ∨ fmt.value y = .nan true) ∨ (2 ≤ c ∧ c ≤ 5 ∧ (fmt.value x = .nan false ∨ fmt.value y = .nan false))))
  ∧ (∀ (fmt : Fmt) (lim : Rat) (emin : Int) (q : Rat), q ≠ 0 →
    (fmt, lim, emin) ∈ [(Fmt.fp32, pow2 128 - pow2 103, (-126 : Int)), (.fp64, pow2 1024 - pow2 970, -1022), (.fp16, 65520, -14), (.bf16, pow2 128 - pow2 119, -126),
      (.e5m2, 61440, -14)] →
    let num := fun (n : Nat) (v : Rat) => fmt.value n = .num v ∨ (v = 0 ∧ ∃ sg, fmt.value n = .zero sg)
    let R := fun (mode : RMode) => roundTo fmt mode (.num q)
    let near := fun (v : Rat) => ∀ n w, num n w → |q - v| ≤ |q - w|
    (∀ mode, ((R mode).2 = 0 ↔ ∃ n, fmt.value n = .num q) ∧ ((R mode).2 &&& fNX ≠ 0 ↔ fmt.value (R mode).1 ≠ .num q)
      ∧ (∀ v, num (R mode).1 v → ((R mode).2 &&& fUF ≠ 0 ↔ v ≠ q ∧ |v| < pow2 emin)))
    ∧ ((∃ v, num (R .rdn).1 v ∧ v ≤ q ∧ ∀ n w, num n w → w ≤ q → w ≤ v) ∨ (fmt.value (R .rdn).1 = .inf true ∧ ∀ n w, num n w → q < w))
    ∧ ((∃ v, num (R .rup).1 v ∧ q ≤ v ∧ ∀ n w, num n w → q ≤ w → v ≤ w) ∨ (fmt.value (R .rup).1 = .inf false ∧ ∀ n w, num n w → w < q))
    ∧ (R .rtz).1 = (if 0 < q then (R .rdn).1 else (R .rup).1)
    ∧ (∀ mode, (mode = .rne ∨ mode = .rna) → (lim ≤ |q| → fmt.value (R mode).1 = .inf (decide (q < 0)))
      ∧ (|q| < lim → ∃ v, num (R mode).1 v ∧ near v
        ∧ ∀ n w, num n w → w ≠ v → |q - w| = |q - v| → if mode = .rne then (R mode).1 % 2 = 0 else |w| < |v|)))
  ∧ (∀ (st : BitVec 3) (d a : BitVec 7) (c : BitVec 4) (m rm : BitVec 3) (dir : BitVec 1) (fxw : BitVec 2) (frac : BitVec 7),
    let X := fun (e : Env) t => if dcvtA c = 1 then ((e.vec a t).val.toNat, (e.vec a t).poison) else ((e.pair a t).1.toNat, (e.pair a t).2)
    let Y := fun (e : Env) => if dcvtA c = 1 then ((e.uni a).val.toNat, (e.uni a).poison) else ((e.upair a).1.toNat, (e.upair a).2)
    let R := fun (e : Env) t => dcvtOp c (convMode e m t 0) (X e t).1
    let Q := fun (e : Env) => dcvtOp c (convMode e m 127 0) (Y e).1
    let n := if fxw = 1 then 4 else 2
    let F := fun (e : Env) t => roundInt (32 * n) true (convMode e rm t 0)
      (match Fmt.fp32.value (e.vec a t).val.toNat with | .num q => .num (q * pow2 frac.toNat) | y => y)
    let G := fun (e : Env) t => roundTo .fp32 (convMode e rm t 0) (.ofRat ((signedOf (32 * n) (e.wide (2 * e.g.num a) t n).1 : Rat) * pow2 (-(frac.toNat : Int))))
    LaneF32 (.fcvt st d a c m) d [a] (m == 5) (fun e t => fcvtOp c (convMode e m t 0) (e.vec a t).val.toNat)
    ∧ UniF32 (.fcvtU st d a c m) d [a] (m == 5) (fun e => fcvtOp c (convMode e m 127 0) (e.uni a).val.toNat)
    ∧ LaneF32 (.frnd st d a m) d [a] false (fun e t => fRint .fp32 (convMode e m t 0) (e.vec a t).val.toNat)
    ∧ UniF32 (.frndU st d a m) d [a] false (fun e => fRint .fp32 (convMode e m 127 0) (e.uni a).val.toNat)
    ∧ LaneF32 (.fclass st d a) d [a] false (fun e t => (fClass (e.vec a t).val.toNat, 0))
    ∧ UniF32 (.fclassU st d a) d [a] false (fun e => (fClass (e.uni a).val.toNat, 0))
    ∧ LaneGives (.dcvt st d a c m) 15 (Quiet fun e t => (R e t).2)
        (fun e t => if dcvtD c = 1 then [(e.g.num d, ⟨BitVec.ofNat 32 (R e t).1, (X e t).2⟩)]
          else [(2 * e.g.num d, ⟨BitVec.ofNat 32 (R e t).1, (X e t).2⟩), (2 * e.g.num d + 1, ⟨BitVec.ofNat 32 ((R e t).1 / 2 ^ 32), (X e t).2⟩)])
        (fun _ _ => []) (fun e t => (R e t).2) (m == 5)
    ∧ UniGives (.dcvtU st d a c m) 4 (UniQuiet fun e => (Q e).2)
        (fun e => if dcvtD c = 1 then [(d.toNat, ⟨BitVec.ofNat 32 (Q e).1, (Y e).2⟩)]
          else [(d.toNat, ⟨BitVec.ofNat 32 (Q e).1, (Y e).2⟩), (d.toNat + 1, ⟨BitVec.ofNat 32 ((Q e).1 / 2 ^ 32), (Y e).2⟩)])
        (fun _ => []) (fun _ => []) (fun e => (Q e).2) (m == 5) (fun _ => none)
    ∧ (dir = 0 → LaneGives (.cvtfx st d a dir rm fxw frac) 6 (Quiet fun e t => (F e t).2 ||| siOf .fp32 [(e.vec a t).val.toNat])
        (fun e t => (List.range n).map fun k => (2 * e.g.num d + k, ⟨BitVec.ofNat 32 ((F e t).1 / 2 ^ (32 * k)), (e.vec a t).poison⟩))
        (fun _ _ => []) (fun e t => (F e t).2 ||| siOf .fp32 [(e.vec a t).val.toNat]) (rm == 5))
    ∧ (dir = 1 → LaneGives (.cvtfx st d a dir rm fxw frac) 6 (Quiet fun e t => (G e t).2)
        (fun e t => [(e.g.num d, ⟨BitVec.ofNat 32 (G e t).1, (e.wide (2 * e.g.num a) t n).2⟩)]) (fun _ _ => []) (fun e t => (G e t).2) (rm == 5)))

/-- R32, R133, R134: the special functions deliver their value and flags after a time that is not fixed, their destinations pending until then. NaN, infinities, zeros and
the operands R134 lists give what it lists; RCP rounds 1/x, and SQRT and RSQ give the FP32 value nearest the root and its inverse. -/
def Obligations.SpecialFunctionResults : Prop :=
  ∀ (st : BitVec 3) (d a : BitVec 7),
    let gives := fun (i : Instr) (fn : SpecFn) => VariableGives i (Quiet fun e t => (fn.eval (e.vec a t).val).2)
      (fun e t => [(e.g.num d, ⟨(fn.eval (e.vec a t).val).1, (e.vec a t).poison⟩)]) (fun e t => (fn.eval (e.vec a t).val).2)
    gives (.rcp st d a) .rcp ∧ gives (.rsq st d a) .rsq ∧ gives (.sqrt st d a) .sqrt ∧ gives (.exp2 st d a) .exp2 ∧ gives (.log2 st d a) .log2
    ∧ gives (.sinpi st d a) .sinpi ∧ gives (.cospi st d a) .cospi ∧ gives (.tanh st d a) .tanh ∧ gives (.sigm st d a) .sigm
    ∧ gives (.erf st d a) .erf ∧ gives (.gelu st d a) .gelu ∧ gives (.silu st d a) .silu
    ∧ ∀ (x : Word), let v := Fmt.fp32.value x.toNat
      let qnan : Word := 0x7FC00000; let inf : Word := 0x7F800000; let ninf : Word := 0xFF800000; let nz : Word := 0x80000000; let one : Word := 0x3F800000
      let mone : Word := 0xBF800000; let half : Word := 0x3F000000
      let has := fun (y : Word) (q : Rat) => Fmt.fp32.value y.toNat = .num q ∨ (q = 0 ∧ ∃ sg, Fmt.fp32.value y.toNat = .zero sg)
      (∀ fn sn, fn ≠ SpecFn.exp → v = .nan sn → fn.eval x = (qnan, if sn = true then fIV else 0))
      ∧ (v = .inf false → ∀ r ∈ [(SpecFn.rcp, (0 : Word), (0 : Flags)), (.rsq, 0, 0), (.sqrt, inf, 0), (.exp2, inf, 0), (.log2, inf, 0), (.sinpi, qnan, fIV), (.cospi, qnan, fIV),
          (.tanh, one, 0), (.erf, one, 0), (.sigm, one, 0), (.gelu, inf, 0), (.silu, inf, 0)], r.1.eval x = r.2)
      ∧ (v = .inf true → ∀ r ∈ [(SpecFn.rcp, nz, (0 : Flags)), (.rsq, qnan, fIV), (.sqrt, qnan, fIV), (.exp2, 0, 0), (.log2, qnan, fIV), (.sinpi, qnan, fIV), (.cospi, qnan, fIV),
          (.tanh, mone, 0), (.erf, mone, 0), (.sigm, 0, 0), (.gelu, nz, 0), (.silu, nz, 0)], r.1.eval x = r.2)
      ∧ (∀ sg, v = .zero sg → let z : Word := if sg = true then nz else 0; let i : Word := if sg = true then ninf else inf
        ∀ r ∈ [(SpecFn.rcp, i, fDZ), (.rsq, i, fDZ), (.sqrt, z, 0), (.exp2, one, 0), (.log2, ninf, fDZ), (.sinpi, z, 0), (.cospi, one, 0), (.tanh, z, 0), (.erf, z, 0),
          (.sigm, half, 0), (.gelu, z, 0), (.silu, z, 0)], r.1.eval x = r.2)
      ∧ (∀ q, v = .num q →
        (q < 0 → ∀ fn, fn = SpecFn.rsq ∨ fn = .sqrt ∨ fn = .log2 → fn.eval x = (qnan, fIV ||| (if Fmt.fp32.subnormal x.toNat = true then fSI else 0)))
        ∧ (128 ≤ q → SpecFn.exp2.eval x = (inf, fOF ||| fNX))
        ∧ (∀ k : Int, q = k → -149 ≤ k → k ≤ 127 → has (SpecFn.exp2.eval x).1 (pow2 k) ∧ (SpecFn.exp2.eval x).2 &&& fNX = 0)
        ∧ (∀ k : Int, q = pow2 k → has (SpecFn.log2.eval x).1 k)
        ∧ (∀ k : Int, q = k → SpecFn.sinpi.eval x = (if q < 0 then nz else 0, 0) ∧ SpecFn.cospi.eval x = (if k % 2 = 0 then one else mone, 0))
        ∧ (∀ k : Int, q = k + 1 / 2 → SpecFn.sinpi.eval x = (if k % 2 = 0 then one else mone, 0) ∧ SpecFn.cospi.eval x = (0, 0))
        ∧ (SpecFn.rcp.eval x).1 = BitVec.ofNat 32 (roundTo .fp32 .rne (.num (1 / q))).1
        ∧ (0 < q → ∃ r s, has (SpecFn.sqrt.eval x).1 r ∧ has (SpecFn.rsq.eval x).1 s ∧ 0 < r ∧ 0 < s
          ∧ ∀ (y : Word) w, has y w → (r < w → q ≤ ((r + w) / 2) * ((r + w) / 2)) ∧ (0 ≤ w → w < r → ((r + w) / 2) * ((r + w) / 2) ≤ q)
            ∧ (s < w → 1 ≤ ((s + w) / 2) * ((s + w) / 2) * q) ∧ (0 ≤ w → w < s → ((s + w) / 2) * ((s + w) / 2) * q ≤ 1)))

/-- R135, R136: the complex operations: real and imaginary part of A ± B, A × B, A × B + D, each a sum of products rounded once, and the
five unary operations of ZOP.

R137 to R144: the spectral packets slot by slot, and the polarisation operations on the four registers of a Stokes group. WROTS keeps I and V and turns Q and U by
the faithful cosine and sine of 2πt, which are exact at its multiples of a quarter turn and share their free choice with COSPI and SINPI (log entries 11, 126). -/
def Obligations.ComplexAndSpectralResults : Prop :=
  (∀ (st : BitVec 3) (d a b o : BitVec 7),
    let gives := fun (i : Instr) (re im : Env → Nat → RegVal × Flags) => LaneGives i 6 (Quiet fun e t => (re e t).2 ||| (im e t).2)
      (fun e t => [(2 * e.g.num d, (re e t).1), (2 * e.g.num d + 1, (im e t).1)]) (fun _ _ => []) (fun e t => (re e t).2 ||| (im e t).2) false
    let m := fun (e : Env) => arithMode e.g
    let ar := fun (e : Env) t => (e.cx a t).1
    let ai := fun (e : Env) t => (e.cx a t).2
    let br := fun (e : Env) t => (e.cx b t).1
    let bi := fun (e : Env) t => (e.cx b t).2
    let dr := fun (e : Env) t => (e.cx d t).1
    let di := fun (e : Env) t => (e.cx d t).2
    gives (.zadd st d a b) (fun e t => part32 (m e) [(false, [ar e t]), (false, [br e t])]) (fun e t => part32 (m e) [(false, [ai e t]), (false, [bi e t])])
    ∧ gives (.zmul st d a b) (fun e t => part32 (m e) [(false, [ar e t, br e t]), (true, [ai e t, bi e t])])
        (fun e t => part32 (m e) [(false, [ar e t, bi e t]), (false, [ai e t, br e t])])
    ∧ gives (.zfma st d a b) (fun e t => part32 (m e) [(false, [dr e t]), (false, [ar e t, br e t]), (true, [ai e t, bi e t])])
        (fun e t => part32 (m e) [(false, [di e t]), (false, [ar e t, bi e t]), (false, [ai e t, br e t])])
    ∧ (o = 0 → gives (.zop st d a o) (fun e t => negElem false (ar e t)) (fun e t => negElem true (ai e t)))
    ∧ (o = 1 → gives (.zop st d a o) (fun e t => part32 (m e) [(false, [ar e t, ar e t]), (false, [ai e t, ai e t])]) (fun _ _ => (⟨0, false⟩, 0)))
    ∧ (o = 2 → gives (.zop st d a o) (fun e t => (⟨(SpecFn.cospi.eval (ar e t).val).1, (ar e t).poison⟩, (SpecFn.cospi.eval (ar e t).val).2))
        (fun e t => (⟨(SpecFn.sinpi.eval (ar e t).val).1, (ar e t).poison⟩, (SpecFn.sinpi.eval (ar e t).val).2)))
    ∧ (o = 3 → gives (.zop st d a o) (fun e t => negElem true (ai e t)) (fun e t => negElem false (ar e t)))
    ∧ (o = 4 → gives (.zop st d a o) (fun e t => cxAbs (ar e t) (ai e t)) (fun _ _ => (⟨0, false⟩, 0))))
  ∧ (∀ (st : BitVec 3) (d a b : BitVec 7),
    let m := fun (e : Env) => arithMode e.g
    let A := fun (e : Env) t i => e.span a 8 i t
    let B := fun (e : Env) t i => e.span b 8 i t
    let D := fun (e : Env) t i => e.span d 8 i t
    let each := fun (f : Nat → RegVal × Flags) => (List.range 8).map fun i => (i, f i)
    let bin := fun (f : RMode → Nat → Nat → Nat × Flags) (e : Env) t => each fun i =>
      let r := f (m e) (A e t i).val.toNat (B e t i).val.toNat
      (⟨BitVec.ofNat 32 r.1, (A e t i).poison || (B e t i).poison⟩, r.2)
    let mueller := fun (e : Env) t =>
      let S := fun c i => e.span a 8 (8 * c + i) t
      let M := fun c i => e.span b 8 (8 * c + i) t
      let row := fun c (f : Nat → RegVal × Flags) => (List.range 8).map fun i => (8 * c + i, f i)
      row 0 (fun i => part32 (m e) [(false, [M 0 i, S 0 i]), (false, [M 1 i, S 1 i])])
        ++ row 1 (fun i => part32 (m e) [(false, [M 1 i, S 0 i]), (false, [M 0 i, S 1 i])])
        ++ row 2 (fun i => part32 (m e) [(false, [M 2 i, S 2 i]), (false, [M 3 i, S 3 i])])
        ++ row 3 (fun i => part32 (m e) [(true, [M 3 i, S 2 i]), (false, [M 2 i, S 3 i])])
    LanePacket (.wadd st d a b) d (bin (fAdd .fp32)) ∧ LanePacket (.wsub st d a b) d (bin (fSub .fp32)) ∧ LanePacket (.wmul st d a b) d (bin (fMul .fp32))
    ∧ LanePacket (.wmin st d a b) d (bin fun _ => fMinMax .fp32 false) ∧ LanePacket (.wmax st d a b) d (bin fun _ => fMinMax .fp32 true)
    ∧ LanePacket (.wfma st d a b) d (fun e t => each fun i => part32 (m e) [(false, [A e t i, B e t i]), (false, [D e t i])])
    ∧ LanePacket (.wscl st d a b) d (fun e t => each fun i => part32 (m e) [(false, [A e t i, e.vec b t])])
    ∧ LanePacket (.wbcst st d a) d (fun e t => each fun _ => (e.vec a t, 0))
    ∧ LaneGives (.wsum st d a) 6 (Quiet fun e t => (part32 (m e) ((List.range 8).map fun i => (false, [A e t i]))).2)
        (fun e t => [(e.g.num d, (part32 (m e) ((List.range 8).map fun i => (false, [A e t i]))).1)]) (fun _ _ => [])
        (fun e t => (part32 (m e) ((List.range 8).map fun i => (false, [A e t i]))).2) false
    ∧ LanePacket (.wexp st d a) d (fun e t => each fun i => (⟨(SpecFn.exp.eval (A e t i).val).1, (A e t i).poison⟩, (SpecFn.exp.eval (A e t i).val).2))
    ∧ LanePacket (.whero st d a) d (fun e t => each fun i => match Fmt.fp32.value (e.vec a t).val.toNat with
        | .nan _ | .inf _ => (⟨0x7FC00000, (e.vec a t).poison⟩, fIV)
        | v => (⟨heroSlot v.rat i, (e.vec a t).poison⟩, 0))
    ∧ LanePacket (.wmuel st d a b) d mueller
    ∧ LanePacket (.wfres st d a b) d (fun e t => (List.range 8).flatMap fun i =>
        let eta := e.span a 8 i t; let ka := e.span a 8 (8 + i) t; let mu := e.vec b t
        let r := fresnelSlot eta.val ka.val mu.val
        (List.range 4).map fun c => (8 * c + i, (⟨r.1.getD c 0, eta.poison || ka.poison || mu.poison⟩, r.2)))
    ∧ LanePacket (.wrots st d a b) d (fun e t =>
        let x := e.vec b t; let S := fun c i => e.span a 8 (8 * c + i) t
        let keep := fun c => (List.range 8).map fun i => (8 * c + i, negElem false (S c i))
        let turned := fun (c i : Nat) (p q : RegVal) (minus : Bool) (co si : Nat) =>
          let val := fun (n : Nat) => Fmt.fp32.value n
          let r := sumRound .fp32 (m e) [⟨false, [val p.val.toNat, val co]⟩, ⟨minus, [val q.val.toNat, val si]⟩]
          (8 * c + i, (⟨BitVec.ofNat 32 r.1, p.poison || q.poison || x.poison⟩, r.2 ||| siOf .fp32 [x.val.toNat] ||| siOf .fp32 [(S 1 i).val.toNat, (S 2 i).val.toNat]))
        let wrong := fun (c i : Nat) => (8 * c + i, ((⟨0x7FC00000, (S 1 i).poison || (S 2 i).poison || x.poison⟩, fIV) : RegVal × Flags))
        keep 0 ++ (match Fmt.fp32.value x.val.toNat with
          | .nan _ | .inf _ => ((List.range 8).map fun i => wrong 1 i) ++ ((List.range 8).map fun i => wrong 2 i)
          | v =>
            let co := (cosPi 6 x.val (2 * v.rat)).1
            let si := if v = .zero true then 0x80000000 else if v = .zero false then 0 else (sinPi 5 x.val (2 * v.rat)).1
            ((List.range 8).map fun i => turned 1 i (S 1 i) (S 2 i) false co si) ++ ((List.range 8).map fun i => turned 2 i (S 2 i) (S 1 i) true co si)) ++ keep 3)
    ∧ ∀ (x : Word) (q : Rat), q ≠ 0 → (∀ k : Int, q = k → (cosPi 6 x q).1 = (if k % 2 = 0 then 0x3F800000 else 0xBF800000) ∧ (sinPi 5 x q).1 = (if q < 0 then 0x80000000 else 0))
        ∧ (∀ k : Int, q = k + 1 / 2 → (cosPi 6 x q).1 = 0 ∧ (sinPi 5 x q).1 = (if k % 2 = 0 then 0x3F800000 else 0xBF800000)))

/-! ### Threads and control -/

/-- R173 to R177: VOTE, SHFL, PUSHL and TRED look only at the active threads of the thread's partition tile: the same row of 32 lanes, the
same ⌊LANE / PARTN⌋. R114: RNG delivers 32 of the 128 bits of the keyed mix of the thread's logical key. PUSHL and SHFL take the value of the thread they
read with its poison (log entry 16, read from R175 and R176). -/
def Obligations.CrossLaneResults : Prop :=
  ∀ (st : BitVec 3) (d a b o m : BitVec 7) (k n : BitVec 1) (p : BitVec 3) (sm : BitVec 2) (c : BitVec 5),
    let tile := fun (e : Env) t => (threadsOf e.p.mask).filter fun u => u / 32 == t / 32 && u % 32 / e.g.partn == t % 32 / e.g.partn
    let rel := fun (e : Env) t => t % 32 % e.g.partn
    let yes := fun (e : Env) t => (tile e t).filter fun u => ((k == 1) || e.g.pr p.toNat u) != (n == 1)
    let words := fun (i : Instr) (r : Env → Nat → Word) => LaneGives i 9 (fun _ => True) (fun e t => [(e.g.num d, ⟨r e t, false⟩)]) (fun _ _ => []) (fun _ _ => 0) false
    let preds := fun (i : Instr) (r : Env → Nat → Bool) => LaneGives i 9 (fun _ => True) (fun _ _ => [])
      (fun e t => if d.getLsbD 4 then [] else [((d.extractLsb' 0 3).toNat, r e t)]) (fun _ _ => 0) false
    (m = 0 → preds (.vote st d k n p m) (fun e t => !(yes e t).isEmpty))
    ∧ (m = 1 → preds (.vote st d k n p m) (fun e t => (yes e t).length == (tile e t).length))
    ∧ (m = 2 → words (.vote st d k n p m) (fun e t => BitVec.ofNat 32 ((yes e t).foldl (fun x u => x + 2 ^ rel e u) 0)))
    ∧ (m = 3 → words (.vote st d k n p m) (fun e t => BitVec.ofNat 32 (yes e t).length))
    ∧ LaneGives (.shfl st d a sm c) 9 (fun _ => True)
        (fun e t =>
          let src := match sm.toNat with
            | 0 => if c.toNat < e.g.partn then some c.toNat else none
            | 1 => if c.toNat ≤ rel e t then some (rel e t - c.toNat) else none
            | 2 => if rel e t + c.toNat < e.g.partn then some (rel e t + c.toNat) else none
            | _ => if rel e t ^^^ c.toNat < e.g.partn then some (rel e t ^^^ c.toNat) else none
          let from' := match src with | some r => ((tile e t).find? fun u => rel e u == r).getD t | none => t
          [(e.g.num d, e.vec a from')]) (fun _ _ => []) (fun _ _ => 0) false
    ∧ LaneGives (.pushl st d a b) 9 (fun _ => True)
        (fun e t => [(e.g.num d, match ((tile e t).filter fun u => (e.vec b u).val.toNat == rel e t).getLast? with
          | some u => e.vec a u | none => e.vec d t)]) (fun _ _ => []) (fun _ _ => 0) false
    ∧ LaneGives (.tred st d a o) 9 (Quiet fun e t => (tredOp o.toNat (arithMode e.g) ((tile e t).map fun u => (e.vec a u).val)).2)
        (fun e t => [(e.g.num d, ⟨(tredOp o.toNat (arithMode e.g) ((tile e t).map fun u => (e.vec a u).val)).1, (tile e t).any fun u => (e.vec a u).poison⟩)])
        (fun _ _ => []) (fun e t => (tredOp o.toNat (arithMode e.g) ((tile e t).map fun u => (e.vec a u).val)).2) false
    ∧ LaneGives (.rng st d a b) 3 (fun _ => True)
        (fun e t => let x := (e.vec b t).val.toNat
          [(e.g.num d, ⟨(mixPacked (e.upair a).1 (packKey e.b.bid e.g.gix t (x / 4))).extractLsb' (32 * (x % 4)) 32, (e.upair a).2 || (e.vec b t).poison⟩)])
        (fun _ _ => []) (fun _ _ => 0) false

/-- R36, R42, R106, R109: where a uniform transfer leads, in a state that is otherwise the state of issue: NOP to the next instruction; BR and
BRQ to the PC plus four times the offset; CALL there with the link in s62 and s63; YIELD makes the group the youngest.

R42, R106, R261: JMPS goes to the pair's value where its bits 1:0 and 63:56 are zero and it is not poisoned; from a path that runs the
handler it is the return, which clears HND. A poisoned target traps POISON, a misaligned one MISALIGN, one above 2^56 ACCESS, in that order. -/
def Obligations.UniformTransfers : Prop :=
  (∀ (st : BitVec 3) (off : BitVec 21) (off' : BitVec 14) (k n : BitVec 1) (p : BitVec 3) (s : State) (e : Env), s.env = some e →
    (e.issueTrap (.nop st) = none → exec (.nop st) s = .next (e.goesOn (.nop st) (e.p.pc + 4) e.g))
    ∧ (e.issueTrap (.br st off) = none → exec (.br st off) s = .next (e.goesOn (.br st off) (e.p.pc + 4 * off.signExtend 64) e.g))
    ∧ (e.issueTrap (.brq st off' k n p) = none → exec (.brq st off' k n p) s = .next (e.goesOn (.brq st off' k n p)
        (if ((k == 1) || e.g.qr p.toNat) != (n == 1) then e.p.pc + 4 * off'.signExtend 64 else e.p.pc + 4) e.g))
    ∧ (e.Clear (.call st off) → exec (.call st off) s = .next (e.uniDone (.call st off) (e.p.pc + 4 * off.signExtend 64) 2
        [(62, ⟨(e.p.pc + 4).extractLsb' 0 32, false⟩), (63, ⟨(e.p.pc + 4).extractLsb' 32 32, false⟩)] [] [] 0 false none))
    ∧ (e.issueTrap (.yield st) = none → exec (.yield st) s =
        .next { e.goesOn (.yield st) (e.p.pc + 4) { e.g with age := s.seq, starve := 0, promoted := false } with seq := s.seq + 1 }))
  ∧ (∀ (st : BitVec 3) (a : BitVec 7) (s : State) (e : Env), s.env = some e → e.issueTrap (.jmps st a) = none →
    let x := (e.upair a).1
    ((e.upair a).2 = true → exec (.jmps st a) s = .next (e.trapAll ⟨0x0B, 0⟩))
    ∧ ((e.upair a).2 = false → x.toNat % 4 ≠ 0 → exec (.jmps st a) s = .next (e.trapAll ⟨0x05, 0⟩))
    ∧ ((e.upair a).2 = false → x.toNat % 4 = 0 → 2 ^ 56 ≤ x.toNat → exec (.jmps st a) s = .next (e.trapAll ⟨0x07, 0⟩))
    ∧ ((e.upair a).2 = false → x.toNat % 4 = 0 → x.toNat < 2 ^ 56 → e.p.hnd = false → exec (.jmps st a) s = .next (e.goesOn (.jmps st a) x e.g))
    ∧ ((e.upair a).2 = false → x.toNat % 4 = 0 → x.toNat < 2 ^ 56 → e.p.hnd = true →
        (∀ k, k < 8 → k ≠ e.pi → (e.g.path k).st = .free) → e.g.spilled = [] → e.pi < 8 → e.g.paths.length = 8 → e.p.st = .live →
        exec (.jmps st a) s = .next (s.setGrp e.gk (Path.set e.g e.pi { e.advance (.jmps st a) x e.p with hnd := false }))))

/-- R105: a lane branch all of whose threads go one way takes the whole path there; BRX, CALLX and RET with one legal target likewise, CALLX
with the link pending for its pair.

R105, R246, R247: a BRC whose threads part splits the path: the threads that go the way of the lowest one keep the entry, the others take the
lowest FREE entry, each with its PC; no register and no memory changes.

R105, R246, R247: where the threads of a lane branch each have a legal target, the branch completes however they part: with a FREE entry for every
further target, or a spill area that can be written, each active thread stands afterwards on a LIVE path at its target, which holds exactly the threads
with that target; the threads that go with the lowest one keep the entry, no path that stood before is lost, and registers, memory and the rest of
the machine stay. -/
def Obligations.LaneBranches : Prop :=
  (∀ (st : BitVec 3) (off : BitVec 14) (k n : BitVec 1) (p : BitVec 3) (d a : BitVec 7) (x : DWord) (s : State) (e : Env),
    s.env = some e → e.p.mask ≠ 0 →
    let same := fun (i : Instr) => e.Clear i ∧ x.toNat % 4 = 0 ∧ x.toNat < 2 ^ 56 ∧ ∀ t ∈ threadsOf e.p.mask, e.pair a t = (x, false)
    (e.issueTrap (.brc st off k n p) = none → (∀ t ∈ threadsOf e.p.mask, e.pred k n p t = true) →
      exec (.brc st off k n p) s = .next (e.goesOn (.brc st off k n p) (e.p.pc + 4 * off.signExtend 64) e.g))
    ∧ (e.issueTrap (.brc st off k n p) = none → (∀ t ∈ threadsOf e.p.mask, e.pred k n p t = false) →
      exec (.brc st off k n p) s = .next (e.goesOn (.brc st off k n p) (e.p.pc + 4) e.g))
    ∧ (same (.brx st a) → exec (.brx st a) s = .next (e.goesOn (.brx st a) x (e.seeChorus (.brx st a) e.g)))
    ∧ (same (.ret st a) → exec (.ret st a) s = .next (e.goesOn (.ret st a) x (e.seeChorus (.ret st a) e.g)))
    ∧ (same (.callx st d a) → exec (.callx st d a) s = .next (e.goesOn (.callx st d a) x { e.seeChorus (.callx st d a) e.g with
        fixed := e.g.fixed ++ [{ e.laneFix 3 (fun _ => [(2 * e.g.num d, ⟨(e.p.pc + 4).extractLsb' 0 32, false⟩),
          (2 * e.g.num d + 1, ⟨(e.p.pc + 4).extractLsb' 32 32, false⟩)]) (fun _ => []) (fun _ => 0) with flags := 0 }] })))
  ∧ (∀ (st : BitVec 3) (off : BitVec 14) (k n : BitVec 1) (p : BitVec 3) (s : State) (e : Env) (j u : Nat) (us : List Nat),
    s.env = some e → e.issueTrap (.brc st off k n p) = none → e.p.st = .live → e.g.freeEntry = some j → e.pi < 8 → e.g.paths.length = 8 →
    threadsOf e.p.mask = u :: us → (∃ t ∈ us, e.pred k n p t ≠ e.pred k n p u) →
    let i : Instr := .brc st off k n p
    let way := fun (y : Bool) => if y then e.p.pc + 4 * off.signExtend 64 else e.p.pc + 4
    let side := fun (y : Bool) => maskOf ((threadsOf e.p.mask).filter fun t => e.pred k n p t == y)
    let y := e.pred k n p u
    ∃ t g', exec i s = .next t ∧ t.grp e.gk = some g'
      ∧ g'.path e.pi = e.advance i (way y) { e.p with mask := side y }
      ∧ g'.path j = e.advance i (way !y) { e.p with mask := side !y }
      ∧ (∀ h, h ≠ e.pi → h ≠ j → g'.path h = e.g.path h)
      ∧ g'.v = e.g.v ∧ g'.s = e.g.s ∧ g'.p = e.g.p ∧ g'.q = e.g.q ∧ g'.x = e.g.x ∧ g'.flags = e.g.flags ∧ g'.fixed = e.g.fixed
      ∧ t.mem = s.mem ∧ t.blocks = s.blocks ∧ t.dev = s.dev ∧ t.clock = s.clock)
  ∧ (∀ (st : BitVec 3) (off : BitVec 14) (k n : BitVec 1) (p : BitVec 3) (d a : BitVec 7) (s : State) (e : Env), s.env = some e →
    e.p.mask ≠ 0 → e.pi < 8 → e.g.paths.length = 8 → e.p.st = .live →
    let goes := fun (i : Instr) (target : Nat → DWord) =>
      let sets := ((threadsOf e.p.mask).map target).eraseDups
      (sets.length ≤ 1 + ((List.range 8).filter fun j => (e.g.path j).st == .free).length
        ∨ ∀ r, r < 88 → s.frameParts (e.g.agent e.b) .write (s.spillVA e.g e.b r) 32 ≠ none) →
      ∃ t g', exec i s = .next t ∧ t.grp e.gk = some g' ∧ g'.SameRegs (e.seeChorus i e.g) ∧ t.SameBut s e.gk
        ∧ (∀ u ∈ threadsOf e.p.mask, ∃ q, (q ∈ g'.paths ∨ q ∈ g'.spilled.map (·.2)) ∧ q.st = .live ∧ q.pc = target u ∧ q.hnd = e.p.hnd
            ∧ q.mask = maskOf ((threadsOf e.p.mask).filter fun w => target w == target u))
        ∧ (∀ u us, threadsOf e.p.mask = u :: us → (g'.path e.pi).pc = target u ∧ (g'.path e.pi).mask.getLsbD u = true)
        ∧ ∀ j, j < 8 → j ≠ e.pi → (e.g.path j).st ≠ .free →
            ∃ q, (q ∈ g'.paths ∨ q ∈ g'.spilled.map (·.2)) ∧ q.mask = (e.g.path j).mask ∧ q.pc = (e.g.path j).pc ∧ q.wait = (e.g.path j).wait
    let legal := fun (i : Instr) => e.Clear i ∧ ∀ t ∈ threadsOf e.p.mask, (e.pair a t).2 = false ∧ (e.pair a t).1.toNat % 4 = 0 ∧ (e.pair a t).1.toNat < 2 ^ 56
    (e.issueTrap (.brc st off k n p) = none →
      goes (.brc st off k n p) (fun t => if e.pred k n p t then e.p.pc + 4 * off.signExtend 64 else e.p.pc + 4))
    ∧ (legal (.brx st a) → goes (.brx st a) (fun t => (e.pair a t).1))
    ∧ (legal (.ret st a) → goes (.ret st a) (fun t => (e.pair a t).1))
    ∧ (legal (.callx st d a) → goes (.callx st d a) (fun t => (e.pair a t).1)))

/-- R107, R108: JOIN goes on at once in a group whose only path executes it, and parks the path otherwise; EXIT takes its threads out of the
group and frees the entry; EXITG takes all. -/
def Obligations.JoinAndExit : Prop :=
  ∀ (st : BitVec 3) (s : State) (e : Env), s.env = some e →
    (e.issueTrap (.join st) = none → e.g.others e.pi = [] → exec (.join st) s = .next (e.goesOn (.join st) (e.p.pc + 4) e.g))
    ∧ (e.issueTrap (.join st) = none → e.g.others e.pi ≠ [] → exec (.join st) s = .next (s.setGrp e.gk (Path.set e.g e.pi
        { e.advance (.join st) e.p.pc e.p with st := .parked, wait := .join, resume := e.p.pc + 4 })))
    ∧ (e.issueTrap (.exit st) = none → e.g.alive &&& ~~~e.p.mask ≠ 0 → (∀ q ∈ e.g.paths, ∀ c f m, q.wait ≠ .handler c f m) →
        exec (.exit st) s = .next (s.setGrp e.gk (Path.set { e.g with alive := e.g.alive &&& ~~~e.p.mask } e.pi Path.free)))
    ∧ (e.issueTrap (.exitg st) = none → exec (.exitg st) s =
        .next ((({ s with dev := s.dev.dropStops fun x => x.gk == e.gk } : State).setGrp e.gk { e.g with alive := 0, paths := List.replicate 8 Path.free, spilled := [], spillRecs := [] }).groupExited e.gk))

/-! ### Traps -/

/-- R50, R34: the unassigned form, which stands for a word that names no assigned opcode or holds a reserved field, traps ILLOP with all active threads.

R34, R54, R260: an instruction of the two sets that fails a check of R34 has no other effect: all active threads of the path trap, whatever
the instruction.

R34, R33, R148, R257, R30: the checks in their order for a lane instruction of three vector registers, here IADD: a register outside the allotment, or an
index register above 255, traps REG_BOUNDS; a group whose role does not admit the instruction traps ROLE before that; with checking on, a
register read or written too soon traps STALL_SHORT after that; and reserved fields trap ILLOP before all. -/
def Obligations.IssueChecks : Prop :=
  (∀ (w : Word) (s : State) (e : Env), s.env = some e → exec (.unassignedOpcode w) s = .next (e.trapAll ⟨0x01, 0⟩))
  ∧ (∀ (i : Instr) (s : State) (e : Env) (t : Trap), s.env = some e → i.fields ≠ none → (∀ w, i ≠ .unassignedOpcode w) → e.issueTrap i = some t →
    exec i s = .next (e.trapAll t))
  ∧ (∀ (st : BitVec 3) (d a b : BitVec 7) (e : Env),
    let i : Instr := .iadd st d a b
    let fine := fun (f : BitVec 7) => e.g.idxOk f = true ∧ allotted e.g e.b (e.g.num f) = true
    (e.b.roles.getD e.g.gix 0 ≠ 0 → e.b.roles.getD e.g.gix 0 ≠ 3 → e.issueTrap i = some ⟨0x04, 0⟩)
    ∧ (e.b.roles.getD e.g.gix 0 = 0 → ¬(fine d ∧ fine a ∧ fine b) → e.issueTrap i = some ⟨0x02, 0⟩)
    ∧ (e.b.roles.getD e.g.gix 0 = 0 → fine d → fine a → fine b → (e.b.check = true ∨ e.b.det = true) →
        (∃ q ∈ e.p.dist, q.reg = .v (e.g.num d) ∨ q.reg = .v (e.g.num a) ∨ q.reg = .v (e.g.num b)) → e.issueTrap i = some ⟨0x03, 0⟩)
    ∧ (e.b.roles.getD e.g.gix 0 = 0 → fine d → fine a → fine b → e.p.dist = [] → e.g.damaged = [] → e.issueTrap i = none)
    ∧ ∀ (c : BitVec 4) (p : BitVec 3), 10 ≤ c.toNat → e.issueTrap (.icmp st c p a b) = some ⟨0x01, 0⟩)

/-- R54, R111, R260: taking a trap: TRAPCAUSE holds the cause with INFO, TRAPPC the PC, TRAPMASK the threads; the path, its threads unchanged, runs the
handler at TVEC with HND set, and no other register, and no memory, changes. -/
def Obligations.TrapEntry : Prop :=
  ∀ (s : State) (gk pi : Nat) (g : Grp) (b : Blk) (t : Trap) (m : Mask) (va : Nat),
    s.grp gk = some g → s.blk g.blk = some b → (s.ctx b.ctx).tvec ≠ 0 → (∀ p ∈ g.paths, p.hnd = false) → (∀ p ∈ g.spilled, p.2.hnd = false) →
    t.cause < 256 → t.info < 2 ^ 16 → pi < g.paths.length →
    ∃ g', (s.trapEntry gk pi t m va).grp gk = some g'
      ∧ g'.trapCause = BitVec.ofNat 32 (t.cause + 256 * t.info) ∧ g'.trapPc = (g.path pi).pc ∧ g'.trapMask = m
      ∧ (g'.path pi).st = .live ∧ (g'.path pi).hnd = true ∧ (g'.path pi).pc = (s.ctx b.ctx).tvec ∧ (g'.path pi).mask = (g.path pi).mask
      ∧ (∀ k, k ≠ pi → g'.path k = g.path k) ∧ g'.v = g.v ∧ g'.s = g.s ∧ g'.p = g.p ∧ g'.q = g.q ∧ g'.x = g.x ∧ g'.flags = g.flags ∧ g'.alive = g.alive
      ∧ (s.trapEntry gk pi t m va).mem = s.mem ∧ (s.trapEntry gk pi t m va).blocks = s.blocks ∧ (s.trapEntry gk pi t m va).dev = s.dev
      ∧ ∀ k, k ≠ gk → (s.trapEntry gk pi t m va).grp k = s.grp k

/-- R260, R262: while another path runs the handler the trapping path parks and writes nothing yet; a path that runs the handler itself, or any path
where TVEC is 0, is escalated: it stops with its record under a tag, and TRAPCAUSE, TRAPPC and TRAPMASK keep the handler's trap where
it runs. Where TVEC is 0 they take the trap's (log entry 32: the model's choice). -/
def Obligations.TrapQueueAndEscalation : Prop :=
  ∀ (s : State) (gk pi : Nat) (g : Grp) (b : Blk) (t : Trap) (m : Mask) (va : Nat),
    s.grp gk = some g → s.blk g.blk = some b → pi < g.paths.length →
    ((s.ctx b.ctx).tvec ≠ 0 → (g.path pi).hnd = false → g.inHandler = true →
      s.trapEntry gk pi t m va = s.setGrp gk (Path.set g pi { g.path pi with st := .parked, wait := .handler t.cause t.info m, dist := [] }))
    ∧ ((g.path pi).hnd = true → ∃ g' tag r, (s.trapEntry gk pi t m va).grp gk = some g'
        ∧ g'.path pi = { g.path pi with st := .stopped, wait := .escalated tag }
        ∧ g'.trapCause = g.trapCause ∧ g'.trapPc = g.trapPc ∧ g'.trapMask = g.trapMask
        ∧ SMap.find? (s.trapEntry gk pi t m va).stopRecs tag = some r ∧ r.cause = t.cause ∧ r.kind = 1)
    ∧ ((g.path pi).hnd = false → (s.ctx b.ctx).tvec = 0 → ∃ g' tag, (s.trapEntry gk pi t m va).grp gk = some g'
        ∧ g'.path pi = { g.path pi with st := .stopped, wait := .escalated tag }
        ∧ (t.cause < 256 → t.info < 2 ^ 16 → g'.trapCause = BitVec.ofNat 32 (t.cause + 256 * t.info)) ∧ g'.trapPc = (g.path pi).pc ∧ g'.trapMask = m)

/-- R115: TRAP traps every thread with its code; TRAPP the threads with the predicate, and has no effect where there are none; BKPT traps with its code
unless a debugger has the breakpoints, which stops the path.

R89: a thread that raises an enabled flag traps FPEXC with its flags pending for FLAGS and its result not written; here a lane FADD every thread
of which does. -/
def Obligations.SoftwareAndFloatTraps : Prop :=
  (∀ (st : BitVec 3) (code : BitVec 14) (k n : BitVec 1) (p : BitVec 3) (s : State) (e : Env), s.env = some e →
    (e.issueTrap (.trap st code) = none → exec (.trap st code) s = .next (e.trapAll ⟨0x15, code.toNat⟩))
    ∧ (e.issueTrap (.trapp st code k n p) = none → (∀ t ∈ threadsOf e.p.mask, e.pred k n p t = false) →
        exec (.trapp st code k n p) s = .next (e.goesOn (.trapp st code k n p) (e.p.pc + 4) e.g))
    ∧ (e.issueTrap (.trapp st code k n p) = none → e.p.mask ≠ 0 → (∀ t ∈ threadsOf e.p.mask, e.pred k n p t = true) →
        exec (.trapp st code k n p) s = .next (e.trapAll ⟨0x15, code.toNat⟩))
    ∧ (e.issueTrap (.bkpt st code) = none → s.dev.bkpten = false → exec (.bkpt st code) s = .next (e.trapAll ⟨0x16, code.toNat⟩))
    ∧ (e.issueTrap (.bkpt st code) = none → s.dev.bkpten = true → s.dev.openFor 0 e.b.ctx = true → exec (.bkpt st code) s = .next (s.hold e.gk e.pi 1 0)))
  ∧ (∀ (st : BitVec 3) (d a b : BitVec 7) (s : State) (e : Env), s.env = some e → e.Clear (.fadd st d a b) → e.p.mask ≠ 0 →
    let r := fun t => fAdd .fp32 (arithMode e.g) (e.vec a t).val.toNat (e.vec b t).val.toNat
    (∀ t ∈ threadsOf e.p.mask, (r t).2 &&& e.g.enables ≠ 0) →
    exec (.fadd st d a b) s = .next ((s.setGrp e.gk { e.seeChorusBut (.fadd st d a b) e.p.mask e.p.mask e.g with
      fixed := e.g.fixed ++ [e.laneFix 6 (fun _ => []) (fun _ => []) (fun t => (r t).2)] }).trapEntry e.gk e.pi ⟨0x17, 0⟩ e.p.mask noVa))

/-! ### Special registers, WAITBLK and the extended set -/

/-- R110, R113, R119, R206: SREAD delivers the special register to each thread or once; reading CYCLE latches its high half in CYCLEH; under DET the numbers that
differ from run to run, LEASEST among them, trap DETERM. That CYCLE is the clock plus a constant of the core is the model's choice (log entry 2).

R84, R86, R110, R113: SWRITE leaves the value pending for its register and changes nothing else; a poisoned source traps POISON. What its
landing makes of FLAGS, BANKC, PARTN and RMODE: reserved bits stay zero, an illegal PARTN or MODE keeps the old one, and no other number is
written. -/
def Obligations.SpecialRegisters : Prop :=
  (∀ (st : BitVec 3) (d n : BitVec 7),
    let fixed := fun (e : Env) => n ≠ 0x16 ∧ ¬(e.b.det = true ∧ n.toNat ∈ [0x09, 0x14, 0x15, 0x16, 0x18, 0x1C])
    LaneGives (.sread st d n) 3 fixed (fun e t => [(e.g.num d, ⟨e.special n.toNat t, false⟩)]) (fun _ _ => []) (fun _ _ => 0) false
    ∧ UniGives (.sreadU st d n) 2 fixed (fun e => [(d.toNat, ⟨e.special n.toNat 127, false⟩)]) (fun _ => []) (fun _ => []) (fun _ => 0) false (fun _ => none)
    ∧ (∀ s e, s.env = some e → e.Clear (.sread st d 0x16) → e.b.det = false →
        exec (.sread st d 0x16) s = .next (({ e with g := { e.g with cycleh := BitVec.ofNat 32 (s.cycleOf e.b.core / 2 ^ 32) } } : Env).laneDone (.sread st d 0x16) 3
          (fun _ => [(e.g.num d, ⟨BitVec.ofNat 32 (s.cycleOf e.b.core), false⟩)]) (fun _ => []) (fun _ => 0) false))
    ∧ (∀ s e, s.env = some e → e.Clear (.sreadU st d 0x16) → e.b.det = false →
        exec (.sreadU st d 0x16) s = .next (({ e with g := { e.g with cycleh := BitVec.ofNat 32 (s.cycleOf e.b.core / 2 ^ 32) } } : Env).uniDone (.sreadU st d 0x16)
          (e.nextPc (.sreadU st d 0x16)) 2 [(d.toNat, ⟨BitVec.ofNat 32 (s.cycleOf e.b.core), false⟩)] [] [] 0 false none))
    ∧ (∀ s e, s.env = some e → e.b.det = true → n.toNat ∈ [0x09, 0x14, 0x15, 0x16, 0x18, 0x1C] →
        (e.issueTrap (.sread st d n) = none → exec (.sread st d n) s = .next (e.trapAll ⟨0x12, 0⟩))
        ∧ (e.issueTrap (.sreadU st d n) = none → exec (.sreadU st d n) s = .next (e.trapAll ⟨0x12, 0⟩)))
    ∧ ∀ (e : Env) (t : Nat), e.special 0x00 t = BitVec.ofNat 32 t ∧ e.special 0x03 t = BitVec.ofNat 32 e.g.gix ∧ e.special 0x04 t = BitVec.ofNat 32 e.b.bid
        ∧ e.special 0x0A t = e.p.mask.extractLsb' 0 32 ∧ e.special 0x0D t = e.g.flags.setWidth 32 ∧ e.special 0x11 t = e.g.trapCause
        ∧ e.special 0x12 t = e.g.trapPc.extractLsb' 0 32 ∧ e.special 0x1D t = e.g.trapPc.extractLsb' 32 32 ∧ e.special 0x1B t = e.g.rmode
        ∧ (e.special 0x15 t).toNat = (e.b.core / 144) % 2 ^ 32 ∧ e.special 0x1C t = e.g.cycleh
        ∧ e.special 0x16 t = BitVec.ofNat 32 (e.s.clock + Config.cycleBase e.b.core))
  ∧ ((∀ (st : BitVec 3) (n a : BitVec 7),
    UniGives (.swrite st n a) 2 (fun e => (e.uni a).poison = false) (fun _ => []) (fun _ => []) (fun _ => []) (fun _ => 0) false
      (fun e => some (n.toNat, (e.uni a).val))
    ∧ ∀ s e, s.env = some e → e.Clear (.swrite st n a) → (e.uni a).poison = true →
        exec (.swrite st n a) s = .next ((s.setGrp e.gk (e.seeChorus (.swrite st n a) e.g)).trapEntry e.gk e.pi ⟨0x0B, 0⟩ e.p.mask noVa))
  ∧ ∀ (g : Grp) (n : Nat) (x : Word),
      (n = 0x0D → g.writeSpecial n x = { g with flags := x.setWidth 14 &&& 0x3F3F })
      ∧ (n = 0x13 → g.writeSpecial n x = { g with bankc := x })
      ∧ (n = 0x1A → (x ∈ [2, 4, 8, 16, 32] → g.writeSpecial n x = { g with partn := x.toNat }) ∧ (x ∉ [2, 4, 8, 16, 32] → g.writeSpecial n x = g))
      ∧ (n = 0x1B → (g.writeSpecial n x).rmode.toNat =
          x.toNat / 2 ^ 16 * 2 ^ 16 + if x.toNat % 8 ≤ 4 then x.toNat % 8 else g.rmode.toNat % 8)
      ∧ (n ∉ [0x0D, 0x13, 0x1A, 0x1B] → g.writeSpecial n x = g))

/-- R117: WAITBLK goes on where the retired prefix has reached its operand, and records it; parks where it has not; traps TASK outside DET or where the operand
exceeds BID, POISON on a poisoned one, before its value is looked at (log entry 45).

R118: RACQ of the holder goes on and changes nothing else, RACQ with no extended set traps REG_BOUNDS, RACQ of a group without the set takes the free
set where no group waits and parks while another holds it; RREL of a group that does not hold the set has no effect, RREL of the holder with no waiter frees it. -/
def Obligations.WaitBlockAndExtendedSet : Prop :=
  (∀ (st : BitVec 3) (a : BitVec 7) (s : State) (e : Env), s.env = some e →
    let i : Instr := .waitblk st a
    let n := (e.uni a).val.toNat
    e.issueTrap i = none →
    (e.b.det = false → exec i s = .next (e.trapAll ⟨0x14, 0⟩))
    ∧ (e.b.det = true → (e.uni a).poison = true → exec i s = .next (e.trapAll ⟨0x0B, 0⟩))
    ∧ (e.b.det = true → (e.uni a).poison = false → e.b.bid < n → exec i s = .next (e.trapAll ⟨0x14, 0⟩))
    ∧ (e.b.det = true → (e.uni a).poison = false → n ≤ e.b.bid → n ≤ s.prefixOf e.b →
        exec i s = .next (e.goesOn i (e.p.pc + 4) { e.g with retpfx := max e.g.retpfx n }))
    ∧ (e.b.det = true → (e.uni a).poison = false → n ≤ e.b.bid → s.prefixOf e.b < n →
        exec i s = .next (s.setGrp e.gk (Path.set e.g e.pi { e.advance i e.p.pc e.p with st := .parked, wait := .waitblk n, resume := e.p.pc + 4 }))))
  ∧ (∀ (st : BitVec 3) (s : State) (e : Env), s.env = some e → e.pi < e.g.paths.length →
    let idle := ∀ x ∈ s.groups, ∀ q, (q ∈ x.2.paths ∨ q ∈ x.2.spilled.map (·.2)) → q.wait ≠ .racq
    (e.issueTrap (.racq st) = none → e.b.xregs = 0 → exec (.racq st) s = .next (e.trapAll ⟨0x02, 0⟩))
    ∧ (e.issueTrap (.racq st) = none → e.b.xregs ≠ 0 → e.b.holder = some e.g.gix → exec (.racq st) s = .next (e.goesOn (.racq st) (e.p.pc + 4) e.g))
    ∧ (∀ h, e.issueTrap (.racq st) = none → e.b.xregs ≠ 0 → e.b.holder = some h → h ≠ e.g.gix → e.b.det = false →
        ∃ t g', exec (.racq st) s = .next t ∧ t.grp e.gk = some g' ∧ (g'.path e.pi).st = .parked ∧ (g'.path e.pi).wait = .racq
          ∧ (g'.path e.pi).resume = e.p.pc + 4 ∧ g'.SameRegs e.g ∧ t.mem = s.mem ∧ ∃ b', t.blk e.g.blk = some b' ∧ b'.holder = some h)
    ∧ (e.issueTrap (.racq st) = none → e.b.xregs ≠ 0 → e.b.holder = none → e.b.det = false → e.pi < 8 → idle →
        ∃ t g' b', exec (.racq st) s = .next t ∧ t.grp e.gk = some g' ∧ (g'.path e.pi).st = .live ∧ (g'.path e.pi).pc = e.p.pc + 4
          ∧ (g'.path e.pi).mask = e.p.mask ∧ g'.SameRegs e.g ∧ t.mem = s.mem ∧ t.blk e.g.blk = some b' ∧ b'.holder = some e.g.gix ∧ b'.xr = e.b.xr)
    ∧ (e.issueTrap (.rrel st) = none → e.b.holder ≠ some e.g.gix → exec (.rrel st) s = .next (e.goesOn (.rrel st) (e.p.pc + 4) e.g))
    ∧ (e.issueTrap (.rrel st) = none → e.b.holder = some e.g.gix →
        idle →
        ∃ t g' b', exec (.rrel st) s = .next t ∧ t.grp e.gk = some g' ∧ e.onward (.rrel st) g' ∧ g'.SameRegs e.g ∧ t.mem = s.mem
          ∧ t.blk e.g.blk = some b' ∧ b'.holder = none ∧ b'.xr = e.b.xr))

/-! ### Memory -/

/-- R149: the checks of an access in their order: a poisoned address, its alignment where the instruction asks for it, the top of the address space, then the
pages; for a thread whose destination is not deferred.

R371, R372, R51: an aligned access inside one page resolves to the place the walk gives: the entry's address with the offset in the page; a page without the
right the access needs, or of kind 11, answers ACCESS, an absent one PAGE_FAULT. -/
def Obligations.AccessChecksAndTranslation : Prop :=
  (∀ (e : Env) (i : Instr) (x : DWord) (z : Bool) (n : Nat) (need : Need) (al fe : Bool) (t : Nat), e.deferred i t = none → 0 < n →
    let r := e.memCheck i false (x, z) n need al fe t
    (z = true → r = .error (⟨0x0B, 0⟩, noVa))
    ∧ (z = false → al = true → x.toNat % n ≠ 0 → r = .error (⟨0x05, 0⟩, x.toNat))
    ∧ (z = false → (al = false ∨ x.toNat % n = 0) → 2 ^ 56 < x.toNat + n → r = .error (⟨0x07, 0⟩, x.toNat))
    ∧ (z = false → (al = false ∨ x.toNat % n = 0) → x.toNat + n ≤ 2 ^ 56 → fe = false →
        r = match e.s.resolve (e.g.agent e.b) need x.toNat n with | .ok ps => .ok ps | .error c => .error (⟨c.1.code, 0⟩, c.2))
    ∧ (z = false → (al = false ∨ x.toNat % n = 0) → x.toNat + n ≤ 2 ^ 56 → fe = true → x.toNat / 2 ^ 32 % 2 ^ 24 ≠ 0xFFFFFF →
        r = .error (⟨0x07, 0⟩, x.toNat)))
  ∧ (∀ (s : State) (ag : Agent) (va n ent size : Nat), s.tlb = [] → s.walks = [] → va + n ≤ 2 ^ 56 → isAperture va = false → 0 < n →
    walk s.mem va walkLevels (s.ctx ag.ctx).ptroot = .ok (ent, size) → size ∈ [2 ^ 16, 2 ^ 21, 2 ^ 30] → va % size + n ≤ size →
    let pa := ent / 256 % 2 ^ 48 * 256
    pa % size = 0 → ent / 32 % 2 = 0 → pa % 2 ^ 36 + size ≤ 48 * 10 ^ 9 → pa < 2 ^ 40 →
    (ent / 4 % 2 = 1 → ent / 64 % 4 ≠ 3 → s.resolve ag .read va n = .ok [⟨va, pa + va % size, n, ent / 64 % 4, false, false⟩])
    ∧ (ent / 4 % 2 = 0 → s.resolve ag .read va n = .error (.access, va))
    ∧ (ent / 8 % 2 = 1 → ent / 64 % 4 ≠ 3 → s.resolve ag .write va n = .ok [⟨va, pa + va % size, n, ent / 64 % 4, false, false⟩])
    ∧ (ent / 8 % 2 = 0 → s.resolve ag .write va n = .error (.access, va))
    ∧ (ent / 64 % 4 = 3 → ∀ need, s.resolve ag need va n = .error (.access, va)))

/-- R32, R147, R149, R150, R159, R161: a load every thread's access of which passes its checks completes: the path goes on, memory and all registers stay, the
destination registers are pending, and requests for exactly the bytes of the threads' parts are on their way, for LDFE one for each thread in ascending order.
The state LDFE and STFE start from has met the lines of their granules (R427); without an undetected error it is the state of issue. -/
def Obligations.LoadsIssue : Prop :=
  ∀ (st : BitVec 3) (d a : BitVec 7) (size : BitVec 3) (sign : BitVec 1) (scope : BitVec 3) (subop : BitVec 5) (off : BitVec 20) (s : State) (e : Env)
    (ps : Nat → List Part), s.env = some e → e.pi < e.g.paths.length → e.p.mask ≠ 0 →
    let n := 2 ^ size.toNat
    let goes := fun (i : Instr) (uni : Bool) (kind : ReqKind) (m : State) => ∃ t g' rs, exec i s = .next t ∧ t.grp e.gk = some g' ∧ e.onward i g'
      ∧ g'.SameRegs (e.seeChorus i e.g) ∧ t.SameBut m e.gk
      ∧ g'.pend = e.g.pend ++ loadMarks m.seq (dataBase e.g uni d size) uni n (if uni then ~~~0 else maskOf (threadsOf e.p.mask))
      ∧ t.loads = m.loads ++ [e.loadOp m.seq (dataBase e.g uni d size) uni n (sign == 1) false (e.memThreads uni)]
      ∧ t.reqs = m.reqs ++ rs ∧ (∀ r ∈ rs, r.kind = kind ∧ r.op = m.seq ∧ r.gk = e.gk ∧ r.mask = e.p.mask ∧ r.cause = 0 ∧ r.acq = (scope != 0) ∧ r.rel = false)
      ∧ (kind ≠ .load → rs.map (·.parts) = (e.memThreads uni).map fun t => touches (e.owners uni t) t 0 (ps t))
      ∧ ∀ x, x ∈ rs.flatMap (·.parts) ↔ x ∈ (e.memThreads uni).flatMap fun t => touches (e.owners uni t) t 0 (ps t)
    let load := fun (i : Instr) (uni : Bool) => e.issueTrap i = none → e.MemOk i uni a off n .read false false ps → goes i uni .load s
    load (.ld st d a size sign scope subop off) false
    ∧ load (.ldw st d a size sign scope subop off) false
    ∧ load (.ldU st d a size sign scope subop off) true
    ∧ (subop ≠ 1 → load (.ldpoll st d a size sign scope subop off) false)
    ∧ (subop ≠ 1 → load (.ldpollU st d a size sign scope subop off) true)
    ∧ (let i : Instr := .ldfe st d a size sign scope subop off
        let m := e.feMet i a off n .read s
        e.issueTrap i = none → e.MemOk i false a off n .read true true ps →
        (∀ t ∈ threadsOf e.p.mask, e.feCheck (subop == 1) (e.ea false a off t).1.toNat (ps t) = .ok (ps t)) →
        (m.groups = s.groups → goes i false (.ldfe (subop == 1)) m) ∧ (s.mem.latent = [] → m = s))

/-- R54, R149: a load every thread of which fails its checks with one trap takes it for all threads, and nothing else happens; the address a record would carry
is the lowest failing one.

R32, R161: LDPOLL.Y reads and parks the path until a value differs from the destination's; its registers are not written yet. -/
def Obligations.LoadTrapsAndPolls : Prop :=
  (∀ (st : BitVec 3) (d a : BitVec 7) (size : BitVec 3) (sign : BitVec 1) (scope : BitVec 3) (subop : BitVec 5) (off : BitVec 20) (s : State) (e : Env)
    (tr : Trap) (va : Nat → Nat), s.env = some e → e.p.mask ≠ 0 →
    let i : Instr := .ld st d a size sign scope subop off
    e.issueTrap i = none → (∀ t ∈ threadsOf e.p.mask, e.memCheck i false (e.ea false a off t) (2 ^ size.toNat) .read false false t = .error (tr, va t)) →
    ∃ low, exec i s = .next ((s.setGrp e.gk (e.seeChorusBut i e.p.mask e.p.mask e.g)).trapEntry e.gk e.pi tr e.p.mask low) ∧ (∃ t ∈ threadsOf e.p.mask, low = va t) ∧ ∀ t ∈ threadsOf e.p.mask, low ≤ va t)
  ∧ (∀ (st : BitVec 3) (d a : BitVec 7) (size : BitVec 3) (sign : BitVec 1) (scope : BitVec 3) (off : BitVec 20) (s : State) (e : Env)
    (ps : Nat → List Part), s.env = some e → e.pi < e.g.paths.length → e.p.mask ≠ 0 →
    let polls := fun (i : Instr) (uni : Bool) => e.issueTrap i = none → e.MemOk i uni a off (2 ^ size.toNat) .read false false ps →
      ∃ t g' poll, exec i s = .next t ∧ t.grp e.gk = some g'
        ∧ g'.path e.pi = { e.advance i e.p.pc e.p with st := .parked, wait := .ldpoll s.clock 0 poll, resume := e.nextPc i }
        ∧ poll.last = (e.memThreads uni).map (fun t => (t, dataNat (e.dataRegs uni d size t)))
        ∧ g'.SameRegs (e.seeChorus i e.g) ∧ g'.pend = e.g.pend ∧ t.SameBut s e.gk
    polls (.ldpoll st d a size sign scope 1 off) false ∧ polls (.ldpollU st d a size sign scope 1 off) true)

/-- R147, R149, R150, R159: a store that passes its checks completes: the path goes on, or parks at STFE.WE; no register and, until its requests are performed,
no byte changes; the requests carry the data of the registers. -/
def Obligations.StoresIssue : Prop :=
  ∀ (st : BitVec 3) (d a : BitVec 7) (size : BitVec 3) (sign : BitVec 1) (scope : BitVec 3) (subop : BitVec 5) (off : BitVec 20) (s : State) (e : Env),
    s.env = some e → e.pi < e.g.paths.length → e.p.mask ≠ 0 →
    let n := 2 ^ size.toNat
    let kept := fun (i : Instr) (m t : State) (g' : Grp) => exec i s = .next t ∧ t.grp e.gk = some g' ∧ g'.SameRegs (e.seeChorus i e.g) ∧ g'.pend = e.g.pend
      ∧ t.SameBut m e.gk
    let stores := fun (i : Instr) (uni : Bool) => ∀ xs : Nat → List Touch, e.issueTrap i = none →
      (∀ t ∈ e.memThreads uni, e.storeCheck i uni (e.ea uni a off t) n t (e.dataRegs uni d size t) = ⟨none, xs t, []⟩) →
      (∀ t ∈ e.memThreads uni, ∀ x ∈ xs t, x.data = dataNat (e.dataRegs uni d size t) / 2 ^ (8 * x.off) % 2 ^ (8 * x.len))
      ∧ ∃ t g' rs, kept i s t g' ∧ e.onward i g' ∧ t.reqs = s.reqs ++ rs
        ∧ (∀ r ∈ rs, r.kind = .store ∧ r.op = s.seq ∧ r.gk = e.gk ∧ r.mask = e.p.mask ∧ r.cause = 0 ∧ r.rel = (scope != 0))
        ∧ ∀ x, x ∈ rs.flatMap (·.parts) ↔ x ∈ (e.memThreads uni).flatMap xs
    stores (.st st d a size sign scope subop off) false ∧ stores (.stw st d a size sign scope subop off) false
    ∧ stores (.stU st d a size sign scope subop off) true
    ∧ ∀ ps : Nat → List Part,
      let i : Instr := .stfe st d a size sign scope subop off
      e.issueTrap i = none → e.MemOk i false a off n .write true true ps →
      (∀ t ∈ threadsOf e.p.mask, e.feCheck (subop == 1) (e.ea false a off t).1.toNat (ps t) = .ok (ps t)) →
      let m := e.feMet i a off n .write s
      (s.mem.latent = [] → m = s) ∧ (m.groups = s.groups → ∃ t g' rs, kept i m t g' ∧ (subop ≠ 1 → e.onward i g')
        ∧ (subop = 1 → g'.path e.pi = { e.advance i e.p.pc e.p with st := .parked, wait := .stfe s.seq, resume := e.nextPc i })
        ∧ t.reqs = m.reqs ++ rs ∧ rs.length = (threadsOf e.p.mask).length
        ∧ ∀ r ∈ rs, r.kind = .stfe (subop == 1) ∧ ∃ u ∈ threadsOf e.p.mask, r.parts.map (fun x => (x.home, x.len, x.data)) =
            (touches (e.owners false u) u 0 (ps u)).map fun x => (x.home, x.len, dataNat (e.dataRegs false d size u) % 2 ^ (8 * n)))

/-- R147, R149, R151, R154, R155, R156: an atomic that passes its checks completes: one request for each thread with its operation and operands; the returning
forms have their destination pending. Under DET, ATOMF traps DETERM. -/
def Obligations.AtomicsIssue : Prop :=
  ∀ (st : BitVec 3) (d a b : BitVec 7) (size : BitVec 3) (sign : BitVec 1) (scope : BitVec 3) (subop : BitVec 5) (off : BitVec 20) (s : State) (e : Env)
    (ps : Nat → List Part), s.env = some e → e.pi < e.g.paths.length → e.p.mask ≠ 0 →
    let n := 2 ^ size.toNat
    let who := fun (r : MemReq) => (r.parts.map (·.thread)).headD 0
    let goes := fun (i : Instr) (uni ret : Bool) (aop : Nat) (d' : BitVec 7) => e.issueTrap i = none → e.MemOk i uni a off n .atomic true false ps →
      (∀ t ∈ e.memThreads uni, e.atomCheck aop n (ret && decide (aop < 16)) (e.ea uni a off t).1.toNat (ps t) = .ok (ps t)) →
      ∃ t g' rs, exec i s = .next t ∧ t.grp e.gk = some g' ∧ e.onward i g' ∧ g'.SameRegs (e.seeChorus i e.g) ∧ t.SameBut s e.gk
        ∧ (ret = true → g'.pend = e.g.pend ++ loadMarks s.seq (dataBase e.g uni d' size) uni n (if uni then ~~~0 else maskOf (threadsOf e.p.mask))
            ∧ t.loads = s.loads ++ [e.loadOp s.seq (dataBase e.g uni d' size) uni n false false (e.memThreads uni)])
        ∧ (ret = false → g'.pend = e.g.pend ∧ t.loads = s.loads)
        ∧ t.reqs = s.reqs ++ rs ∧ rs.length = (e.memThreads uni).length
        ∧ ∀ r ∈ rs, r.kind = .atomic ∧ r.aop = aop ∧ r.cause = 0 ∧ r.acq = (ret && scope != 0) ∧ r.rel = (scope != 0) ∧ ∃ u ∈ e.memThreads uni,
            r.parts = touches (e.owners uni u) u 0 (ps u) ∧ r.atoms = [⟨s.seq, e.gk, who r, dataNat (e.dataRegs uni b size (who r)) % 2 ^ (8 * n),
              if aop = 9 then dataNat (e.dataRegs uni d' size (who r)) % 2 ^ (8 * n) else 0,
              (e.dataRegs uni b size (who r)).any (·.poison) || (aop == 9 && (e.dataRegs uni d' size (who r)).any (·.poison)), ret⟩]
    goes (.atom st d a b size sign scope subop off) false true subop.toNat d
    ∧ goes (.red st a b size sign scope subop off) false false subop.toNat 0
    ∧ (e.b.det = false → goes (.atomf st d a b size sign scope subop off) false true (16 + subop.toNat) d)
    ∧ (e.b.det = true → e.issueTrap (.atomf st d a b size sign scope subop off) = none →
        exec (.atomf st d a b size sign scope subop off) s = .next (e.trapAll ⟨0x12, 0⟩))
    ∧ goes (.atomx st a b size sign scope subop off) false false 32 0
    ∧ goes (.atomU st d a b size sign scope subop off) true true subop.toNat d
    ∧ goes (.redU st a b size sign scope subop off) true false subop.toNat 0

/-- R17, R428, R429: a write request's bytes are read back, little-endian, and no other byte changes; a clean request poisons no line, a poisoned one marks exactly the
lines it writes to; and memory keeps its canonical form. -/
def Obligations.WriteThenRead : Prop :=
  ∀ (m : Memory) (pa n x : Nat) (z : Bool), m.wf = true →
    let m' := m.request (leBytes pa z n x)
    m'.wf = true
    ∧ m'.readLE pa n = x % 2 ^ (8 * n)
    ∧ (∀ a, (a < pa ∨ pa + n ≤ a) → m'.byte a = m.byte a)
    ∧ (∀ l, (z = true → (∃ k, k < n ∧ (pa + k) / 64 = l) → m'.poisoned (64 * l) = true)
        ∧ ((∀ k, k < n → (pa + k) / 64 ≠ l) → m'.poisoned (64 * l) = m.poisoned (64 * l))
        ∧ (z = false → m.poisoned (64 * l) = false → m'.poisoned (64 * l) = false)
        ∧ (z = false → pa ≤ 64 * l → 64 * l + 64 ≤ pa + n → m'.poisoned (64 * l) = false))
    ∧ m'.empties = m.empties

/-- R279, R150, R267, R281: a store is performed: its bytes are in memory, every other byte is as before, the request is gone, and no register changes. One
part of a request that divides may be performed by itself, no part before it touching its bytes: then the rest of it stays on its way. -/
def Obligations.StorePerformed : Prop :=
  (∀ (s : State) (rid : Nat) (r : MemReq), s.Canonical → s.subject = [rid] → s.enabled rid = some r → r.kind = .store → r.cause = 0 →
    ∃ t, exec .storePerformed s = .next t
      ∧ (∀ a, (∀ x ∈ r.parts, a < x.home ∨ x.home + x.len ≤ a) → t.mem.byte a = s.mem.byte a)
      ∧ (∀ x ∈ r.parts, ∀ k, k < x.len → (∀ y ∈ r.parts, y ≠ x → y.home + y.len ≤ x.home ∨ x.home + x.len ≤ y.home) →
          s.inOutbox (x.home + k) = false → s.inSpawn (x.home + k) = false → (t.mem.byte (x.home + k)).toNat = x.data / 256 ^ k % 256)
      ∧ (∀ a, s.inOutbox a = true → t.mem.byte a = s.mem.byte a)
      ∧ (∀ x ∈ t.reqs, x.rid ≠ rid) ∧ t.Canonical
      ∧ (∀ k g, s.grp k = some g → ∃ g', t.grp k = some g' ∧ g'.SameRegs g ∧ g'.pend = g.pend)
      ∧ t.blocks = s.blocks ∧ t.results = s.results ∧ t.loads = s.loads ∧ t.dev = s.dev)
  ∧ ∀ (s : State) (rid k : Nat) (r : MemReq) (x : Touch), s.Canonical → s.subject = [rid, 2 ^ 64 + k] → s.enabled rid = some r → r.kind = .store →
      r.cause = 0 → 1 < r.parts.length → (r.parts.map (·.len)).sum < 64 → r.parts[k]? = some x →
      (∀ j y, j < k → r.parts[j]? = some y → y.home + y.len ≤ x.home ∨ x.home + x.len ≤ y.home) →
      ∃ t, exec .storePerformed s = .next t
        ∧ (∀ a, (a < x.home ∨ x.home + x.len ≤ a) → t.mem.byte a = s.mem.byte a)
        ∧ (∀ j, j < x.len → s.inOutbox (x.home + j) = false → s.inSpawn (x.home + j) = false → (t.mem.byte (x.home + j)).toNat = x.data / 256 ^ j % 256)
        ∧ t.reqs = s.reqs.map (fun y => if y.rid = rid then { y with parts := r.parts.eraseIdx k } else y) ∧ t.Canonical
        ∧ t.groups = s.groups ∧ t.blocks = s.blocks ∧ t.results = s.results ∧ t.loads = s.loads ∧ t.dev = s.dev

/-- R150, R279, R90: a load whose one part is served delivers the bytes of memory, zero- or sign-extended by its size; memory does not change. -/
def Obligations.LoadAtHome : Prop :=
  (∀ (s : State) (rid : Nat) (r : MemReq) (p : Touch) (l : LoadOp), s.subject = [rid] → s.enabled rid = some r → r.kind = .load → r.cause = 0 →
    r.parts = [p] → p.off = 0 → (s.loads.find? fun x => x.id == r.op) = some l → l.left = [(p.thread, p.len, 0, false)] → l.poll = false →
    (∀ n ∈ linesOf p.home p.len, SMap.get 0 s.mem.latent n = 0) → s.mem.anyPoison p.home p.len = false →
    (∀ k, k < p.len → s.inOutbox (p.home + k) = false ∧ s.inSpawn (p.home + k) = false) →
    ∃ t, exec .loadAtHome s = .next t ∧ t.mem = s.mem ∧ t.groups = s.groups ∧ t.blocks = s.blocks ∧ t.dev = s.dev
      ∧ (∀ x ∈ t.reqs, x.rid ≠ rid) ∧ (∀ x ∈ t.loads, x.id ≠ r.op)
      ∧ let ws := (List.range (max 1 (l.bytes / 4))).map fun k =>
          (l.dest + k, (⟨BitVec.ofNat 32 (extendLoad l.bytes l.sign (s.mem.readLE p.home p.len) / 2 ^ (32 * k)), false⟩ : RegVal))
        t.results = s.results ++ [{ id := l.id, gk := l.gk, cls := .load, mask := if l.uni then ~~~0 else BitVec.ofNat 96 (2 ^ p.thread),
                                    vw := if l.uni then [] else (ws.map fun w => (128 * w.1 + p.thread, w.2)), sw := if l.uni then ws else [], flags := 0 }])
  ∧ ∀ (x : Nat) (n : Nat), (n = 1 ∨ n = 2) → x < 2 ^ (8 * n) →
      BitVec.ofNat 32 (extendLoad n true x) = (BitVec.ofNat (8 * n) x).signExtend 32 ∧ extendLoad n false x = x

/-- R151, R153, R156: an atomic whose turn has come at its home is applied, whatever its operation, operands and the atomics that have joined it: the requests are
gone, no byte outside the word and no register changes. On a clean word in no outbox or spawn area the word takes the operations one after another, in the order in which they
left; an SSIG on a poisoned word leaves it and its threads owe a trap POISON (R430); a single one returns the old value where it is asked for; and what the new value is for each operation.

R153, R154, R270, R275, R389, R53, R116, R363: two atomics of one operation, place and page kind merge where nothing orders them otherwise (log entry 79: any two may
meet in a router): one joins the other, and with it those that have joined it, and nothing else happens; a host atomic that completes is applied; a store that
was refused after it retired leaves its record, with its cause, at its core, its request stands for the record until that is written, and the fault is fatal:
the first of a launch ends it and all groups of its blocks; with no block left the TCB reads FAULTED. -/
def Obligations.AtomicsAtHome : Prop :=
  ((∀ (s : State) (rid : Nat) (r : MemReq), s.subject = [rid] → s.enabled rid = some r → r.kind = .atomic → r.queued = none → r.onHost = false →
    (∀ x ∈ r :: s.joined rid, ∀ p ∈ x.parts, ∀ n ∈ linesOf p.home p.len, SMap.get 0 s.mem.latent n = 0) →
    ∃ t, exec .atomicAtHome s = .next t ∧ (∀ x ∈ t.reqs, x.rid ≠ rid) ∧ (r.parts ≠ [] → ∀ x ∈ s.joined rid, ∀ y ∈ t.reqs, y.rid ≠ x.rid)
      ∧ (∀ a, (∀ x ∈ r :: s.joined rid, ∀ p ∈ x.parts, a < p.home ∨ p.home + p.len ≤ a) → t.mem.byte a = s.mem.byte a)
      ∧ (∀ k g, s.grp k = some g → ∃ g', t.grp k = some g' ∧ g'.SameRegs g ∧ g'.pend = g.pend)
      ∧ t.blocks = s.blocks ∧ t.cores = s.cores ∧ t.tasks = s.tasks ∧ t.ctxs = s.ctxs ∧ t.clock = s.clock)
  ∧ (∀ (s : State) (rid : Nat) (r : MemReq) (p : Touch), s.Canonical → s.subject = [rid] → s.enabled rid = some r → r.kind = .atomic →
    r.queued = none → r.parts = [p] → r.onHost = false → 0 < p.len →
    (∀ x ∈ s.joined rid, x.aop = r.aop ∧ x.parts.map (fun q => (q.home, q.len)) = [(p.home, p.len)]) → (∀ u ∈ r.atoms ++ (s.joined rid).flatMap (·.atoms), u.poison = false) →
    (∀ n ∈ linesOf p.home p.len, SMap.get 0 s.mem.latent n = 0) → s.mem.anyPoison p.home p.len = false →
    (∀ k, k < p.len → s.inOutbox (p.home + k) = false ∧ s.inSpawn (p.home + k) = false) →
    ∃ t, exec .atomicAtHome s = .next t ∧ t.mem.readLE p.home p.len =
      (r.atoms ++ (s.joined rid).flatMap (·.atoms)).foldl (fun x u => (atomicNew r.aop p.len x u.b u.exp).1 % 2 ^ (8 * p.len)) (s.mem.readLE p.home p.len))
  ∧ (∀ (s : State) (rid : Nat) (r : MemReq) (p : Touch) (u : AtomUse), s.Canonical → s.subject = [rid] → s.enabled rid = some r → r.kind = .atomic →
    r.queued = none → r.parts = [p] → r.atoms = [u] → s.joined rid = [] → isHost p.home = false → u.poison = false → 0 < p.len →
    (∀ n ∈ linesOf p.home p.len, SMap.get 0 s.mem.latent n = 0) → s.mem.anyPoison p.home p.len = false →
    (∀ k, k < p.len → s.inOutbox (p.home + k) = false ∧ s.inSpawn (p.home + k) = false) →
    let old := s.mem.readLE p.home p.len
    let new := (atomicNew r.aop p.len old u.b u.exp).1
    ∃ t, exec .atomicAtHome s = .next t ∧ t.mem.readLE p.home p.len = new % 2 ^ (8 * p.len)
      ∧ (∀ a, (a < p.home ∨ p.home + p.len ≤ a) → t.mem.byte a = s.mem.byte a)
      ∧ (u.ret = false → t.results = s.results)
      ∧ (∀ l, u.ret = true → (s.loads.find? fun x => x.id == u.op) = some l →
          ∃ x, t.results = s.results ++ [x] ∧ x.id = l.id ∧ x.gk = l.gk
            ∧ (l.uni = false → x.vw = (List.range (max 1 (l.bytes / 4))).map fun k =>
                (128 * (l.dest + k) + u.thread, ⟨BitVec.ofNat 32 (extendLoad l.bytes l.sign old / 2 ^ (32 * k)), false⟩))
            ∧ (l.uni = true → x.sw = (List.range (max 1 (l.bytes / 4))).map fun k =>
                (l.dest + k, ⟨BitVec.ofNat 32 (extendLoad l.bytes l.sign old / 2 ^ (32 * k)), false⟩)))
      ∧ (∀ k g, s.grp k = some g → ∃ g', t.grp k = some g' ∧ g'.SameRegs g ∧ g'.pend = g.pend))
  ∧ (∀ (s : State) (rid : Nat) (r : MemReq) (p : Touch) (u : AtomUse) (g : Grp), s.subject = [rid] → s.enabled rid = some r → r.kind = .atomic →
    r.queued = none → r.parts = [p] → r.atoms = [u] → s.joined rid = [] → isHost p.home = false → u.thread = 128 → s.grp u.gk = some g →
    (∀ n ∈ linesOf p.home p.len, SMap.get 0 s.mem.latent n = 0) → s.mem.anyPoison p.home p.len = true →
    ∃ t, exec .atomicAtHome s = .next t ∧ t.mem = s.mem ∧ t.results = s.results ∧ t.grp u.gk = some { g with owed := g.owed ++ [(p.ts, p.va)] })
  ∧ ∀ (n old b exp : Nat), (n = 4 ∨ n = 8) → old < 2 ^ (8 * n) → b < 2 ^ (8 * n) →
      let v := fun x => BitVec.ofNat (8 * n) x
      let new := fun aop => v (atomicNew aop n old b exp).1
      new 0 = v old + v b ∧ new 1 = v old &&& v b ∧ new 2 = v old ||| v b ∧ new 3 = v old ^^^ v b
      ∧ new 4 = (if (v b).slt (v old) then v b else v old) ∧ new 5 = (if (v old).slt (v b) then v b else v old)
      ∧ new 6 = (if (v b).ult (v old) then v b else v old) ∧ new 7 = (if (v old).ult (v b) then v b else v old)
      ∧ new 8 = v b ∧ new 9 = (if old = exp then v b else v old) ∧ new 32 = v old + v b)
  ∧ ((∀ (s : State) (j k : Nat) (x y : MemReq), s.subject = [j, k] → s.enabled j = some x → (s.reqs.find? fun r => r.rid == k) = some y → j ≠ k →
    x.mergeable = true → y.mergeable = true → s.held y = false → x.ctx = y.ctx → x.aop = y.aop →
    (∀ z ∈ s.ahead y, z.rid = j ∨ z.queued = some j) → (∀ z ∈ y :: s.joined k, x.core ≠ z.core ∨ j < z.rid) →
    (x.parts.map fun p => (p.home, p.len, p.ord)) = (y.parts.map fun p => (p.home, p.len, p.ord)) →
    ∃ rs, exec .atomicMerge s = .next { s with reqs := rs } ∧ rs.length = s.reqs.length
      ∧ (rs.find? fun r => r.rid == j) = some x
      ∧ (rs.find? fun r => r.rid == k) = some { y with queued := some j }
      ∧ ∀ i r, i ≠ j → i ≠ k → (s.reqs.find? fun r => r.rid == i) = some r →
          (rs.find? fun r => r.rid == i) = some (if r.kind = .atomic ∧ r.queued = some k then { r with queued := some j } else r))
  ∧ (∀ (s : State) (rid : Nat) (r : MemReq), s.subject = [rid, 1] → s.enabled rid = some r → r.kind = .atomic → r.onHost = true →
      exec .hostAtomicCompletion s = .next (s.serveAtomic r))
  ∧ (∀ (s : State) (rid : Nat) (r : MemReq) (g : Grp) (b : Blk), s.subject = [rid] → (s.reqs.find? fun x => x.rid == rid) = some r → r.kind = .store → r.cause ≠ 0 →
      s.grp r.gk = some g → s.blk r.bk = some b → (s.core r.core).coalescer = [] →
      ∃ (u : State) (rec' : Rec), exec .impreciseStoreFault s = .next (u.fatalFault b.ctx b.task rec') ∧ u.mem = s.mem ∧ u.groups = s.groups ∧ u.tasks = s.tasks ∧ u.blocks = s.blocks
        ∧ (u.reqs.find? fun x => x.rid == rid) = some { r with kind := .refused, acq := false } ∧ rec'.stores = [rid]
        ∧ (u.core r.core).coalescer = [(s.clock, rec')] ∧ rec'.kind = 4 ∧ rec'.cause = r.cause ∧ rec'.pc = r.pc ∧ rec'.ctx = b.ctx ∧ rec'.task = b.task
        ∧ ∀ p ∈ r.parts, rec'.va ≤ p.va)
  ∧ (∀ (s : State) (ctx idx : Nat) (k : Task) (rec' : Rec), s.task ctx idx = some k → k.ending = 0 → s.taskBlocks ctx idx ≠ [] → s.mem.latent = [] →
      let t := s.fatalFault ctx idx rec'
      t.task ctx idx = some { k with ending := 1, fault := some rec'.bits }
        ∧ ∀ x ∈ t.groups, ∀ y ∈ s.taskBlocks ctx idx, x.2.blk = y.1 → x.2.alive = 0)
  ∧ ∀ (s s1 : State) (ctx idx : Nat) (k : Task) (rec' : Rec), s.task ctx idx = some k → k.ending = 0 → k.kept = false → s.taskBlocks ctx idx = [] → k.faultrec = 0 →
      let k' := { k with ending := 1, fault := some rec'.bits }
      let u : State := (({ s with films := s.films.filter (fun r => !(r.ctx == ctx && r.task == idx)), dev := s.dev.dropStops fun _ => false } : State).setTask ctx idx k').unbindFilms ctx idx
      ({ u with tasks := SMap.del u.tasks (taskKey ctx idx) } : State).writeBack ctx idx true k' { k' with status := 5 } = .ok s1 → s.fatalFault ctx idx rec' = s1)

/-- R158, R159, R160, R379, R430: with nobody queued, an LDFE on a full granule delivers its bytes and leaves the tag full, or empty with .CLR; on an empty one it is queued. An
STFE on an empty granule, or one without .WE, writes its bytes and sets the tag full; STFE.WE on a full one is queued; that of a group that is away is withdrawn
where it would be queued, and performed like any other where not. A poisoned line lets none wait: an STFE leaves word and tag, and its threads owe a trap
POISON. -/
def Obligations.FullEmptyAtHome : Prop :=
  ∀ (s : State) (rid : Nat) (r : MemReq) (p : Touch) (g : Grp), s.Canonical → s.subject = [rid] → s.enabled rid = some r → r.parts = [p] → 0 < p.len →
    p.home % 16 + p.len ≤ 16 → s.grp r.gk = some g → r.out = false → (∀ x ∈ s.reqs, x.queued = none) →
    (∀ n ∈ linesOf p.home p.len, SMap.get 0 s.mem.latent n = 0) →
    (∀ we, r.kind = .stfe we → s.mem.anyPoison p.home p.len = true →
      ∃ t, exec .fullEmptyAtHome s = .next t ∧ t.mem = s.mem ∧ t.grp r.gk = some { g with owed := g.owed ++ [(p.ts, p.va)] } ∧ ∀ x ∈ t.reqs, x.rid ≠ rid)
    ∧ (s.mem.anyPoison p.home p.len = false → (∀ k, k < p.len → s.inOutbox (p.home + k) = false ∧ s.inSpawn (p.home + k) = false) →
    let queues := ∃ t, exec .fullEmptyAtHome s = .next t ∧ t.mem = s.mem ∧ t.results = s.results ∧ t.groups = s.groups
      ∧ (t.reqs.find? fun x => x.rid == rid) = some (if g.resident = false ∧ g.alive ≠ 0 then { r with out := true } else { r with queued := some s.seq })
    (∀ clr l, r.kind = .ldfe clr → s.mem.full p.home = true → (s.loads.find? fun x => x.id == r.op) = some l → l.left = [(p.thread, p.len, 0, false)] →
      l.poll = false → p.off = 0 →
      ∃ t, exec .fullEmptyAtHome s = .next t ∧ t.mem.bytes = s.mem.bytes ∧ t.mem.full p.home = !clr
        ∧ (∀ a, a / 16 ≠ p.home / 16 → t.mem.full a = s.mem.full a) ∧ t.groups = s.groups
        ∧ ∃ x, t.results = s.results ++ [x] ∧ x.id = l.id ∧ (l.uni = false → x.vw = (List.range (max 1 (l.bytes / 4))).map fun k =>
            (128 * (l.dest + k) + p.thread, ⟨BitVec.ofNat 32 (extendLoad l.bytes l.sign (s.mem.readLE p.home p.len) / 2 ^ (32 * k)), false⟩)))
    ∧ (∀ clr, r.kind = .ldfe clr → s.mem.full p.home = false → queues)
    ∧ (∀ we, r.kind = .stfe we → (we = false ∨ s.mem.full p.home = false) → p.poison = false →
      ∃ t, exec .fullEmptyAtHome s = .next t ∧ t.mem.full p.home = true ∧ t.mem.readLE p.home p.len = p.data % 2 ^ (8 * p.len)
        ∧ (∀ a, (a < p.home ∨ p.home + p.len ≤ a) → t.mem.byte a = s.mem.byte a) ∧ (∀ a, a / 16 ≠ p.home / 16 → t.mem.full a = s.mem.full a))
    ∧ (r.kind = .stfe true → s.mem.full p.home = true → queues))

/-! ### Barriers, waits and exchanges -/

/-- R163, R164, R165, R167, R168: BARI writes a word of its kind and count; BARA arrives, with the phase pending for its register, and the last arrival toggles the
phase; BARAW parks until then; BARW goes on where the phase has ended and parks where it has not; here with no other path waiting on the word. That BARI rewrites a
broken word, marks the line for a poisoned count, and that BARW and NBAR take a poisoned operand by its value, is the model's choice (log entry 29).

R169, R170, R287: NBAR counts an arrival, and the last one toggles the phase and frees the barrier; a count that differs traps BARRIER_MISMATCH. HBAR records the
group's arrival for its scope and parks it; outside a cluster or gang it traps TASK. An arrival that is not the last leaves beside it the path's operations still
out, which the waiters' later accesses come after. -/
def Obligations.Barriers : Prop :=
  (∀ (st : BitVec 3) (k d a b : BitVec 7) (s : State) (e : Env) (home : Nat), s.env = some e → s.Canonical → e.barHome a = .ok home → e.pi < e.g.paths.length → e.p.wait = .none →
    (∀ l ∈ linesOf home 8, SMap.get 0 s.mem.latent l = 0) →
    let word := fun (t : State) (w : Nat) => t.mem.readLE home 8 = w ∧ ∀ x, (x < home ∨ home + 8 ≤ x) → t.mem.byte x = s.mem.byte x
    let kept := fun (t : State) (g' : Grp) => t.grp e.gk = some g' ∧ g'.SameRegs e.g ∧ t.blocks = s.blocks ∧ t.dev = s.dev
    let n := (e.uni b).val.toNat
    let old := s.mem.readLE home 8
    let alone := e.g.others e.pi = [] ∧ ∀ x ∈ s.groups, ∀ q, (q ∈ x.2.paths ∨ q ∈ x.2.spilled.map (·.2)) → onWord home q.wait = false
    let good := s.mem.anyPoison home 8 = false ∧ barBroken old = false ∧ barKind old = 1
    let rest := ((s.groupsOf e.g.blk).filter fun x => x.1 != e.gk && x.2.alive != 0).length
    let told := fun (t : State) (g' : Grp) => g'.pend = e.g.pend ++ [⟨.s d.toNat, ~~~0, s.seq, .other⟩]
      ∧ t.results = s.results ++ [{ id := s.seq, gk := e.gk, cls := .other, mask := ~~~0, vw := [],
                                    sw := [(d.toNat, ⟨BitVec.ofNat 32 (barPhase old).toNat, false⟩)], flags := 0 }]
    (e.issueTrap (.bari st k a b) = none → k = 0 → ∃ t g', exec (.bari st k a b) s = .next t ∧ word t 0 ∧ kept t g' ∧ e.onward (.bari st k a b) g')
    ∧ (e.issueTrap (.bari st k a b) = none → k ≠ 0 → (n = 0 ∨ 2 ^ 30 ≤ n) → exec (.bari st k a b) s = .next (e.trapAll ⟨0x0D, 0⟩))
    ∧ (e.issueTrap (.bari st k a b) = none → (k = 1 ∨ k = 2) → 0 < n → n < 2 ^ 30 →
        ∃ t g', exec (.bari st k a b) s = .next t ∧ word t (k.toNat * 2 ^ 62 + n * 2 ^ 31) ∧ kept t g' ∧ e.onward (.bari st k a b) g')
    ∧ (e.issueTrap (.bara st d a) = none → alone → good → barArrived old + 1 < barExpected old →
        ∃ t g', exec (.bara st d a) s = .next t ∧ word t (barWord 1 (barPhase old) (barExpected old) (barArrived old + 1) false) ∧ kept t g' ∧ told t g'
          ∧ e.onward (.bara st d a) g')
    ∧ (e.issueTrap (.bara st d a) = none → alone → good → barArrived old + 1 = barExpected old →
        ∃ t g', exec (.bara st d a) s = .next t ∧ word t (barWord 1 (!barPhase old) (barExpected old) 0 false) ∧ kept t g' ∧ told t g' ∧ e.onward (.bara st d a) g')
    ∧ (e.issueTrap (.baraw st d a) = none → alone → good → barArrived old + 1 = barExpected old →
        ∃ t g', exec (.baraw st d a) s = .next t ∧ word t (barWord 1 (!barPhase old) (barExpected old) 0 false) ∧ kept t g' ∧ told t g' ∧ e.onward (.baraw st d a) g')
    ∧ (e.issueTrap (.baraw st d a) = none → alone → good → barArrived old + 1 < barExpected old → barExpected old - (barArrived old + 1) ≤ rest →
        ∃ t g', exec (.baraw st d a) s = .next t ∧ word t (barWord 1 (barPhase old) (barExpected old) (barArrived old + 1) false) ∧ kept t g' ∧ told t g'
          ∧ g'.path e.pi = { e.advance (.baraw st d a) e.p.pc e.p with st := .parked, wait := .barWord home (barPhase old), resume := e.p.pc + 4 })
    ∧ (e.issueTrap (.barw st a b) = none → s.wordTrap home false = none → barPhase old ≠ (e.uni b).val.getLsbD 0 →
        exec (.barw st a b) s = .next (e.goesOn (.barw st a b) (e.p.pc + 4) e.g))
    ∧ (e.issueTrap (.barw st a b) = none → alone → good → barPhase old = (e.uni b).val.getLsbD 0 → barExpected old - barArrived old ≤ rest →
        exec (.barw st a b) s = .next (s.setGrp e.gk (Path.set e.g e.pi
          { e.advance (.barw st a b) e.p.pc e.p with st := .parked, wait := .barWord home (barPhase old), resume := e.p.pc + 4 })))
    ∧ (e.issueTrap (.bara st d a) = none → e.g.others e.pi = [] → s.mem.anyPoison home 8 = false → barBroken old = true →
        exec (.bara st d a) s = .next (e.trapAll ⟨0x0C, 0⟩))
    ∧ (e.issueTrap (.bara st d a) = none → e.g.others e.pi = [] → s.mem.anyPoison home 8 = true →
        exec (.bara st d a) s = .next (e.trapAll ⟨0x0B, 0⟩))
    ∧ (e.issueTrap (.bara st d a) = none → e.g.others e.pi = [] → s.mem.anyPoison home 8 = false → barBroken old = false → barKind old ≠ 1 →
        exec (.bara st d a) s = .next (e.trapAll ⟨0x0D, 0⟩))
    ∧ (e.issueTrap (.bara st d a) = none → e.g.others e.pi ≠ [] → exec (.bara st d a) s = .next (s.setGrp e.gk (Path.set e.g e.pi
          { e.advance (.bara st d a) e.p.pc e.p with st := .parked, wait := .conv, resume := e.p.pc, exempt := e.p.exempt }))))
  ∧ (∀ (st : BitVec 3) (v n b c : BitVec 7) (s : State) (e : Env), s.env = some e → e.pi < e.g.paths.length → e.g.others e.pi = [] →
    let x := e.b.namedBar n.toNat
    let count := (e.uni b).val.toNat
    let idle := ∀ y ∈ s.groups, ∀ q, (q ∈ y.2.paths ∨ q ∈ y.2.spilled.map (·.2)) → onNamed n.toNat q.wait = false
    let named := fun (t : State) (y : Named) (ds : List Nat) => ∃ b', t.blk e.g.blk = some b' ∧ { b' with rels := e.b.rels } = { e.b with named := SMap.put e.b.named n.toNat y }
      ∧ b'.relDeps n.toNat = ds
    let joins := e.b.relDeps n.toNat ++ s.depsOf e.gk e.p.mask
    let kept := fun (t : State) (g' : Grp) => t.grp e.gk = some g' ∧ g'.SameRegs e.g ∧ g'.pend = e.g.pend ∧ t.mem = s.mem ∧ t.dev = s.dev
    let rest := ((s.groupsOf e.g.blk).filter fun y => y.1 != e.gk && y.2.alive != 0).length
    SMap.wf [] e.b.rels = true →
    (e.issueTrap (.nbar st v n b) = none → x.arrived = 0 → (count = 0 ∨ 16 < count) → exec (.nbar st v n b) s = .next (e.trapAll ⟨0x0D, 0⟩))
    ∧ (e.issueTrap (.nbar st v n b) = none → x.arrived ≠ 0 → count ≠ x.count → exec (.nbar st v n b) s = .next (e.trapAll ⟨0x0D, 0⟩))
    ∧ (e.issueTrap (.nbar st v n b) = none → idle → 1 ≤ count → count ≤ 16 → (x.arrived = 0 ∨ count = x.count) → x.arrived + 1 = count →
        ∃ t g', exec (.nbar st v n b) s = .next t ∧ named t ⟨0, 0, !x.phase⟩ [] ∧ kept t g' ∧ e.onward (.nbar st v n b) g')
    ∧ (e.issueTrap (.nbar st v n b) = none → idle → 1 ≤ count → count ≤ 16 → (x.arrived = 0 ∨ count = x.count) → x.arrived + 1 < count → v = 1 →
        ∃ t g', exec (.nbar st v n b) s = .next t ∧ named t ⟨count, x.arrived + 1, x.phase⟩ joins ∧ kept t g' ∧ e.onward (.nbar st v n b) g')
    ∧ (e.issueTrap (.nbar st v n b) = none → idle → 1 ≤ count → count ≤ 16 → (x.arrived = 0 ∨ count = x.count) → x.arrived + 1 < count → v ≠ 1 →
        count - (x.arrived + 1) ≤ rest →
        ∃ t g', exec (.nbar st v n b) s = .next t ∧ named t ⟨count, x.arrived + 1, x.phase⟩ joins ∧ kept t g'
          ∧ g'.path e.pi = { e.advance (.nbar st v n b) e.p.pc e.p with st := .parked, wait := .named n.toNat x.phase, resume := e.p.pc + 4 })
    ∧ (e.issueTrap (.hbar st c) = none → ((e.b.clsz = 0 ∧ e.b.gang = false) ∨ (c = 3 ∧ e.b.clsz = 0)) → exec (.hbar st c) s = .next (e.trapAll ⟨0x14, 0⟩))
    ∧ (e.issueTrap (.hbar st c) = none → (e.b.clsz ≠ 0 ∨ (e.b.gang = true ∧ c ≠ 3)) →
        ∃ t g' b', exec (.hbar st c) s = .next t ∧ kept t g'
          ∧ g'.path e.pi = { e.advance (.hbar st c) e.p.pc e.p with st := .parked, wait := .hbar c.toNat (SMap.get 0 e.b.hbarDone c.toNat), resume := e.p.pc + 4 }
          ∧ t.blk e.g.blk = some b' ∧ SMap.get [] b'.hbarArr c.toNat = SMap.get [] e.b.hbarArr c.toNat ++ [e.g.gix]
          ∧ b'.relDeps (16 + c.toNat) = e.b.relDeps (16 + c.toNat) ++ s.depsOf e.gk e.p.mask))

/-- R116, R162, R171, R172, R430: MWAIT goes on with 0 where the word already differs and parks where it does not, or where an earlier access of the path holds its
read back; it traps ACCESS on a host or unordered page, and POISON, as SWAITP and SSIG do, where the word is poisoned; SWAITP goes on where its stage bit has the value and
parks where not; SSIG sends the toggle of its bit as a release; FENCE stands among the requests where some are out and has no effect where none is; WAITR goes on
where no operation of its classes is out and parks on those that are. That SWAITP and MWAIT take a poisoned sB by its value is the model's choice (log entry
29). -/
def Obligations.WaitsAndFences : Prop :=
  ∀ (st q : BitVec 3) (g d a b k c : BitVec 7) (s : State) (e : Env), s.env = some e → e.pi < e.g.paths.length →
    let parks := fun (i : Instr) (w : Wait) => exec i s = .next (s.setGrp e.gk (Path.set e.g e.pi
      { e.advance i e.p.pc e.p with st := .parked, wait := w, resume := e.nextPc i }))
    let sound := fun (p : Part) => ∀ l ∈ linesOf p.home 4, SMap.get 0 s.mem.latent l = 0
    let out := s.outBefore e.gk e.p.mask s.seq fun x => !x.kind.isFence
    (∀ p : Part, e.issueTrap (.mwait st d a b) = none → e.memCheck (.mwait st d a b) true (e.upair a) 4 .read true false 127 = .ok [p] →
      (p.host = true ∨ p.ord = 2) → exec (.mwait st d a b) s = .next (e.trapAll ⟨0x07, 0⟩ p.va))
    ∧ (∀ p : Part, e.issueTrap (.mwait st d a b) = none → e.memCheck (.mwait st d a b) true (e.upair a) 4 .read true false 127 = .ok [p] → p.host = false →
      p.ord ≠ 2 → sound p →
      (s.mem.anyPoison p.home 4 = true → exec (.mwait st d a b) s = .next (e.trapAll ⟨0x0B, 0⟩ p.va))
      ∧ (s.mem.anyPoison p.home 4 = false → s.readHeld e.gk e.p.mask p.home 4 p.ord = true →
          parks (.mwait st d a b) (.mwait p.home p.ord (e.uni b).val 0 d.toNat (e.uni b).poison)))
    ∧ (∀ p : Part, e.issueTrap (.mwait st d a b) = none → e.memCheck (.mwait st d a b) true (e.upair a) 4 .read true false 127 = .ok [p] → p.host = false →
      p.ord ≠ 2 → sound p → s.mem.anyPoison p.home 4 = false → s.readHeld e.gk e.p.mask p.home 4 p.ord = false →
      (s.mem.readLE p.home 4 = (e.uni b).val.toNat → parks (.mwait st d a b) (.mwait p.home p.ord (e.uni b).val 1 d.toNat (e.uni b).poison))
      ∧ (s.mem.readLE p.home 4 ≠ (e.uni b).val.toNat → ∃ t g', exec (.mwait st d a b) s = .next t ∧ t.grp e.gk = some g' ∧ e.onward (.mwait st d a b) g'
          ∧ g'.SameRegs e.g ∧ g'.pend = e.g.pend ++ [⟨.s d.toNat, ~~~0, s.seq, .other⟩] ∧ t.SameBut s e.gk
          ∧ t.results = s.results ++ [{ id := s.seq, gk := e.gk, cls := .other, mask := ~~~0, vw := [], sw := [(d.toNat, ⟨0, (e.uni b).poison⟩)], flags := 0 }]))
    ∧ (∀ p : Part, sound p → s.mem.anyPoison p.home 4 = true →
      (e.issueTrap (.swaitp st g a b) = none → e.ringHome (.swaitp st g a b) a = .ok p → exec (.swaitp st g a b) s = .next (e.trapAll ⟨0x0B, 0⟩ p.va))
      ∧ (e.issueTrap (.ssig st g a) = none → e.ringHome (.ssig st g a) a = .ok p → exec (.ssig st g a) s = .next (e.trapAll ⟨0x0B, 0⟩ p.va)))
    ∧ (∀ p : Part, e.issueTrap (.swaitp st g a b) = none → e.ringHome (.swaitp st g a b) a = .ok p → sound p → s.mem.anyPoison p.home 4 = false →
      (s.readHeld e.gk e.p.mask p.home 4 1 = true → parks (.swaitp st g a b) (.swaitp p.home g.toNat ((e.uni b).val.getLsbD 0))))
    ∧ (∀ p : Part, e.issueTrap (.swaitp st g a b) = none → e.ringHome (.swaitp st g a b) a = .ok p → sound p → s.mem.anyPoison p.home 4 = false →
      s.readHeld e.gk e.p.mask p.home 4 1 = false →
      ((s.mem.readLE p.home 4).testBit g.toNat = (e.uni b).val.getLsbD 0 → exec (.swaitp st g a b) s = .next (e.goesOn (.swaitp st g a b) (e.p.pc + 4) e.g))
      ∧ ((s.mem.readLE p.home 4).testBit g.toNat ≠ (e.uni b).val.getLsbD 0 → parks (.swaitp st g a b) (.swaitp p.home g.toNat ((e.uni b).val.getLsbD 0))))
    ∧ (∀ p : Part, e.issueTrap (.ssig st g a) = none → e.ringHome (.ssig st g a) a = .ok p → sound p → s.mem.anyPoison p.home 4 = false →
      ∃ t g' r, exec (.ssig st g a) s = .next t ∧ t.grp e.gk = some g' ∧ e.onward (.ssig st g a) g' ∧ g'.SameRegs e.g ∧ g'.pend = e.g.pend ∧ t.SameBut s e.gk
        ∧ t.reqs = s.reqs ++ [r] ∧ r.kind = .atomic ∧ r.aop = 3 ∧ r.rel = true ∧ r.parts = touches e.p.mask 127 0 [p]
        ∧ r.atoms = [⟨s.seq, e.gk, 128, 2 ^ g.toNat, 0, false, false⟩])
    ∧ (e.issueTrap (.fence st k c) = none → out = false → exec (.fence st k c) s = .next (e.goesOn (.fence st k c) (e.p.pc + 4) e.g))
    ∧ (e.issueTrap (.fence st k c) = none → out = true →
      ∃ t g' r, exec (.fence st k c) s = .next t ∧ t.grp e.gk = some g' ∧ e.onward (.fence st k c) g' ∧ g'.SameRegs e.g ∧ t.SameBut s e.gk
        ∧ t.reqs = s.reqs ++ [r] ∧ r.kind = .fence k.toNat ∧ r.mask = e.p.mask ∧ r.gk = e.gk)
    ∧ (e.issueTrap (.waitr st q) = none → e.outOps q = [] → exec (.waitr st q) s = .next (e.goesOn (.waitr st q) (e.p.pc + 4) e.g))
    ∧ (e.issueTrap (.waitr st q) = none → e.outOps q ≠ [] → parks (.waitr st q) (.waitr (e.outOps q)))

/-- R178, R287: an XSEND and an XRECV that find no peer's request wait for one, the sender parked and the receiver with its destination pending; one that finds the peer's
earliest request pairs with it: the receiver's register takes the sent values of the threads both have, and the sender goes on. A peer that cannot be traps XMOV; under DET a second
request to a peer on a channel traps DETERM. R178 has the requests of a group that exits trap; that one made to a peer that has already exited traps XMOV
at issue is the model's reading (log entry 31). -/
def Obligations.Exchanges : Prop :=
  ∀ (st : BitVec 3) (g a c d : BitVec 7) (s : State) (e : Env), s.env = some e → e.pi < e.g.paths.length →
    let twice := e.b.xreqs.any fun x => x.gk == e.gk && x.peer == g.toNat && x.ch == c.toNat
    let fresh := e.b.det = false ∨ twice = false
    let peers := g.toNat < e.b.gpb ∧ g.toNat ≠ e.g.gix
    let alive := (s.groupsOf e.g.blk).any fun x => x.2.gix == g.toNat && x.2.alive != 0
    let send : Instr := .xsend st g a c
    let recv : Instr := .xrecv st d g c
    let vals := (threadsOf e.p.mask).map fun t => (t, e.vec a t)
    (e.issueTrap send = none → ¬peers → exec send s = .next (e.trapAll ⟨0x18, 0⟩))
    ∧ (e.issueTrap recv = none → ¬peers → exec recv s = .next (e.trapAll ⟨0x18, 0⟩))
    ∧ (peers → e.b.det = true → twice = true → (e.issueTrap send = none → exec send s = .next (e.trapAll ⟨0x12, 0⟩))
        ∧ (e.issueTrap recv = none → exec recv s = .next (e.trapAll ⟨0x12, 0⟩)))
    ∧ (e.Clear send → peers → e.b.xpeer true e.g.gix g.toNat c.toNat = none → alive = false → fresh → exec send s = .next (e.trapAll ⟨0x18, 0⟩))
    ∧ (e.Clear recv → peers → e.b.xpeer false e.g.gix g.toNat c.toNat = none → alive = false → fresh → exec recv s = .next (e.trapAll ⟨0x18, 0⟩))
    ∧ (e.Clear send → peers → fresh → e.b.xpeer true e.g.gix g.toNat c.toNat = none → alive = true →
        ∃ t g' b', exec send s = .next t ∧ t.grp e.gk = some g' ∧ g'.SameRegs (e.seeChorus send e.g) ∧ t.mem = s.mem ∧ t.blk e.g.blk = some b'
          ∧ g'.path e.pi = { e.advance send e.p.pc e.p with st := .parked, wait := .xsend s.seq, resume := e.p.pc + 4 }
          ∧ b'.xreqs = e.b.xreqs ++ [⟨s.seq, e.gk, true, e.g.gix, g.toNat, c.toNat, e.p.mask, vals, 0, s.depsOf e.gk e.p.mask⟩])
    ∧ (e.Clear recv → peers → fresh → e.b.xpeer false e.g.gix g.toNat c.toNat = none → alive = true →
        ∃ t g' b', exec recv s = .next t ∧ t.grp e.gk = some g' ∧ g'.SameRegs (e.seeChorus recv e.g) ∧ t.mem = s.mem ∧ t.blk e.g.blk = some b' ∧ e.onward recv g'
          ∧ g'.pend = e.g.pend ++ [⟨.v (e.g.num d), e.p.mask, s.seq, .other⟩]
          ∧ b'.xreqs = e.b.xreqs ++ [⟨s.seq, e.gk, false, e.g.gix, g.toNat, c.toNat, e.p.mask, [], e.g.num d, []⟩])
    ∧ (∀ y, e.Clear send → peers → fresh → e.b.xpeer true e.g.gix g.toNat c.toNat = some y →
        ∃ t, exec send s = .next t ∧ t.mem = s.mem ∧ t.results = s.results ++ [{ id := y.id, gk := y.gk, cls := .other, mask := y.mask, vw := (vals.filter fun w => (e.p.mask &&& y.mask).getLsbD w.1).map fun w => (128 * y.dest + w.1, w.2), sw := [], flags := 0 }])
    ∧ (∀ x, e.Clear recv → peers → fresh → e.b.xpeer false e.g.gix g.toNat c.toNat = some x → x.gk ≠ e.gk →
        ∃ t g', exec recv s = .next t ∧ t.mem = s.mem ∧ t.grp e.gk = some g' ∧ e.onward recv g'
          ∧ g'.pend = e.g.pend ++ [⟨.v (e.g.num d), e.p.mask, s.seq, .other⟩]
          ∧ t.results = s.results ++ [{ id := s.seq, gk := e.gk, cls := .other, mask := e.p.mask, vw := (x.vals.filter fun w => (x.mask &&& e.p.mask).getLsbD w.1).map fun w => (128 * e.g.num d + w.1, w.2), sw := [], flags := 0 }])

/-! ### Lookups, film, trees, rays, the matrix engine and the networks -/

/-- R145, R146, R218, R219, R288, R32: a TEX or WTEX of threads whose operands are not poisoned and none of whose texel reads faults completes with the lookups of its threads
still to be made and its destinations pending, IV raised where a coordinate or wavelength gives a NaN; a thread with a poisoned operand, or whose descriptor or
sampler is not one for the instruction, traps. WLUT delivers the table's value at each slot, WCMF its four sums with the slots above zero, all after a time that
is not fixed.

R140: a spectral table below its first bin gives 0, or the first value where the table extends its edges, likewise above the last (a NaN there as the canonical one,
log entry 51); a NaN wavelength gives the quiet
NaN and raises IV. -/
def Obligations.LookupInstructions : Prop :=
  (∀ (st : BitVec 3) (d a b : BitVec 7) (desc samp : BitVec 8) (s : State) (e : Env), s.env = some e → e.pi < e.g.paths.length → e.p.mask ≠ 0 →
    let quiet := fun (fl : Nat → Flags) => ∀ t ∈ threadsOf e.p.mask, fl t &&& e.g.enables = 0
    let packet := fun (ws : Nat → Nat → RegVal) (t : Nat) => (List.range 8).map fun j => (8 * e.g.num d + j, ws t j)
    let orFl := fun (fl : Nat → Flags) => (List.range 8).foldl (fun f j => f ||| fl j) 0
    let looks := fun (i : Instr) (n dest : Nat) (k : Nat → Look) =>
      let fl := fun t => if (k t).invalid then fIV else 0
      e.Clear i → (∀ t ∈ threadsOf e.p.mask, ∀ r ∈ (k t).reads, ∃ ps, s.resolve (e.g.agent e.b) .read r.1 r.2 = .ok ps) → quiet fl →
      e.Sends i .engine ((threadsOf e.p.mask).map k) (fun _ => (List.range n).map fun j => (dest + j, RegVal.zero)) fl
    let co := fun (n t : Nat) => (List.range n).map fun j => (e.v (e.g.num a + j) t).val.toNat
    (∀ (x : Tex) (p : Nat), s.texOf e.b.ctx desc.toNat samp.toNat [1] = some (x, p) → (∀ t ∈ threadsOf e.p.mask, ∀ j, j < 4 → (e.v (e.g.num a + j) t).poison = false) →
      looks (.tex st d a desc samp) 4 (e.g.num d) fun t => ⟨t, x.e, x.linear, texLevel x p ((co 4 t).getD 3 0), co 4 t, [], e.g.num d⟩)
    ∧ (∀ (x : Tex) (p : Nat), s.texOf e.b.ctx desc.toNat samp.toNat [2, 3, 4] = some (x, p) → (∀ t ∈ threadsOf e.p.mask, ∀ j, j < 3 → (e.v (e.g.num a + j) t).poison = false) →
      (∀ t ∈ threadsOf e.p.mask, ∀ j, j < 8 → (e.span b 8 j t).poison = false) →
      looks (.wtex st d a b desc samp) 8 (8 * e.g.num d) fun t =>
        ⟨t, x.e, x.linear, 0, co 3 t, (List.range 8).map fun j => (e.span b 8 j t).val.toNat, 8 * e.g.num d⟩)
    ∧ AllTrap (.tex st d a desc samp) ⟨0x0B, 0⟩ (fun e t => ∃ j, j < 4 ∧ (e.v (e.g.num a + j) t).poison = true)
    ∧ AllTrap (.tex st d a desc samp) ⟨0x07, 0⟩ (fun e t => (∀ j, j < 4 → (e.v (e.g.num a + j) t).poison = false) ∧ e.s.texOf e.b.ctx desc.toNat samp.toNat [1] = none)
    ∧ (∀ (x : Nat → SpecTab),
      let y := fun t j => (x t).at (e.span a 8 j t).val.toNat
      let fl := fun t => orFl fun j => (y t j).2.1
      e.Clear (.wlut st d a b) → (∀ t ∈ threadsOf e.p.mask, (e.vec b t).poison = false ∧ s.specTable e.b.ctx (e.vec b t).val.toNat = some (x t, false)
        ∧ ∀ js, s.binPoison e.b.ctx (e.vec b t).val.toNat js = false) → quiet fl →
      e.Sends (.wlut st d a b) .other [] (packet fun t j => ⟨BitVec.ofNat 32 (y t j).1, (e.span a 8 j t).poison⟩) fl)
    ∧ (∀ (x : Nat → SpecTab),
      let n := (SMap.get 0 e.g.x 3).toNat
      let r := fun t c j => (x c).at (e.span b 8 j t).val.toNat
      let sum := fun t c => sumRound .fp32 (arithMode e.g) ((List.range 8).map fun j => ⟨false, [f32 (e.span a 8 j t).val.toNat, f32 (r t c j).1]⟩)
      let slotFl := fun t c => if 4 ≤ c then 0 else (sum t c).2 ||| (List.range 8).foldl (fun f j => f ||| (r t c j).2.1) 0
      let fl := fun t => orFl (slotFl t)
      let z := fun t => (List.range 8).any fun j => (e.span a 8 j t).poison || (e.span b 8 j t).poison
      e.Clear (.wcmf st d a b) → (∀ c, c < 4 → s.specTable e.b.ctx (n + c) = some (x c, false) ∧ ∀ js, s.binPoison e.b.ctx (n + c) js = false) → quiet fl →
      e.Sends (.wcmf st d a b) .other [] (packet fun t c => if 4 ≤ c then ⟨0, false⟩ else ⟨BitVec.ofNat 32 (sum t c).1, z t⟩) fl))
  ∧ (∀ (x : SpecTab) (lam : Nat) (q : Rat), 2 ≤ x.vals.length →
    (Fmt.fp32.value lam = .num q ∨ ∃ neg, Fmt.fp32.value lam = .zero neg ∧ q = 0) →
    let u := (q - q32 x.l0) / q32 x.dl
    (u < 0 → (x.at lam).1 = if x.edge = 1 then (plainValue (x.vals.getD 0 0)).1 else 0)
    ∧ (((x.vals.length - 1 : Nat) : Rat) < u → (x.at lam).1 = if x.edge = 1 then (plainValue (x.vals.getD (x.vals.length - 1) 0)).1 else 0)
    ∧ (∀ v, (∀ sn, Fmt.fp32.value v ≠ .nan sn) → plainValue v = (v, 0)) ∧ (∀ v sn, Fmt.fp32.value v = .nan sn → (plainValue v).1 = 0x7FC00000)
    ∧ ∀ nan sn, Fmt.fp32.value nan = .nan sn → (x.at nan).1 = 0x7FC00000 ∧ (x.at nan).2.1 = fIV)

/-- R220, R221, R223, R224, R225, R226: FILMADD makes one record for each active thread, with its key, pixel, values and weight, in the block's outbox, and advances the
threads' film sequences; the tree instructions make one request for each thread, or one for the group, with the results pending. -/
def Obligations.FilmAndTreeRequests : Prop :=
  ∀ (st : BitVec 3) (d a b t' x : BitVec 7) (film : BitVec 3) (nch : BitVec 2) (tree : BitVec 6) (strat keyed vchk : BitVec 1) (s : State) (e : Env) (tr : Tree),
    s.env = some e → e.pi < e.g.paths.length → e.p.mask ≠ 0 →
    let A := fun k t => e.v (e.g.num a + k) t
    let clean := fun (n t : Nat) => ∀ k, k < n → (A k t).poison = false
    let going := fun (i : Instr) (g0 : Grp) (t : State) (g' : Grp) => exec i s = .next t ∧ t.grp e.gk = some g' ∧ e.onward i g' ∧ g'.SameRegs g0 ∧ t.mem = s.mem
      ∧ t.blocks = s.blocks ∧ t.dev = s.dev
    let asks := fun (i : Instr) (kind dest n : Nat) (args : Nat → List Nat) => ∃ t g', going i (e.seeChorus i e.g) t g'
      ∧ g'.pend = e.g.pend ++ ((List.range n).map fun k => ⟨.v (dest + k), maskOf (threadsOf e.p.mask), s.seq, .engine⟩)
      ∧ t.treeReqs = s.treeReqs ++ (threadsOf e.p.mask).map fun u =>
          { id := s.seq, kind := kind, gk := e.gk, mask := e.p.mask, core := e.b.core, ctx := e.b.ctx, task := e.b.task, tree := tree.toNat, thread := u, key := packKey e.b.bid e.g.gix u (SMap.get 0 e.g.tseq u).toNat, args := args u, dest := dest }
    let once := fun (i : Instr) (kind n : Nat) (args : List Nat) => ∃ t g', going i e.g t g' ∧ g'.pend = e.g.pend ++ [⟨.s d.toNat, ~~~0, s.seq, .engine⟩]
      ∧ t.treeReqs = s.treeReqs ++ [{ id := s.seq, kind := kind, gk := e.gk, mask := e.p.mask, core := e.b.core, ctx := e.b.ctx, task := e.b.task, tree := n, thread := 127, key := 0, args := args, dest := d.toNat }]
    (let desc := s.filmDesc e.b.ctx film.toNat;
      e.Clear (.filmadd st a b film nch) → desc.getLsbD 128 = true → (filmBound desc = some e.b.task ∨ filmBound desc = none) → SMap.wf 0 e.g.fseq = true →
      (∀ t ∈ threadsOf e.p.mask, clean (nch.toNat + 1) t ∧ (e.v (e.g.num b) t).poison = false ∧ (e.v (e.g.num b + 1) t).poison = false
        ∧ (e.v (e.g.num b) t).val.toNat < (desc.extractLsb' 96 32).toNat) →
      ∃ t g', going (.filmadd st a b film nch) (e.seeChorus (.filmadd st a b film nch) e.g) t g' ∧ g'.pend = e.g.pend ∧ (∀ u ∈ threadsOf e.p.mask, SMap.get 0 g'.fseq u = SMap.get 0 e.g.fseq u + 1)
        ∧ t.films = s.films ++ (threadsOf e.p.mask).map fun u =>
            { ctx := e.b.ctx, film := film.toNat, task := e.b.task, bk := e.g.blk, bid := e.b.bid, gix := e.g.gix, thread := u, seq := (SMap.get 0 e.g.fseq u).toNat, pix := (e.v (e.g.num b) u).val.toNat, vals := (List.range (nch.toNat + 1)).map (fun k => (A k u).val.toNat), weight := (e.v (e.g.num b + 1) u).val.toNat, die := e.b.core / 144, place := 0 })
    ∧ (s.tree e.b.ctx tree.toNat = some tr → e.Clear (.tdraw st d a b tree strat keyed vchk) →
        (∀ t ∈ threadsOf e.p.mask, clean (if strat = 1 then 3 else 1) t ∧ (vchk = 1 → (e.vec b t).poison = false)
          ∧ (strat = 1 → (A 1 t).val.toNat < (A 2 t).val.toNat)) →
        asks (.tdraw st d a b tree strat keyed vchk) 0 (e.g.num d) 5 fun t => [strat.toNat, keyed.toNat, vchk.toNat, (A 0 t).val.toNat,
          if strat = 1 then (A 1 t).val.toNat else 0, if strat = 1 then (A 2 t).val.toNat else 1, (e.vec b t).val.toNat])
    ∧ (s.tree e.b.ctx tree.toNat = some tr → e.Clear (.tupd st a tree) → (∀ t ∈ threadsOf e.p.mask, clean 3 t ∧ (A 0 t).val.toNat < tr.leaves) →
        asks (.tupd st a tree) 1 0 0 fun t => [(A 0 t).val.toNat, (A 1 t).val.toNat, (A 2 t).val.toNat])
    ∧ (s.tree e.b.ctx tree.toNat = some tr → e.Clear (.tins st d a tree) → (∀ t ∈ threadsOf e.p.mask, clean 2 t ∧ (A 0 t).val.toNat < tr.leaves) →
        asks (.tins st d a tree) 2 (e.g.num d) 1 fun t => [(A 0 t).val.toNat, (A 1 t).val.toNat])
    ∧ (s.tree e.b.ctx tree.toNat = none → e.Clear (.tupd st a tree) → (∀ t ∈ threadsOf e.p.mask, clean 3 t) →
        exec (.tupd st a tree) s = .next (({ s.setGrp e.gk (e.seeChorusBut (.tupd st a tree) e.p.mask e.p.mask e.g) with seq := s.seq + 1 }).trapEntry e.gk e.pi ⟨0x11, 0⟩ e.p.mask noVa))
    ∧ (s.tree e.b.ctx t'.toNat = some tr → e.issueTrap (.tcommit st d t') = none → once (.tcommit st d t') 3 t'.toNat [])
    ∧ (e.b.det = true → e.issueTrap (.tver st d t' 5) = none → exec (.tver st d t' 5) s = .next (e.trapAll ⟨0x12, 0⟩))
    ∧ (s.tree e.b.ctx t'.toNat = some tr → (e.b.det = false ∨ x ≠ 5) → e.issueTrap (.tver st d t' x) = none →
        once (.tver st d t' x) 4 t'.toNat [x.toNat])

/-- R210, R211, R213, R214, R216, R217: TRACE starts a traversal for each thread at its root with its ray, or a POP of an empty stack one that reports EMPTY, the six
result registers pending; HITC decides the candidate of each waiting thread; HITA asks for an attribute; SPAWN pushes a ray on each thread's stack
while there is room, counts it as dropped where there is none, and tells which through its predicate. A TRACE of a thread whose report is still due abandons
that traversal; a HITA of one is answered when the report is made, but for DROP and DEPTH, which its issue settles. -/
def Obligations.RayInstructions : Prop :=
  ∀ (st : BitVec 3) (d a b : BitVec 7) (k : BitVec 1) (p : BitVec 3) (flags : BitVec 7) (mask : BitVec 8) (sel : BitVec 4) (s : State) (e : Env),
    s.env = some e → e.pi < e.g.paths.length → e.p.mask ≠ 0 →
    let ts := threadsOf e.p.mask
    let idle := ∀ t ∈ ts, ∀ x, SMap.find? e.g.travs t = some x → x.due = false
    let A := fun t j => e.v (e.g.num a + j) t
    let going := fun (i : Instr) (g0 : Grp) (t : State) (g' : Grp) => exec i s = .next t ∧ t.grp e.gk = some g' ∧ e.onward i g' ∧ g'.SameRegs g0 ∧ t.mem = s.mem
      ∧ t.blocks = s.blocks ∧ t.dev = s.dev
    let marked := fun (g' : Grp) (m : Mask) (rs : List Nat) => g'.pend = e.g.pend ++ rs.map fun n => ⟨.v n, m, s.seq, .engine⟩
    (e.Clear (.trace st d a b 0 flags mask) → idle →
      (∀ t ∈ ts, (∀ j, j < 9 → (A t j).poison = false) ∧ (e.pair b t).2 = false ∧ (e.pair b t).1.toNat % 128 = 0) →
      ∃ t g', going (.trace st d a b 0 flags mask) (e.seeChorus (.trace st d a b 0 flags mask) e.g) t g' ∧ marked g' (maskOf ts) ((List.range 6).map (e.g.num d + ·))
        ∧ ∀ u ∈ ts, SMap.find? g'.travs u = some (Trav.start (e.pair b u).1.toNat mask.toNat flags.toNat s.seq (e.g.num d)
            ((List.range 9).map fun j => (A u j).val.toNat) (match SMap.find? e.g.travs u with | some x => x.weight | none => [])))
    ∧ (e.Clear (.trace st d a b 1 flags mask) → idle → (∀ t ∈ ts, (e.pair b t).2 = false ∧ (e.pair b t).1.toNat % 128 = 0) →
      (∀ t ∈ ts, SMap.get [] e.b.stackKinds (96 * e.g.gix + t) = []) →
      ∃ t g', going (.trace st d a b 1 flags mask) (e.seeChorus (.trace st d a b 1 flags mask) e.g) t g' ∧ marked g' (maskOf ts) ((List.range 6).map (e.g.num d + ·) ++ (List.range 9).map (e.g.num a + ·))
        ∧ ∀ u ∈ ts, ∃ x, SMap.find? g'.travs u = some x ∧ x.empty = true ∧ x.todo = [] ∧ x.due = true ∧ x.op = s.seq)
    ∧ (e.Clear (.trace st d a b 0 flags mask) → (∀ t ∈ ts, (∀ j, j < 9 → (A t j).poison = false) ∧ (e.pair b t).2 = false ∧ (e.pair b t).1.toNat % 128 = 0) →
      ∃ t g', exec (.trace st d a b 0 flags mask) s = .next t ∧ t.grp e.gk = some g' ∧ e.onward (.trace st d a b 0 flags mask) g' ∧ t.mem = s.mem ∧ t.blocks = s.blocks
        ∧ ∀ u ∈ ts, SMap.find? g'.travs u = some (Trav.start (e.pair b u).1.toNat mask.toNat flags.toNat s.seq (e.g.num d)
            ((List.range 9).map fun j => (A u j).val.toNat) (match SMap.find? e.g.travs u with | some x => x.weight | none => [])))
    ∧ (e.Clear (.hitc st d a sel) → (∀ t ∈ ts, (e.vec a t).poison = false) →
      let waiting := fun t => ∃ x, SMap.find? e.g.travs t = some x ∧ x.due = false ∧ x.cand ≠ none
      ∃ t g', going (.hitc st d a sel) (e.seeChorus (.hitc st d a sel) e.g) t g'
        ∧ (∀ u ∈ ts, ∀ x, SMap.find? e.g.travs u = some x → x.due = false → x.cand ≠ none →
            SMap.find? g'.travs u = some { x.decide sel.toNat (e.vec a u).val.toNat with due := true, op := s.seq, dest := e.g.num d })
        ∧ (∀ u, ¬(u ∈ ts ∧ waiting u) → SMap.find? g'.travs u = SMap.find? e.g.travs u)
        ∧ ((∃ u ∈ ts, waiting u) → ∃ m, marked g' m ((List.range 6).map (e.g.num d + ·)) ∧ ∀ u ∈ ts, m.getLsbD u = true ↔ waiting u)
        ∧ ((∀ u ∈ ts, ¬waiting u) → g'.pend = e.g.pend))
    ∧ (e.issueTrap (.hita st d sel) = none →
      let due := fun u => match SMap.find? e.g.travs u with | some x => x.due | none => false
      let depth := fun u => BitVec.ofNat 32 (SMap.get [] e.b.stackKinds (96 * e.g.gix + u)).length
      let drops := fun u => BitVec.ofNat 32 (SMap.get 0 e.b.dropped (96 * e.g.gix + u))
      let n := match sel.toNat with | 0 => 6 | 1 => 2 | 3 => 8 | _ => 1
      let dest := if sel = 3 then 8 * e.g.num d else e.g.num d
      ∃ t g' rs, going (.hita st d sel) (e.seeChorus (.hita st d sel) e.g) t g' ∧ marked g' e.p.mask ((List.range n).map (dest + ·)) ∧ t.results = s.results ++ rs
        ∧ rs.length = (ts.filter fun u => !due u).length
        ∧ (∀ r ∈ rs, r.id = s.seq ∧ r.gk = e.gk ∧ r.sw = [] ∧ r.flags = 0)
        ∧ (sel = 5 → ∀ u ∈ ts, due u = false → ∃ r ∈ rs, r.vw = [(128 * dest + u, ⟨depth u, false⟩)])
        ∧ (sel = 4 → ∀ u ∈ ts, due u = false → ∃ r ∈ rs, r.vw = [(128 * dest + u, ⟨drops u, false⟩)])
        ∧ ∀ u ∈ ts, ∀ x, SMap.find? e.g.travs u = some x → x.due = true → ∃ known, SMap.find? g'.travs u = some { x with hita := x.hita ++ [(s.seq, sel.toNat, dest, known)] }
            ∧ (sel.toNat < 3 → known = []) ∧ (sel = 5 → known = [(depth u, false)]) ∧ (sel = 4 → known = [(drops u, false)]))
    ∧ (e.p.wait = .none → e.Clear (.spawn st k p a b sel) →
      (∀ t ∈ ts, (∀ j, j < 9 → (A t j).poison = false) ∧ ∀ j, j < 8 → (e.span b 8 j t).poison = false) →
      let kinds := fun t => SMap.get [] e.b.stackKinds (96 * e.g.gix + t)
      let room := fun t => (kinds t).length < min e.b.spawn 4
      let home := fun t => e.b.spawnBase + ((96 * e.g.gix + t) * e.b.spawn + (kinds t).length) * 64
      ∃ t g' b', exec (.spawn st k p a b sel) s = .next t ∧ t.grp e.gk = some g' ∧ e.onward (.spawn st k p a b sel) g'
        ∧ g'.SameRegs (e.seeChorus (.spawn st k p a b sel) e.g) ∧ g'.pend = e.g.pend ∧ t.blk e.g.blk = some b'
        ∧ g'.fixed = e.g.fixed ++ [e.laneFix 3 (fun _ => []) (fun t => if k = 1 then [] else [(p.toNat, decide (room t))]) (fun _ => 0)]
        ∧ (∀ u ∈ ts, room u → SMap.get [] b'.stackKinds (96 * e.g.gix + u) = kinds u ++ [sel.toNat])
        ∧ (∀ u ∈ ts, ¬room u → SMap.get [] b'.stackKinds (96 * e.g.gix + u) = kinds u
            ∧ SMap.get 0 b'.dropped (96 * e.g.gix + u) = min (SMap.get 0 e.b.dropped (96 * e.g.gix + u) + 1) 65535)
        ∧ ∀ x, (∀ u ∈ ts, room u → x < home u ∨ home u + 64 ≤ x) → t.mem.byte x = s.mem.byte x)

/-- R34, R187, R188, R189, R194, R195: LEASE grants a free lease and tells so through its predicate, the tiles of the last holder going to its frame, or claims one that is
held; LREL puts the holder's lease into DRAIN; OPRDY is a release, which adds a token where fewer than four stand once the path's earlier accesses are performed; MSYNC goes on, with the
flags it delivers or a trap, where no command of its block is out for the bank, and parks on those that are. A command that needs the
lease without it traps LEASE_NONE.

R186, R190, R191, R192, R193, R195, R196, R197, R199: a command of the matrix engine whose checks pass is accepted behind those before it with its operands captured, and
the path goes on; MRD and MMAQ have their destinations pending. -/
def Obligations.LeasesAndMatrixCommands : Prop :=
  (∀ (st : BitVec 3) (k : BitVec 1) (p : BitVec 3) (a d b : BitVec 7) (bank : BitVec 1) (tile : BitVec 4) (col : BitVec 6) (row : BitVec 5) (s : State) (e : Env),
    s.env = some e → e.pi < e.g.paths.length →
    let m := s.mx e.b.core
    let x := (e.uni a).val.toNat
    let going := fun (i : Instr) (t : State) (g' : Grp) => exec i s = .next t ∧ t.grp e.gk = some g' ∧ e.onward i g' ∧ g'.SameRegs e.g ∧ g'.pend = e.g.pend ∧ t.mem = s.mem
      ∧ t.dev = s.dev
    let tells := fun (g' : Grp) (y : Bool) => g'.fixed = e.g.fixed ++ [{ ready := s.clock + 2, mask := e.p.mask, vw := [], sw := [], pw := [], xw := [], flags := 0, spec := none, qw := if k = 1 then [] else [(p.toNat, y)] }]
    (e.issueTrap (.lease st k p a) = none → e.b.lease = 0 → exec (.lease st k p a) s = .next (e.trapAll ⟨0x14, 0⟩))
    ∧ (e.issueTrap (.lease st k p a) = none → e.b.lease ≠ 0 → (e.uni a).poison = true → exec (.lease st k p a) s = .next (e.trapAll ⟨0x0B, 0⟩))
    ∧ (∀ q qb ps, e.issueTrap (.lease st k p a) = none → e.b.lease ≠ 0 → (e.uni a).poison = false → m.holder = none → m.claim = none → e.b.tiles = none →
        m.prev = some q → q ≠ e.g.blk → s.blk q = some qb → s.frameParts (qb.saver q) .write (s.frameVA qb 0x110000) 0x50000 = some ps →
        ∃ t g' qb', exec (.lease st k p a) s = .next t ∧ t.grp e.gk = some g' ∧ e.onward (.lease st k p a) g' ∧ g'.SameRegs e.g ∧ tells g' true
          ∧ (t.mx e.b.core).holder = some e.g.blk ∧ (t.mx e.b.core).prev = some e.g.blk ∧ (t.mx e.b.core).bank0 = Bank.clear ∧ (t.mx e.b.core).bank1 = Bank.clear
          ∧ t.blk q = some qb' ∧ qb'.tiles = some (m.bank0, m.bank1)
          ∧ ∀ x, (∀ y ∈ ps, x < y.home ∨ y.home + y.len ≤ x) → t.mem.byte x = s.mem.byte x)
    ∧ (e.issueTrap (.lease st k p a) = none → e.b.lease ≠ 0 → (e.uni a).poison = false → m.holder = none → m.claim = none →
        (m.prev = some e.g.blk ∨ (m.prev = none ∧ e.b.tiles = none)) →
        ∃ t g' , going (.lease st k p a) t g' ∧ tells g' true ∧ (t.mx e.b.core).holder = some e.g.blk ∧ (t.mx e.b.core).drain = false
          ∧ (t.mx e.b.core).budget = min (min (if x = 0 then e.b.lease else x) e.b.lease) (2 ^ 24 - 1))
    ∧ (∀ h, e.issueTrap (.lease st k p a) = none → e.b.lease ≠ 0 → (e.uni a).poison = false → m.holder = some h → h ≠ e.g.blk → m.claim = none →
        ∃ t g', going (.lease st k p a) t g' ∧ tells g' false ∧ t.mx e.b.core = { m with claim := some e.g.blk } ∧ t.blocks = s.blocks)
    ∧ (e.issueTrap (.lrel st) = none → m.holder = some e.g.blk →
        ∃ t g', going (.lrel st) t g' ∧ g'.fixed = e.g.fixed ∧ t.mx e.b.core = { m with drain := true } ∧ t.blocks = s.blocks)
    ∧ (e.issueTrap (.oprdy st bank) = none → m.holder = some e.g.blk →
        ∃ t g', going (.oprdy st bank) t g' ∧ g'.fixed = e.g.fixed ∧ t.cores = s.cores
          ∧ t.acts = s.acts ++ [⟨s.seq, e.gk, e.p.mask, e.g.blk, e.b.core, .oprdy e.g.blk bank.toNat⟩])
    ∧ (∀ id gk w core bk, s.acts = [⟨id, gk, w, bk, core, .oprdy bk bank.toNat⟩] → (s.unsettled gk w id = true → s.actNow = none)
        ∧ (∀ ob, s.unsettled gk w id = false → s.blk bk = some ob → ob.core = core → (s.mx core).prev = some bk → ((s.mx core).bank bank.toNat).tokens < 4 → ∃ t, s.actNow = some t ∧ t.acts = [] ∧ t.mem = s.mem ∧ t.groups = s.groups
            ∧ ((t.mx core).bank bank.toNat).tokens = ((s.mx core).bank bank.toNat).tokens + 1
            ∧ ((t.mx core).bank bank.toNat).rows = ((s.mx core).bank bank.toNat).rows ∧ (t.mx core).bank (1 - bank.toNat) = (s.mx core).bank (1 - bank.toNat)))
    ∧ (e.issueTrap (.oprdy st bank) = none → m.holder ≠ some e.g.blk → exec (.oprdy st bank) s = .next (e.trapAll ⟨0x10, 0⟩))
    ∧ (e.issueTrap (.msync st bank) = none → m.synced e.g.blk bank.toNat s.seq = true → e.b.mdones = [] →
        ∃ t g', going (.msync st bank) t g' ∧ t.cores = s.cores)
    ∧ (∀ s1, e.issueTrap (.msync st bank) = none → m.synced e.g.blk bank.toNat s.seq = true →
        (s.syncDone e.gk bank.toNat s.seq = (none, s1) → exec (.msync st bank) s = .next (e.goesOnIn (.msync st bank) (e.nextPc (.msync st bank)) s1))
        ∧ ∀ tr, s.syncDone e.gk bank.toNat s.seq = (some tr, s1) → exec (.msync st bank) s = .next (s1.trapEntry e.gk e.pi tr e.p.mask noVa))
    ∧ (e.issueTrap (.msync st bank) = none → m.synced e.g.blk bank.toNat s.seq = false → exec (.msync st bank) s = .next (s.setGrp e.gk (Path.set e.g e.pi
        { e.advance (.msync st bank) e.p.pc e.p with st := .parked, wait := .msync bank.toNat s.seq, resume := e.nextPc (.msync st bank) })))
    ∧ (e.issueTrap (.mrd st d b tile col row) = none → m.holder ≠ some e.g.blk → exec (.mrd st d b tile col row) s = .next (e.trapAll ⟨0x10, 0⟩))
    ∧ (e.issueTrap (.mwr st d b tile col row) = none → m.holder ≠ some e.g.blk → exec (.mwr st d b tile col row) s = .next (e.trapAll ⟨0x10, 0⟩)))
  ∧ (∀ (st : BitVec 3) (n d a b : BitVec 7) (rdy clr bank : BitVec 1) (slot tile : BitVec 4) (col km : BitVec 6) (nm : BitVec 4) (row win : BitVec 5) (s : State) (e : Env)
    (f r : Nat), s.env = some e → e.pi < e.g.paths.length → e.p.mask ≠ 0 →
    let m := s.mx e.b.core
    let W := fun k => (e.sreg (a.toNat + k)).val
    let wide := fun k => (W k).toNat + 2 ^ 32 * (W (k + 1)).toNat
    let clean := fun k => ∀ j, j < k → (e.sreg (a.toNat + j)).poison = false
    let fmt := BitVec.ofNat 128 f
    let layout := BitVec.ofNat 256 r
    let ha := halfA fmt
    let hb := halfB fmt
    let takes := fun (i : Instr) (g0 : Grp) (c : MCmd) => ∃ t g', exec i s = .next t ∧ t.grp e.gk = some g' ∧ e.onward i g' ∧ g'.SameRegs g0 ∧ t.mem = s.mem
      ∧ t.blocks = s.blocks ∧ t.dev = s.dev ∧ (t.mx e.b.core).cmds = m.cmds ++ [c] ∧ (t.mx e.b.core).slots = m.slots ∧ (t.mx e.b.core).bank0 = m.bank0
      ∧ (t.mx e.b.core).bank1 = m.bank1 ∧ (t.mx e.b.core).holder = m.holder
      ∧ g'.pend = e.g.pend ++ match c.kind with
          | .mrd => [⟨.v (2 * e.g.num d), e.p.mask, s.seq, .other⟩, ⟨.v (2 * e.g.num d + 1), e.p.mask, s.seq, .other⟩] | _ => []
    (let ctl := W 6;
      let K := (ctl.extractLsb' 0 12).toNat + 1
      let N := (ctl.extractLsb' 12 10).toNat + 1
      let v := modeOf ha hb
      e.issueTrap (.bld st n a) = none → clean 8 → e.readRecord (wide 2) 16 = .ok f → e.readRecord (wide 4) 32 = .ok r →
      ha.legal false = true → hb.legal true = true → v ≠ 0 → ctl.extractLsb' 22 10 = 0 → K ≤ 2048 → N ≤ modeCols v → (hb.sparse = 0 ∨ K % 128 = 0) →
      let KS := if hb.sparse = 0 then K else K * hb.sparse / 128
      (KS + modeV v - 1) / modeV v ≤ 512 → N * modeC v ≤ 512 → (genElems (wide 0) layout hb.elem.bits (KS * N)).isSome = true →
      takes (.bld st n a) e.g { e.command .bld with slot := n.toNat, bank := 2, base := wide 0, fmt := fmt, layout := layout, ctl := ctl, aux := [(W 7).toNat] })
    ∧ (∀ x, m.seen e.g.blk slot.toNat = some x →
      let ctl := W 6
      e.issueTrap (.mmas st rdy clr bank slot a) = none → clean 7 → m.holder = some e.g.blk → m.drain = false →
      e.readRecord (wide 2) 16 = .ok f → e.readRecord (wide 4) 32 = .ok r → ha.legal false = true → hb.legal true = true → modeOf ha (halfB x.fmt) ≠ 0 →
      ctl.extractLsb' 5 27 = 0 → (genElems (wide 0) layout ha.elem.bits (((ctl.extractLsb' 0 5).toNat + 1) * x.k)).isSome = true →
      takes (.mmas st rdy clr bank slot a) e.g { e.command .mmas with slot := slot.toNat, bank := bank.toNat, clr := clr == 1, rdy := rdy == 1, base := wide 0, fmt := fmt, layout := layout, ctl := ctl })
    ∧ (∀ g : Fmt, let ctl := W 4;
      let rm := (ctl.extractLsb' 4 3).toNat
      emitFmt (ctl.extractLsb' 0 4).toNat = some g → e.issueTrap (.memit st n a) = none → clean 5 → m.holder = some e.g.blk →
      e.readRecord (wide 2) 32 = .ok r → ctl.extractLsb' 23 9 = 0 → rm ≠ 7 →
      (genElems (wide 0) layout g.bits (((ctl.extractLsb' 7 5).toNat + 1) * ((ctl.extractLsb' 13 10).toNat + 1))).isSome = true →
      takes (.memit st n a) e.g { e.command .memit with bank := n.toNat, clr := ctl.getLsbD 12, base := wide 0, layout := layout, ctl := ctl, aux := [if rm = 6 then (e.g.rmode.extractLsb' 0 3).toNat else rm, e.g.srSeq 127, e.b.task * 2 ^ 16 + (e.g.rmode.extractLsb' 16 16).toNat, e.b.bid, e.g.gix] })
    ∧ (e.issueTrap (.mrd st d b tile col row) = none → m.holder = some e.g.blk →
      takes (.mrd st d b tile col row) e.g { e.command .mrd with bank := tile.toNat / 8, alt := b == 1, aux := [tile.toNat, col.toNat, row.toNat, 2 * e.g.num d], data := (threadsOf e.p.mask).map fun t => (t, 0, false) })
    ∧ (e.Clear (.mwr st d b tile col row) → m.holder = some e.g.blk →
      takes (.mwr st d b tile col row) (e.seeChorus (.mwr st d b tile col row) e.g) { e.command .mwr with bank := tile.toNat / 8, alt := b == 1, aux := [tile.toNat, col.toNat, row.toNat], data := (threadsOf e.p.mask).map fun t => (t, (e.pair d t).1, (e.pair d t).2) })
    ∧ (∀ x, m.seen e.g.blk slot.toNat = some x → e.Clear (.mmaq st d a b slot km nm win) → x.st ≠ 3 → x.mode ≠ 8 → (halfB x.fmt).spn = 0 → km.toNat + 1 ≤ x.k →
      16 * win.toNat + nm.toNat + 1 ≤ x.n →
      ∃ t g' cs, exec (.mmaq st d a b slot km nm win) s = .next t ∧ t.grp e.gk = some g' ∧ e.onward (.mmaq st d a b slot km nm win) g'
        ∧ g'.SameRegs (e.seeChorus (.mmaq st d a b slot km nm win) e.g) ∧ t.mem = s.mem ∧ t.blocks = s.blocks
        ∧ (t.mx e.b.core).cmds = m.cmds ++ cs ∧ (∀ c ∈ cs, c.kind = .mmaq ∧ c.slot = slot.toNat ∧ c.alt = (b == 1))
        ∧ (∀ u, (u ∈ (cs.flatMap (·.qrows)).map (·.thread)) ↔ u ∈ threadsOf e.p.mask)
        ∧ (∃ ms, g'.pend = e.g.pend ++ ms ∧ (∀ u ∈ threadsOf e.p.mask, ∀ j, j < nm.toNat + 1 → ∃ q ∈ ms, q.reg = .v (e.g.num d + j) ∧ q.mask.getLsbD u = true)
            ∧ ∀ q ∈ ms, (∃ j, j < nm.toNat + 1 ∧ q.reg = .v (e.g.num d + j)) ∧ q.mask &&& ~~~e.p.mask = 0)
        ∧ ∀ q ∈ cs.flatMap (·.qrows), q.elems.length = km.toNat + 1
            ∧ q.acc = if b = 1 then (List.range (nm.toNat + 1)).map (fun j => e.v (e.g.num d + j) q.thread) else []))

/-- R202, R203, R307, R308: NEVAL of loaded networks with the shape it names puts a row for each active thread, with its inputs and key, into a tile of its handle, the outputs
pending; an invalid handle traps NEVAL_HANDLE. No line of memory holds an error not yet found (what a lookup that meets one does: StorageErrors). -/
def Obligations.NetworkEvaluations : Prop :=
  ∀ (st : BitVec 3) (d a b : BitVec 7) (nin nout : BitVec 6) (s : State) (e : Env), s.env = some e → e.pi < e.g.paths.length → e.p.mask ≠ 0 →
    let i : Instr := .neval st d a b nin nout
    let h := fun t => (e.vec b t).val.toNat
    e.Clear i → s.mem.latent = [] → (∀ t ∈ threadsOf e.p.mask, (e.vec b t).poison = false) →
    ((∀ t ∈ threadsOf e.p.mask, ∃ x c, (s.network (e.g.agent e.b) (h t)).1 = some (x, c) ∧ x.k 0 = nin.toNat + 1 ∧ x.outs = nout.toNat + 1) →
      ∃ t g', exec i s = .next t ∧ t.grp e.gk = some g' ∧ e.onward i g' ∧ g'.SameRegs (e.seeChorus i e.g) ∧ t.mem = s.mem ∧ t.blocks = s.blocks ∧ t.dev = s.dev
        ∧ g'.pend = e.g.pend ++ (List.range (nout.toNat + 1)).map (fun j => ⟨.v (e.g.num d + j), maskOf (threadsOf e.p.mask), s.seq, .engine⟩)
        ∧ ∀ u ∈ threadsOf e.p.mask, ∃ y ∈ (t.mx e.b.core).tiles, y.ctx = e.b.ctx ∧ y.handle = h u ∧
            { neval := s.seq, gk := e.gk, task := e.b.task, bid := e.b.bid, gix := e.g.gix, thread := u,
              xs := (List.range (nin.toNat + 1)).map (fun j => (e.v (e.g.num a + j) u).val.toNat),
              poison := (List.range (nin.toNat + 1)).any (fun j => (e.v (e.g.num a + j) u).poison), dest := e.g.num d, flags := 0 } ∈ y.rows)
    ∧ ((∀ t ∈ threadsOf e.p.mask, (s.network (e.g.agent e.b) (h t)).1 = none) → ∃ t : State, exec i s = .next (t.trapEntry e.gk e.pi ⟨0x0E, 0⟩ e.p.mask noVa)
        ∧ t.mem = s.mem ∧ t.cores = s.cores)

/-! ### Engine commands, tasks and the fabric -/

/-- R208, R209: EWAIT goes on where the counter has reached its threshold and nothing is to be delivered, and parks where it has not; ECNT delivers the counter, which it
clears in its second form.

R208, R227, R229, R231, R315, R329: a command of the copy, decompression, chain or table engine whose checks pass is accepted behind those before it, with its operands
captured and its counter, and the path goes on; a poisoned block traps POISON and a source that is not aligned MISALIGN. That a dynamic SR mode rounds a
reduction, or an FP32 output, to nearest is the model's choice (log entry 121). -/
def Obligations.CountersAndEngineCommands : Prop :=
  (∀ (st : BitVec 3) (d a c : BitVec 7) (s : State) (e : Env), s.env = some e → e.pi < e.g.paths.length →
    let n := (e.uni a).val.toNat
    let count := SMap.get 0 e.b.counters c.toNat
    let tells := fun (i : Instr) (b' : Blk) => ∃ t g', exec i s = .next t ∧ t.grp e.gk = some g' ∧ e.onward i g' ∧ g'.SameRegs e.g ∧ t.mem = s.mem ∧ t.dev = s.dev
      ∧ t.blk e.g.blk = some b' ∧ g'.pend = e.g.pend ++ [⟨.s d.toNat, ~~~0, s.seq, .other⟩]
      ∧ t.results = s.results ++ [{ id := s.seq, gk := e.gk, cls := .other, mask := ~~~0, vw := [], sw := [(d.toNat, ⟨count, false⟩)], flags := 0 }]
    (e.issueTrap (.ewait st c a) = none → (e.uni a).poison = true → exec (.ewait st c a) s = .next (e.trapAll ⟨0x0B, 0⟩))
    ∧ (e.issueTrap (.ewait st c a) = none → (e.uni a).poison = false → n ≤ count.toNat → e.b.dones = [] →
        ∃ t g', exec (.ewait st c a) s = .next t ∧ t.grp e.gk = some g' ∧ e.onward (.ewait st c a) g' ∧ g'.SameRegs e.g ∧ t.mem = s.mem ∧ t.blk e.g.blk = some e.b)
    ∧ (e.issueTrap (.ewait st c a) = none → (e.uni a).poison = false → count.toNat < n → exec (.ewait st c a) s = .next (s.setGrp e.gk (Path.set e.g e.pi
        { e.advance (.ewait st c a) e.p.pc e.p with st := .parked, wait := .ewait c.toNat n, resume := e.nextPc (.ewait st c a) })))
    ∧ (e.issueTrap (.ecnt st d c 0) = none → e.b.det = false → tells (.ecnt st d c 0) e.b)
    ∧ (e.issueTrap (.ecnt st d c 0) = none → e.b.det = true → exec (.ecnt st d c 0) s = .next (e.trapAll ⟨0x12, 0⟩))
    ∧ (e.issueTrap (.ecnt st d c 1) = none → tells (.ecnt st d c 1) { e.b with counters := SMap.set 0 e.b.counters c.toNat 0 }))
  ∧ (∀ (st : BitVec 3) (r t : BitVec 1) (k : BitVec 4) (a n c : BitVec 7) (s : State) (e : Env), s.env = some e → e.pi < e.g.paths.length →
    let W := fun j => (e.sreg (a.toNat + j)).val.toNat
    let wide := fun j => W j + 2 ^ 32 * W (j + 1)
    let clean := fun n => ∀ j, j < n → (e.sreg (a.toNat + j)).poison = false
    let takes := fun (i : Instr) (ok : EngCmd → Prop) => ∃ u g' x, exec i s = .next u ∧ u.grp e.gk = some g' ∧ e.onward i g' ∧ g'.SameRegs e.g ∧ g'.pend = e.g.pend
      ∧ u.mem = s.mem ∧ u.blocks = s.blocks ∧ u.dev = s.dev ∧ u.ecmds = s.ecmds ++ [x] ∧ x.id = s.seq ∧ x.gk = e.gk ∧ x.bk = e.g.blk ∧ x.mask = e.p.mask ∧ x.pieces = [] ∧ x.flags = 0 ∧ x.cause = 0 ∧ ok x
    let copies := fun (i : Instr) (multi : Bool) (kind : Nat) => ∀ (sf df : Fmt) (sl dl : Nat) (ss ds : List (Int × Nat)),
      let ctl := W 8
      let ms := if multi then (List.range 24).filter fun m => (W 9).testBit m else [24]
      let bar := if r = 1 then [(((wide 2 / 2 ^ 20 * 2 ^ 20 + ctl % 2 ^ 20 : Nat) : Int), 8)] else []
      e.issueTrap i = none → clean (if multi then 10 else 9) → (multi = true → W 9 < 2 ^ 24 ∧ e.b.clsz ≠ 0) → copyFmts ctl = some (sf, df) →
      e.readRecord (wide 4) 32 = .ok sl → e.readRecord (wide 6) 32 = .ok dl → layoutElems (wide 0) sl sf.bits = some ss → layoutElems (wide 2) dl df.bits = some ds →
      ss.length = ds.length → (isAperture (wide 2) = true ∨ (multi = false ∧ r = 0 ∧ t = 0)) →
      s.apertureOk e.g.blk ms (wide 2) ((ds.map fun d => (d.1, max 1 (df.bits / 8))) ++ bar) = true →
      takes i fun x => x.kind = kind ∧ x.counter = k.toNat ∧ x.args.take 5 = [wide 0, wide 2, sl, dl, ctl]
        ∧ x.left = ms.flatMap fun m => (List.range ((ss.length + pieceElems df.bits - 1) / pieceElems df.bits)).map fun p => (m, p)
    copies (.cpy st r t k a) false 4
    ∧ copies (.cpym st r t k a) true 5
    ∧ (∀ (dl : Nat) (ds : List (Int × Nat)),
      let bar := if r = 1 then [(((wide 2 / 2 ^ 20 * 2 ^ 20 + W 8 % 2 ^ 20 : Nat) : Int), 8)] else []
      e.issueTrap (.dec st r t k a) = none → clean 9 → W 8 < 2 ^ 20 → W 8 % 8 = 0 → W 5 < 64 → wide 0 % 16 = 0 → e.readRecord (wide 6) 32 = .ok dl →
      layoutElems (wide 2) dl 8 = some ds → isAperture (wide 2) = true → s.apertureOk e.g.blk [24] (wide 2) ((ds.map fun d => (d.1, 1)) ++ bar) = true →
      takes (.dec st r t k a) fun x => x.kind = 6 ∧ x.counter = k.toNat ∧ x.args = [wide 0, wide 2, dl, W 8, W 5, W 4, t.toNat, r.toNat, 0]
        ∧ x.left = (List.range ((ds.length + 4095) / 4096)).map fun j => (24, j))
    ∧ (e.issueTrap (.tblld st n a c) = none → clean 4 → W 3 ≠ 0 → W 3 ≤ 256 → W 2 + W 3 ≤ (tabKind (s.ctx e.b.ctx) n.toNat).2.1 →
      takes (.tblld st n a c) fun x => x.kind = 8 ∧ x.counter = c.toNat ∧ x.args = [n.toNat, wide 0, W 2, W 3, s.clock])
    ∧ (e.issueTrap (.tblld st n a c) = none → clean 4 → (W 3 = 0 ∨ 256 < W 3) → exec (.tblld st n a c) s = .next (e.trapAll ⟨0x07, 0⟩))
    ∧ (∀ (d : Nat) (ls : List Nat),
      let dyn := fun (m : Nat) => if m = 6 then (e.g.rmode.extractLsb' 0 3).toNat else m
      let c0 : Chain := { d := d, l := [], orm := 0, rrm := 0, srn := e.g.srSeq 127, key := e.b.task * 2 ^ 16 + (e.g.rmode.extractLsb' 16 16).toNat,
                          bid := e.b.bid, gix := e.g.gix }
      let noSR := fun (m : Nat) => if m = 5 then 0 else m
      let c1 : Chain := { c0 with orm := if c0.fmtCode 3 = 0 then noSR (dyn (c0.ctrl 41 3)) else dyn (c0.ctrl 41 3), rrm := noSR (dyn (c0.ctrl 38 3)) }
      let c2 : Chain := { c1 with l := ls }
      e.issueTrap (.chain st k a) = none → clean 2 → wide 0 % 64 = 0 → s.loadNow (e.g.agent e.b) (wide 0) 192 = .ok (d, false) → c0.legal = true →
      ls.length = 4 → (∀ j, j < 4 → if c1.used j = true then e.readRecord (c1.f (256 + 64 * j) 64) 32 = .ok (ls.getD j 0) else ls.getD j 0 = 0) → c2.countOk = true →
      c2.f 512 64 % 4 = 0 → c2.f 576 64 % 4 = 0 → (c2.red = 0 ∨ c2.f 640 64 % redBytes c2.red = 0) →
      takes (.chain st k a) fun x => x.kind = 7 ∧ x.counter = k.toNat ∧ x.args = [d, c1.orm, c1.rrm, e.g.srSeq 127, c0.key, e.b.bid, e.g.gix] ++ ls ∧ x.left = [(0, 0)])
    ∧ (e.issueTrap (.chain st k a) = none → (e.sreg a.toNat).poison = true → exec (.chain st k a) s = .next (e.trapAll ⟨0x0B, 0⟩))
    ∧ (e.issueTrap (.chain st k a) = none → clean 2 → wide 0 % 64 ≠ 0 → exec (.chain st k a) s = .next (e.trapAll ⟨0x05, 0⟩ (wide 0))))

/-- R234, R235, R236, R237, R348, R350, R351, R352, R450: TARM makes a release whose arm reaches the task's home once the path's earlier accesses are performed and is applied at the end
of a clock, TSTAT delivers the field of its task, TRESET resets it or traps TASK, TMARK leaves a record where
tracing is on and has no effect where it is off. What an arm and a reset do to a task whose words can be written back: a held one, and one read from its image (that
arms are applied in the order of their homes' clock is log entry 41, what an image that no launch holds gives log entry 106: the model's readings); a write-back that
faults is a fatal fault (R348). -/
def Obligations.TaskInstructions : Prop :=
  (∀ (st : BitVec 3) (d a b x : BitVec 7) (mark : BitVec 32) (s : State) (e : Env), s.env = some e → e.pi < e.g.paths.length →
    let idx := (e.uni a).val.toNat
    let named := (e.uni a).poison = false ∧ idx < (s.ctx e.b.ctx).tcbcnt
    (e.issueTrap (.tarm st a) = none → (e.uni a).poison = true → exec (.tarm st a) s = .next (e.trapAll ⟨0x0B, 0⟩))
    ∧ (e.issueTrap (.tarm st a) = none → (e.uni a).poison = false → (s.ctx e.b.ctx).tcbcnt ≤ idx → exec (.tarm st a) s = .next (e.trapAll ⟨0x14, 0⟩))
    ∧ (e.issueTrap (.tarm st a) = none → named → exec (.tarm st a) s = .next (e.goesOnIn (.tarm st a) (e.nextPc (.tarm st a))
        { s with seq := s.seq + 1, acts := s.acts ++ [⟨s.seq, e.gk, e.p.mask, e.g.blk, e.b.core, .tarm e.b.ctx idx⟩] }))
    ∧ (∀ tk, e.issueTrap (.tstat st d a x) = none → named → e.b.det = false → s.mem.latent = [] → s.tcb e.b.ctx idx = .ok tk →
        let w := match x.toNat with | 0 => BitVec.ofNat 32 tk.status | 1 => tk.depcnt | 2 => BitVec.ofNat 32 tk.retired | _ => BitVec.ofNat 32 tk.overarm
        ∃ t g', exec (.tstat st d a x) s = .next t ∧ t.grp e.gk = some g' ∧ e.onward (.tstat st d a x) g' ∧ g'.SameRegs e.g
          ∧ t.SameBut { s with tasks := if tk.status = 1 ∨ tk.status = 2 then SMap.put s.tasks (taskKey e.b.ctx idx) tk else s.tasks } e.gk
          ∧ g'.pend = e.g.pend ++ [⟨.s d.toNat, ~~~0, s.seq, .other⟩]
          ∧ t.results = s.results ++ [{ id := s.seq, gk := e.gk, cls := .other, mask := ~~~0, vw := [], sw := [(d.toNat, ⟨w, false⟩)], flags := 0 }])
    ∧ (e.issueTrap (.tstat st d a x) = none → e.b.det = true → exec (.tstat st d a x) s = .next (e.trapAll ⟨0x12, 0⟩))
    ∧ (∀ s1, e.issueTrap (.treset st a b) = none → named → (e.uni b).poison = false → s.taskReset e.b.ctx idx e.b.task (e.uni b).val = .ok s1 →
        exec (.treset st a b) s = .next (e.goesOnIn (.treset st a b) (e.nextPc (.treset st a b)) s1))
    ∧ (e.issueTrap (.treset st a b) = none → named → (e.uni b).poison = false → s.taskReset e.b.ctx idx e.b.task (e.uni b).val = .error .task →
        exec (.treset st a b) s = .next (e.trapAll ⟨0x14, 0⟩))
    ∧ (e.issueTrap (.tmark st mark) = none → s.dev.tren = false → exec (.tmark st mark) s = .next (e.goesOn (.tmark st mark) (e.nextPc (.tmark st mark)) e.g))
    ∧ (e.issueTrap (.tmark st mark) = none → s.dev.tren = true → s.dev.openFor 3 e.b.ctx = true → s.dev.trkinds.testBit 7 = true →
        ∃ t g' r, exec (.tmark st mark) s = .next t ∧ t.grp e.gk = some g' ∧ e.onward (.tmark st mark) g' ∧ g'.SameRegs e.g ∧ t.mem = s.mem
          ∧ t.dev.tracing = s.dev.tracing ++ [r] ∧ r.extractLsb' 296 32 = mark ∧ (r.extractLsb' 180 6).toNat = 7 ∧ (r.extractLsb' 456 56).toNat = e.p.pc.toNat % 2 ^ 56))
  ∧ (∀ (s : State) (a : Arm), a.idx < (s.ctx a.ctx).tcbcnt → s.arms = [a] →
      let y := ({ s with arms := [] } : State).arm a.ctx a.idx a.src a.core
      s.armNow = some { y.2 with dev := a.reply y.1 y.2.dev })
  ∧ (∀ (s : State) (a : Act) (ctx idx : Nat), a.kind = .tarm ctx idx →
      s.perform a = ({ s with acts := s.acts.filter fun x => x.id != a.id } : State).armLater ⟨1, a.id, a.core, ctx, idx, 0⟩)
  ∧ ∀ (s s1 : State) (ctx idx src core me : Nat) (n : Word) (tk : Task), s.mem.latent = [] → s.tcb ctx idx = .ok tk → tk.kept = false →
      let held := (s.task ctx idx).isSome
      let writes := fun (k : Task) => s.writeBack ctx idx held tk k = .ok s1
      let arms := fun (k : Task) (s2 : State) => writes k → s.arm ctx idx src core = (tk.depcnt.toInt, s2)
      let less := { tk with depcnt := tk.depcnt - 1 }
      let counted := { tk with overarm := min (tk.overarm + 1) 65535 }
      let after := if tk.status = 1 ∨ tk.status = 2 ∨ (tk.status = 3 ∧ held = true) then s1.setTask ctx idx counted else { s1 with tasks := SMap.del s1.tasks (taskKey ctx idx) }
      let fresh := { tk with depcnt := n, retired := 0, overarm := 0 }
      let mayReset := tk.status ≠ 2 ∧ tk.status ≠ 3 ∧ tk.status ≠ 7 ∧ idx ≠ me
      (tk.status ≤ 1 → 1 < tk.depcnt.toInt → arms { less with status := 1 } (s1.setTask ctx idx { less with status := 1 }))
      ∧ (tk.status ≤ 1 → tk.depcnt = 1 → s.arm ctx idx src core = (1, s.makeReady ctx idx tk { tk with depcnt := 0 }))
      ∧ ((tk.status = 2 ∨ (tk.status = 3 ∧ held = true)) → 0 < tk.depcnt.toInt → arms less (s1.setTask ctx idx less))
      ∧ (∀ c, tk.status ≤ 1 → 1 < tk.depcnt.toInt → s.writeBack ctx idx held tk { less with status := 1 } = .error c → s.arm ctx idx src core =
          (tk.depcnt.toInt, (s.setTask ctx idx { less with status := 1, kept := true }).fault 0 (checkRec ctx idx c.code 0)))
      ∧ ((4 ≤ tk.status ∧ tk.status ≤ 6) ∨ tk.depcnt.toInt ≤ 0 → tk.overarm ≠ 0 → arms counted after)
      ∧ ((4 ≤ tk.status ∧ tk.status ≤ 6) ∨ tk.depcnt.toInt ≤ 0 → tk.overarm = 0 → ∃ r : Rec, r.kind = 3 ∧ r.ctx = ctx ∧ r.task = idx ∧ arms counted (after.report core r))
      ∧ (n.toInt < 0 → s.taskReset ctx idx me n = .error .task)
      ∧ (0 ≤ n.toInt → ¬mayReset → s.taskReset ctx idx me n = .error .task)
      ∧ (0 < n.toInt → mayReset → writes { fresh with status := 1 } → s.taskReset ctx idx me n = .ok (s1.setTask ctx idx { fresh with status := 1 }))
      ∧ (n = 0 → mayReset → s.taskReset ctx idx me n = .ok (s.makeReady ctx idx tk fresh))

/-- R238, R239, R240, R241: PUT and PUTF send a transfer and count it as issued on their window, FAAR and CASR an atomic with their pair pending; WCNT delivers a counter;
WWAIT goes on where its counter has reached the threshold and parks where not, FFENCE where the group has nothing out to the package and parks where
it has, and is a fence of the path's own accesses; a window the context does not hold, or a package outside the pod, traps FABRIC. A PUT of more than 2^24 bytes
traps ILLOP by the model's reading (log entry 57). -/
def Obligations.FabricInstructions : Prop :=
  ∀ (st : BitVec 3) (d a b x : BitVec 7) (win : BitVec 8) (s : State) (e : Env) (w : Window), s.env = some e → e.pi < e.g.paths.length →
    let W := fun j => (e.sreg (a.toNat + j)).val.toNat
    let wide := fun j => W j + 2 ^ 32 * W (j + 1)
    let clean := fun n => ∀ j, j < n → (e.sreg (a.toNat + j)).poison = false
    let held := s.window e.b.ctx win.toNat = some w
    let inPod := fun pkg => pkg < 288 ∧ pkg < s.dev.podcnt
    let sends := fun (i : Instr) (pend : List Pend) (o : FabOp) => ∃ t g', exec i s = .next t ∧ t.grp e.gk = some g' ∧ e.onward i g' ∧ g'.SameRegs e.g ∧ t.mem = s.mem
      ∧ t.blocks = s.blocks ∧ t.dev = s.dev ∧ g'.pend = e.g.pend ++ pend ∧ t.fab = s.fab ++ [o]
      ∧ (o.kind ≤ 1 → SMap.find? t.windows win.toNat = some { w with issued := (w.issued + o.len) % 2 ^ 64 }) ∧ (2 ≤ o.kind → t.windows = s.windows)
    let base := fun (kind pkg : Nat) => e.fabOp kind win.toNat pkg
    let pair : List Pend := [⟨.s d.toNat, ~~~0, s.seq, .other⟩, ⟨.s (d.toNat + 1), ~~~0, s.seq, .other⟩]
    let parks := fun (i : Instr) (y : Wait) => exec i s = .next (s.setGrp e.gk (Path.set e.g e.pi
      { e.advance i e.p.pc e.p with st := .parked, wait := y, resume := e.nextPc i }))
    (e.issueTrap (.put st a win) = none → clean 6 → held → inPod (W 4) → W 5 ≤ 2 ^ 24 →
      sends (.put st a win) [] { base 0 (W 4) with src := wide 0, off := wide 2, len := W 5, left := List.range (flitCount (wide 2) (W 5)) })
    ∧ (e.issueTrap (.putf st a win) = none → clean 9 → held → inPod (W 4) → W 5 ≤ 2 ^ 24 → wide 6 % 4 = 0 →
      sends (.putf st a win) [] { base 1 (W 4) with src := wide 0, off := wide 2, len := W 5, a := wide 6, b := W 8, left := List.range (flitCount (wide 2) (W 5)) })
    ∧ (e.issueTrap (.put st a win) = none → clean 6 → held → inPod (W 4) → 2 ^ 24 < W 5 → exec (.put st a win) s = .next (e.trapAll ⟨0x01, 0⟩))
    ∧ (e.issueTrap (.faar st d a win) = none → e.b.det = false → clean 6 → held → inPod (W 2) → wide 0 % 8 = 0 →
      sends (.faar st d a win) pair { base 2 (W 2) with off := wide 0, len := 8, a := wide 4, b := 0, dest := d.toNat, left := [0] })
    ∧ (e.issueTrap (.casr st d a win) = none → e.b.det = false → clean 8 → held → inPod (W 2) → wide 0 % 8 = 0 →
      sends (.casr st d a win) pair { base 3 (W 2) with off := wide 0, len := 8, a := wide 4, b := wide 6, dest := d.toNat, left := [0] })
    ∧ (e.issueTrap (.put st a win) = none → clean 6 → (s.window e.b.ctx win.toNat = none ∨ ¬inPod (W 4)) → exec (.put st a win) s = .next (e.trapAll ⟨0x13, 0⟩))
    ∧ (∀ y, e.issueTrap (.wcnt st d a x) = none → e.b.det = false → (e.uni a).poison = false → s.window e.b.ctx (e.uni a).val.toNat = some y →
      let n := y.count x.toNat
      ∃ t g', exec (.wcnt st d a x) s = .next t ∧ t.grp e.gk = some g' ∧ e.onward (.wcnt st d a x) g' ∧ g'.SameRegs e.g ∧ t.SameBut s e.gk ∧ g'.pend = e.g.pend ++ pair
        ∧ t.results = s.results ++ [{ id := s.seq, gk := e.gk, cls := .other, mask := ~~~0, vw := [], flags := 0, sw := [(d.toNat, ⟨BitVec.ofNat 32 n, false⟩), (d.toNat + 1, ⟨BitVec.ofNat 32 (n / 2 ^ 32), false⟩)] }])
    ∧ (∀ y, e.issueTrap (.wwait st x a b) = none → (e.uni a).poison = false → (e.upair b).2 = false → s.window e.b.ctx (e.uni a).val.toNat = some y →
      ((e.upair b).1.toNat ≤ y.count (x.toNat + 1) → e.g.fabricFail = [] → exec (.wwait st x a b) s = .next (e.goesOn (.wwait st x a b) (e.nextPc (.wwait st x a b)) e.g))
      ∧ (y.count (x.toNat + 1) < (e.upair b).1.toNat → parks (.wwait st x a b) (.wwait x.toNat (e.uni a).val.toNat (e.upair b).1.toNat)))
    ∧ (let pkg := (e.uni a).val.toNat;
      let ids := (s.fab.filter fun o => o.gk == e.gk && (pkg == 2 ^ 32 - 1 || pkg == o.pkg)).map (·.id)
      e.issueTrap (.ffence st a) = none → (e.uni a).poison = false → (pkg = 2 ^ 32 - 1 ∨ inPod pkg) →
      (ids = [] → e.g.fabricFail = [] → exec (.ffence st a) s = .next (e.goesOnIn (.ffence st a) (e.nextPc (.ffence st a)) (s.fence e.gk e.p.mask 2))
          ∧ ((s.outBefore e.gk e.p.mask s.seq fun x => !x.kind.isFence) = false → s.fence e.gk e.p.mask 2 = s)
          ∧ ((s.outBefore e.gk e.p.mask s.seq fun x => !x.kind.isFence) = true → ∃ r, (s.fence e.gk e.p.mask 2).reqs = s.reqs ++ [r] ∧ r.kind = .fence 2 ∧ r.gk = e.gk
              ∧ r.mask = e.p.mask))
      ∧ (ids ≠ [] → parks (.ffence st a) (.ffence ids pkg)))

/-! ### Events -/

/-- R25, R26, R28, R35: a countdown that has run out ends, a unit whose clock has come is released, a group starved for 2,048 clocks is promoted, and in
a clock where a core's CYCLE is divisible by 16 the level granted takes effect on it (in that same clock: log entry 97); before its time none of these changes anything.

R31, R161, R171, R246, R247, R248, R249, R251: two paths that meet merge: one takes both sets of threads and the other's entry becomes free; a spilled path comes back to a free
entry with its stamp new and its countdown running on, parked ones too, an MWAIT going on with 2 and an LDPOLL.Y beginning afresh; one whose record has been
written over comes back too, with what state is left open (log entry 20); a path on its way to the spill area
has its record written and then stands there; a spilled LIVE path that has waited 4,096 clocks displaces the victim; a group without progress
for 2^20 clocks is reported entry by entry and counts afresh; MWAIT's path whose granule was written goes on with 1; a poll whose back-off has run out reads again. -/
def Obligations.IssueClocksAndPaths : Prop :=
  (∀ (s : State) (g : Grp) (gk pi core unit n : Nat), s.grp gk = some g →
    (s.subject = [gk, pi] → (g.path pi).ready ≤ s.clock →
      exec .stallCountdownExpiry s = .next (s.setGrp gk (Path.set g pi { g.path pi with ready := 0 })))
    ∧ (s.subject = [core, unit] → SMap.find? (s.core core).units unit = some n →
      (n ≤ s.clock → exec .unitRelease s = .next (s.setCore core { s.core core with units := SMap.del (s.core core).units unit }))
      ∧ (s.clock < n → exec .unitRelease s = .next s))
    ∧ (s.subject = [gk] → 2048 ≤ g.starve → exec .starvationPromotion s = .next (s.setGrp gk { g with promoted := true }))
    ∧ (s.subject = [gk] → g.starve < 2048 → exec .starvationPromotion s = .next (s.setGrp gk g))
    ∧ (s.subject = [core] → s.cycleOf core % 16 = 0 → SMap.wf (16, 16) s.dev.grants = true → ∃ t, exec .grantChange s = .next t
        ∧ t.dev.grant core = ((s.dev.grant core).2, (s.dev.grant core).2) ∧ (∀ q, q ≠ core → t.dev.grant q = s.dev.grant q)
        ∧ t.groups = s.groups ∧ t.cores = s.cores ∧ t.mem = s.mem)
    ∧ (s.subject = [core] → s.cycleOf core % 16 ≠ 0 → exec .grantChange s = .next s))
  ∧ (∀ (s : State) (gk pi : Nat) (g : Grp) (b : Blk), s.grp gk = some g → s.blk g.blk = some b → g.paths.length = 8 → g.resident = true →
    let ev := fun (i : Instr) (l : List Nat) (P : State → Grp → Prop) => s.subject = l → ∃ t g', exec i s = .next t ∧ t.grp gk = some g' ∧ g'.SameRegs g ∧ P t g'
    let back := fun (out : Nat) (p : Path) => { p with ready := s.clock + (p.ready - out), stamp := s.clock }
    (∀ i j, g.mergePair = some (i, j) → i < j ∧ (g.path i).pc = (g.path j).pc ∧ (g.path i).hnd = (g.path j).hnd ∧ (g.path i).st = (g.path j).st
      ∧ ev .pathMerge [gk] fun t g' => (g'.path i).mask = (g.path i).mask ||| (g.path j).mask ∧ (g'.path i).pc = (g.path i).pc
          ∧ (g'.path i).st = (g.path i).st ∧ (g'.path i).hnd = (g.path i).hnd ∧ (g'.path i).ready = max (g.path i).ready (g.path j).ready
          ∧ g'.path j = Path.free ∧ (∀ k, k ≠ i → k ≠ j → g'.path k = g.path k) ∧ g'.pend = g.pend ∧ t.SameBut s gk)
    ∧ (g.mergePair = none → s.subject = [gk] → exec .pathMerge s = .next s)
    ∧ (∀ out p rest i n w ws rs, g.spilled = (out, p) :: rest → g.spillRecs = (n, some w, ws) :: rs → g.freeEntry = some i → s.mem.latent = [] →
      let returns := fun (P : State → Grp → Prop) => ev .spillReturn [gk] fun t g' =>
        g'.spilled = rest ∧ g'.spillRecs = rs ∧ (∀ k, k ≠ i → g'.path k = g.path k) ∧ t.SameBut s gk ∧ P t g'
      (∀ z s1, s.frameRead (g.agent b) (s.spillVA g b n) 32 = some (w, z, s1) →
        ((∀ h o v j d y, p.wait ≠ .mwait h o v j d y) → (∀ c f, p.wait ≠ .doomed c f) → (∀ c f m, p.wait ≠ .handler c f m) → (∀ u k q, p.wait ≠ .ldpoll u k q) →
          returns fun _ g' => g'.path i = back out p)
        ∧ (∀ u k q, p.wait = .ldpoll u k q → returns fun _ g' => g'.path i = { back out p with wait := .ldpoll s.clock 0 { q with op := 0 } })
        ∧ (∀ h o v j d y, p.st = .parked → p.wait = .mwait h o v j d y → returns fun t g' => (g'.path i).st = .live ∧ (g'.path i).pc = p.resume
            ∧ (g'.path i).mask = p.mask ∧ g'.pend = g.pend ++ [⟨.s d, ~~~0, s.seq, .other⟩]
            ∧ t.results = s.results ++ [{ id := s.seq, gk := gk, cls := .other, mask := ~~~0, vw := [], sw := [(d, ⟨if b.det = true then 1 else 2, y⟩)], flags := 0 }]))
      ∧ (∀ x z s1, s.frameRead (g.agent b) (s.spillVA g b n) 32 = some (x, z, s1) → x ≠ w → returns fun _ _ => True)
      ∧ (s.frameRead (g.agent b) (s.spillVA g b n) 32 = none → s.subject = [gk] → exec .spillReturn s = .next (s.restoreFault g b (s.spillVA g b n))))
    ∧ (∀ out p i n w ws s1 z s2, g.freeEntry = none → g.spilled = [(out, p)] → g.spillRecs = [(n, some w, ws)] → p.st = .live → p.wait = .none → out + 4096 ≤ s.clock →
      (g.victim fun _ q => q.st == .parked || q.st == .stopped).or (g.victim fun _ q => q.st == .live) = some i → s.spillPath gk (g.path i) = some s1 →
      s.mem.latent = [] → s1.frameRead (g.agent b) (s.spillVA g b n) 32 = some (w, z, s2) →
      ev .spillRotation [gk] fun t g' => g'.spilled = [(s.clock, { g.path i with dist := [] })] ∧ (∃ ps, g'.spillRecs = [(g.freeRecord, none, ps)])
        ∧ g'.path i = { back out p with ready := max (back out p).ready (g.fixedUntil (g.path i).mask) } ∧ t.blocks = s.blocks ∧ t.mem = s.mem)
    ∧ (∀ out p n ps, g.spilled = [(out, p)] → g.spillRecs = [(n, none, ps)] →
      let w := p.record s.clock % 2 ^ 256
      s.writeSpill gk 0 = (s.performWrite (partBytes false ps w)).updGrp gk fun g => { g with spilled := [(s.clock, p)], spillRecs := [(n, some w, ps)] })
    ∧ (2 ^ 20 ≤ g.progress → ev .hangReport [gk] fun t g' => g'.progress = 0 ∧ g'.paths = g.paths ∧ t.mem = s.mem ∧ ∃ rs, t.records = s.records ++ rs
        ∧ rs.length = ((List.range 8).filter fun i => (g.path i).st != .free).length
        ∧ ∀ i, i < 8 → (g.path i).st ≠ .free → ∃ r ∈ rs, r.kind = 2 ∧ r.path = i ∧ r.pc = (g.path i).pc ∧ r.mask = (g.path i).mask ∧ r.gix = g.gix ∧ r.bid = b.bid)
    ∧ (g.progress < 2 ^ 20 → s.subject = [gk] → exec .hangReport s = .next s)
    ∧ (∀ h o v d z, (g.path pi).st = .parked → (g.path pi).wait = .mwait h o v 2 d z → ev .mwaitWake [gk, pi] fun t g' =>
        g'.path pi = { g.path pi with st := .live, wait := .none, pc := (g.path pi).resume, exempt := (g.path pi).exempt && (g.path pi).resume == (g.path pi).pc } ∧ g'.progress = 0 ∧ t.mem = s.mem
        ∧ g'.pend = g.pend ++ [⟨.s d, ~~~0, s.seq, .other⟩]
        ∧ t.results = s.results ++ [{ id := s.seq, gk := gk, cls := .other, mask := ~~~0, vw := [], sw := [(d, ⟨1, z⟩)], flags := 0 }])
    ∧ (∀ next k poll, (g.path pi).st = .parked → (g.path pi).wait = .ldpoll next k poll → poll.op = 0 →
      (s.clock < next → s.subject = [gk, pi] → exec .ldpollBackoffExpiry s = .next s)
      ∧ (next ≤ s.clock → poll.eas ≠ [] → (∀ x ∈ poll.eas, ∃ ps, s.resolve (g.agent b) .read x.2 poll.bytes = .ok ps) →
        ev .ldpollBackoffExpiry [gk, pi] fun t g' => t.mem = s.mem ∧ t.blocks = s.blocks ∧ g'.pend = g.pend
          ∧ (∃ poll', g'.path pi = { g.path pi with wait := .ldpoll next k poll' } ∧ poll'.op = s.seq ∧ poll'.eas = poll.eas)
          ∧ ∃ rs, t.reqs = s.reqs ++ rs ∧ ∀ r ∈ rs, r.kind = .load ∧ r.op = s.seq ∧ r.gk = gk)))

/-- R29, R32, R88, R107, R113, R218, R288, R466: a result whose clock has come is written: its registers, predicates and index registers take their values, its flags are ORed
into FLAGS, over an SWRITE of the same clock, and nothing else changes; a result of a time that is not fixed is written where it arrives: the
registers of threads that have not exited take their values, the pending marks of its threads clear, and its flags are ORed in. A texture lookup reads its texels
then, once the path's earlier writes and acquires are done. -/
def Obligations.ResultsLand : Prop :=
  ∀ (s : State) (gk : Nat) (g : Grp), s.grp gk = some g → g.tidy → g.alive ≠ 0 →
    (∀ (f : FixRes) (rest : List FixRes), s.subject = [gk] → g.fixed = f :: rest → f.ready ≤ s.clock → (∀ x ∈ rest, f.ready < x.ready) → (∀ w ∈ f.vw, w.1 < 16384) →
      (f.spec = none → f.pw.Pairwise (fun x y => x.1 ≠ y.1) → ∃ t g', exec .fixedLatencyResult s = .next t ∧ t.grp gk = some g' ∧ g'.fixed = rest
        ∧ Wrote RegVal.zero g'.v g.v f.vw ∧ Wrote RegVal.zero g'.s g.s f.sw ∧ Wrote false g'.q g.q f.qw ∧ Wrote 0 g'.x g.x f.xw
        ∧ (∀ n u, u < 96 → g'.pr n u = match f.pw.find? (fun w => w.1 == 128 * n + u) with | some w => w.2 | none => g.pr n u)
        ∧ g'.flags = g.flags ||| f.flags.setWidth 14 ∧ g'.rmode = g.rmode ∧ g'.partn = g.partn ∧ g'.bankc = g.bankc
        ∧ g'.paths = g.paths ∧ g'.pend = g.pend ∧ g'.alive = g.alive ∧ t.SameBut s gk)
      ∧ (∀ n x, f.spec = some (n, x) → f.vw = [] → f.sw = [] → f.pw = [] → f.qw = [] → f.xw = [] →
        ∃ t g', exec .fixedLatencyResult s = .next t ∧ t.grp gk = some g' ∧ g'.fixed = rest ∧ g'.flags = (g.writeSpecial n x).flags ||| f.flags.setWidth 14
          ∧ g'.rmode = (g.writeSpecial n x).rmode ∧ g'.partn = (g.writeSpecial n x).partn ∧ g'.bankc = (g.writeSpecial n x).bankc
          ∧ g'.v = g.v ∧ g'.s = g.s ∧ g'.p = g.p ∧ g'.q = g.q ∧ g'.x = g.x ∧ g'.paths = g.paths ∧ t.SameBut s gk))
    ∧ (s.subject = [gk] → (∀ f ∈ g.fixed, s.clock < f.ready) → exec .fixedLatencyResult s = .next s)
    ∧ ∀ (i : Nat) (r : Result), g.resident = true → s.subject = [i] → s.results[i]? = some r → r.gk = gk → (∀ w ∈ r.vw, w.1 < 16384) →
      (r.looks = [] → ∃ t g', exec .variableResultWrite s = .next t ∧ t.grp gk = some g' ∧ t.results = s.results.eraseIdx i
        ∧ Wrote RegVal.zero g'.v g.v (r.vw.filter fun w => g.alive.getLsbD (w.1 % 128)) ∧ Wrote RegVal.zero g'.s g.s r.sw
        ∧ g'.flags = g.flags ||| r.flags.setWidth 14 ∧ g'.p = g.p ∧ g'.q = g.q ∧ g'.x = g.x ∧ g'.paths = g.paths ∧ g'.fixed = g.fixed
        ∧ (∀ p ∈ g'.pend, p.id = r.id → p.mask &&& r.mask = 0) ∧ (∀ p ∈ g.pend, p.id ≠ r.id → p.mask ≠ 0 → p ∈ g'.pend) ∧ t.SameBut s gk)
      ∧ (r.looks ≠ [] → s.uncleared gk r.mask r.id = true → exec .variableResultWrite s = .next s)
      ∧ (∀ b, s.blk g.blk = some b → r.looks ≠ [] → s.uncleared gk r.mask r.id = false → s.mem.latent = [] → r.looks.Pairwise (fun x y => x.thread ≠ y.thread) →
          (∀ k ∈ r.looks, k.thread < 96 ∧ k.dest + k.width ≤ 128) →
          ∃ t g', exec .variableResultWrite s = .next t ∧ t.grp gk = some g' ∧ t.results = s.results.eraseIdx i ∧ t.mem = s.mem
            ∧ ∀ k ∈ r.looks, g.alive.getLsbD k.thread = true → ∀ ys, s.lookSlots (g.agent b) k = some ys → (∀ y ∈ ys, y.2 = false) →
              ∀ j y, j < k.width → ys[j]? = some y → SMap.get RegVal.zero g'.v (128 * (k.dest + j) + k.thread) = ⟨BitVec.ofNat 32 y.1, false⟩)

/-- R187, R189, R190, R192, R193, R195, R196, R197, R299, R300, R305: a BLD whose slot is free of earlier commands and has room starts to load, and ends LOADED with the
columns read or FAILED with the cause for MSYNC; an MMAS fills its rows, taking a token where .RDY asks for one, runs on the macros and leaves each
row with its products added; MEMIT stores its values and clears the rows where it says so; MRD and MWR move bank words; a SAVED slot that a
chosen pass waits for comes back, or ends the task where the frame cannot be read; a claim lapses 4,096 clocks after the lease became free, and a drained lease becomes
free. No line of memory holds an error not yet found (StorageErrors). The number left for INFO is the slot, and the bank for MEMIT (log entry 39: the model's reading). -/
def Obligations.MatrixEvents : Prop :=
  ∀ (s : State) (core : Nat) (c : MCmd) (b : Blk),
    let m := s.mx core
    let key := 16 * c.bk + c.slot
    let ev := fun (i : Instr) (P : State → Matrix → Prop) => s.subject = [core, c.id] → ∃ t, exec i s = .next t ∧ P t (t.mx core)
    let room := fun (m : Matrix) (x : MSlot) => slotUnits x.mode x.ks x.n + m.used ≤ 256 ∧ ∀ e ∈ m.slots, SMap.find? m.slots e.1 = some e.2
    let done := fun (t : State) (flags : BitVec 6) (fail kind num : Nat) => (t.mx core).cmd c.id = none
      ∧ ∃ b', t.blk c.bk = some b' ∧ b'.mdones = b.mdones ++ [⟨c.id, c.gk, c.bank, flags, fail, kind, num⟩]
    s.mem.latent = [] →
    (m.cmd c.id = some c → s.blk c.bk = some b →
    (∀ x, c.kind = .bld → c.st = 0 → (m.before c.id).any (·.naming c.bk c.slot) = false → Matrix.seen { m with cmds := [c] } c.bk c.slot = some x →
      room { m with slots := SMap.del m.slots key } x →
      ev .bldLoadStart fun t m' => SMap.find? m'.slots key = some x ∧ m'.cmd c.id = some { c with st := 1 } ∧ t.mem = s.mem ∧ t.groups = s.groups)
    ∧ (∀ x, c.kind = .bld → c.st = 1 → SMap.find? m.slots key = some x →
      (∀ cols pos z s1, s.loadSlot c x = .ok (cols, pos, z, s1) → ev .bldComplete fun t m' => t.mem = s1.mem ∧ t.groups = s.groups
          ∧ SMap.find? m'.slots key = some { x with st := 2, cols := cols, pos := pos, poison := z, stamp := s.clock }
          ∧ done t (cols.foldl (fun f col => f ||| alignFlags (halfB c.fmt) col pos (List.range x.ks)) 0) c.fail 1 c.slot)
      ∧ (∀ cause, s.loadSlot c x = .error cause → ev .bldComplete fun t m' => t.mem = s.mem ∧ t.groups = s.groups
          ∧ SMap.find? m'.slots key = some { x with st := 3, cols := [], pos := [] } ∧ done t c.flags cause.code 1 c.slot))
    ∧ (∀ x rows fl s2, c.kind = .mmas → c.st = 0 → m.imageTaken = false →
      (m.before c.id).any (fun y => y.kind == .mmas && y.st == 0) = false → (m.before c.id).any (fun y => y.kind == .bld && y.naming c.bk c.slot) = false →
      (c.rdy = true → (m.bank c.bank).tokens ≠ 0) → m.slotOf c = some x → x.st ≠ 3 →
      let s1 := if c.rdy then s.updMx core fun m => m.setBank c.bank { m.bank c.bank with tokens := (m.bank c.bank).tokens - 1 } else s
      s1.fillRows c x = .ok (rows, fl, s2) →
      ev .aRowFillComplete fun t m' => m'.cmd c.id = some { c with st := 2, fill := rows, flags := fl } ∧ t.mem = s2.mem
        ∧ (m'.bank c.bank).tokens = if c.rdy then (m.bank c.bank).tokens - 1 else (m.bank c.bank).tokens)
    ∧ (∀ x, m.pass = none → m.candidates s.clock = [] → m.nextMmas = some c → m.slotOf c = some x → m.failedMmaq = none → m.emptyMmas = none → m.nextPort = none →
      s.subject = [core] → (x.st = 4 → ∃ t, exec .passStart s = .next t ∧ (t.mx core).cmd c.id = some { c with st := 5 } ∧ (t.mx core).pass = none ∧ t.mem = s.mem)
      ∧ (x.st ≠ 4 → ∃ t, exec .passStart s = .next t ∧ (t.mx core).cmd c.id = some { c with st := 3 } ∧ t.mem = s.mem
        ∧ (t.mx core).pass = some (c.id, false, s.clock + c.rows * modeStep (modeOf (halfA c.fmt) (halfB x.fmt)) (halfA c.fmt))))
    ∧ (∀ x t0, m.pass = some (c.id, false, t0) → t0 ≤ s.clock → c.kind = .mmas → m.slotOf c = some x → x.st = 2 → c.fail = 0 →
      SMap.wf MRow.clear (m.bank c.bank).rows = true → s.subject = [core] →
      ∃ t fl, exec .passEnd s = .next t ∧ (t.mx core).pass = none ∧ t.mem = s.mem ∧ done t fl 0 2 c.slot
        ∧ ∀ r, ((t.mx core).bank c.bank).row r = match c.fill[r]? with
          | some a => (((m.bank c.bank).row r).mmas c.clr (modeOf (halfA c.fmt) (halfB x.fmt)) (halfA c.fmt) (halfB x.fmt) a x).1
          | none => (m.bank c.bank).row r)
    ∧ (∀ f, c.kind = .memit → c.st = 3 → c.until' ≤ s.clock → emitFmt (c.ctl.extractLsb' 0 4).toNat = some f → SMap.wf MRow.clear (m.bank c.bank).rows = true →
      let vals := c.emitVals (m.bank c.bank) f
      let w := s.emitWrites c f vals
      ev .memitComplete fun t m' => t.mem = (s.programWrite w.1).mem
        ∧ done t (vals.foldl (fun fl v => fl ||| v.2.2) 0) (match w.2 with | some e => e.code | none => 0) 3 c.bank
        ∧ ∀ r, (m'.bank c.bank).row r = if c.clr = true ∧ r < c.emitRows then MRow.clear else (m.bank c.bank).row r)
    ∧ (∀ g, c.kind = .mrd → c.alt = false → c.st = 3 → c.until' ≤ s.clock → s.grp c.gk = some g → g.resident = true → g.tidy → c.aux.getD 3 0 + 1 < 128 →
      c.data.Pairwise (fun x y => x.1 ≠ y.1) → (∀ d ∈ c.data, d.1 < 96) →
      ev .accumPortAccess fun t m' => m'.cmd c.id = none ∧ m'.bank c.bank = m.bank c.bank ∧ t.mem = s.mem ∧ ∃ g', t.grp c.gk = some g'
        ∧ ∀ d ∈ c.data, g.alive.getLsbD d.1 = true →
          let row := (m.bank c.bank).row (portPlace c d.1).1
          let z := SMap.get false row.poison ((portPlace c d.1).2 / modeWords row.mode)
          SMap.get RegVal.zero g'.v (128 * c.aux.getD 3 0 + d.1) = ⟨(SMap.get 0 row.words (portPlace c d.1).2).extractLsb' 0 32, z⟩
          ∧ SMap.get RegVal.zero g'.v (128 * (c.aux.getD 3 0 + 1) + d.1) = ⟨(SMap.get 0 row.words (portPlace c d.1).2).extractLsb' 32 32, z⟩)
    ∧ (c.kind = .mwr → c.alt = false → c.st = 3 → c.until' ≤ s.clock → SMap.wf MRow.clear (m.bank c.bank).rows = true →
      (∀ r, SMap.wf 0 ((m.bank c.bank).row r).words = true) → c.data.Pairwise (fun x y => portPlace c x.1 ≠ portPlace c y.1) →
      ev .accumPortAccess fun t m' => done t c.flags c.fail 0 c.bank ∧ t.mem = s.mem ∧ t.groups = s.groups
        ∧ (∀ d ∈ c.data, SMap.get 0 ((m'.bank c.bank).row (portPlace c d.1).1).words (portPlace c d.1).2 = d.2.1)
        ∧ ∀ r w, (∀ d ∈ c.data, portPlace c d.1 ≠ (r, w)) → SMap.get 0 ((m'.bank c.bank).row r).words w = SMap.get 0 ((m.bank c.bank).row r).words w)
    ∧ (∀ x, s.subject = [core, c.bk, c.slot] → SMap.find? m.slots key = some x → x.st = 4 → c.kind = .mmas → c.st = 5 → room m x →
      let s0 := s.updMx core fun _ => m
      (∀ s1, s0.openBack c.bk 0x160000 0x40000 = some (true, s1) → ∃ t, exec .slotRestore s = .next t ∧ t.mem = s1.mem
        ∧ SMap.find? (t.mx core).slots key = some { x with st := 2, stamp := s1.clock } ∧ (t.mx core).cmd c.id = some { c with st := 2 })
      ∧ (s0.openBack c.bk 0x160000 0x40000 = none → exec .slotRestore s = .next (s.restoreFailed core c.bk c.slot (s.frameVA b 0x160000)))))
    ∧ (s.subject = [core] →
      (∀ k, m.claim = some k → m.holder = none → m.freeAt + 4096 ≤ s.clock → ∃ t, exec .leaseClaimLapse s = .next t ∧ t.mx core = { m with claim := none } ∧ t.mem = s.mem)
      ∧ (m.drained = true → ∃ t, exec .leaseFree s = .next t ∧ t.mx core = { m with holder := none, drain := false, budget := 0, freeAt := s.clock } ∧ t.mem = s.mem)
      ∧ (m.drained = false → exec .leaseFree s = .next s))

/-- R200, R203, R299, R302, R306, R307, R308, R309, R310: an MMAQ's results and a tile's rows are written to the registers of their threads where they have not exited; a
gather window that ends closes its context's open tiles, and a core none of whose waiting groups can go on closes all, its rows in order of their keys; a closed tile's network is
loaded into a handle slot, LOADED with its layers; a layer that ends leaves its outputs in the tile's rows. No line of memory holds an error not yet found. -/
def Obligations.NetworkEvents : Prop :=
  ∀ (s : State) (core id ctx h : Nat),
    let m := s.mx core
    let ev := fun (i : Instr) (l : List Nat) (P : State → Matrix → Prop) => s.subject = l → ∃ t, exec i s = .next t ∧ P t (t.mx core)
    let close := fun (p : CTile → Bool) (t : CTile) => if t.st == 0 && p t then t.close s.clock else t
    s.mem.latent = [] →
    (∀ t : CTile, t.st = 0 → (t.close s.clock).st = 1 ∧ (t.close s.clock).ready = s.clock + 3 ∧ (t.close s.clock).rows.Perm t.rows
      ∧ (t.close s.clock).rows.Pairwise fun a b => a.key ≤ b.key) ∧
    (∀ c g, m.cmd id = some c → c.kind = .mmaq → c.st = 4 → c.until' ≤ s.clock → c.fail = 0 → s.grp c.gk = some g → g.resident = true → g.tidy →
      c.qrows.Pairwise (fun x y => x.thread ≠ y.thread) → (∀ q ∈ c.qrows, q.thread < 96 ∧ c.aux.getD 1 0 + q.acc.length ≤ 128) →
      ev .mmaqWriteback [core, id] fun t m' => m'.cmd id = none ∧ t.mem = s.mem ∧ ∃ g', t.grp c.gk = some g' ∧ g'.flags = (if g.alive = 0 then g.flags else g.flags ||| c.flags.setWidth 14)
        ∧ ∀ q ∈ c.qrows, g.alive.getLsbD q.thread = true → ∀ j v, q.acc[j]? = some v →
          SMap.get RegVal.zero g'.v (128 * (c.aux.getD 1 0 + j) + q.thread) = ⟨v.val, c.data.any fun d => d.1 == 96 * j + q.thread⟩)
    ∧ (∀ tl r g, m.tile id = some tl → tl.st = 3 → tl.ready ≤ s.clock → r ∈ tl.rows → s.grp r.gk = some g → (∀ q ∈ tl.rows, ∀ g', s.grp q.gk = some g' → g'.resident = true) → g.tidy → g.alive.getLsbD r.thread = true →
      tl.rows.Pairwise (fun x y => ¬(x.gk = y.gk ∧ x.thread = y.thread)) → (∀ x ∈ tl.rows, x.thread < 96 ∧ x.dest + x.xs.length ≤ 128) →
      ev .chorusWriteback [core, id] fun t m' => m'.tile id = none ∧ t.mem = s.mem ∧ ∃ g', t.grp r.gk = some g'
        ∧ ∀ j x, r.xs[j]? = some x → SMap.get RegVal.zero g'.v (128 * (r.dest + j) + r.thread) = ⟨BitVec.ofNat 32 x, r.poison⟩)
    ∧ (∀ w, SMap.find? m.windows ctx = some w → w ≤ s.clock → ev .chorusWindowClose [core, ctx] fun t m' =>
        m'.tiles = m.tiles.map (close fun t => t.ctx == ctx) ∧ m'.windows = SMap.del m.windows ctx ∧ t.mem = s.mem ∧ t.groups = s.groups)
    ∧ (∀ w, SMap.find? m.windows ctx = some w → s.clock < w → s.subject = [core, ctx] → exec .chorusWindowClose s = .next s)
    ∧ (m.tiles.any (fun t => t.st == 0) = true → s.chorusStuck core = true → ev .chorusTileClose [core] fun t m' =>
        m'.tiles = m.tiles.map (close fun _ => true) ∧ t.mem = s.mem ∧ t.groups = s.groups)
    ∧ (∀ x c s1, m.handle ctx h = none → m.tiles.any (fun t => t.ctx == ctx && t.handle == h && t.st == 1) = true →
      (∀ t ∈ m.tiles, t.ctx = ctx → t.handle = h → t.st = 1 → ∀ r ∈ t.rows, s.uncleared r.gk (BitVec.ofNat 96 (2 ^ r.thread)) r.neval = false) →
      (∀ e ∈ m.slots, SMap.find? m.slots e.1 = some e.2) → s.network ⟨ctx, core, 2 ^ 64⟩ h = (some (x, c), s1) →
      netUnits x c + m.used ≤ 256 → ev .chorusHandleLoadStart [core, ctx, h] fun t m' => m'.handles = m.handles ++ [⟨ctx, h, 1, netUnits x c, [], false, 0, s.clock⟩]
        ∧ m'.tiles = m.tiles ∧ t.groups = s.groups)
    ∧ (∀ y x c s1, m.handle ctx h = some y → y.st = 1 → s.network ⟨ctx, core, 2 ^ 64⟩ h = (some (x, c), s1) →
      (∀ ls z fl s2, s1.loadLayers ⟨ctx, core, 2 ^ 64⟩ x c x.layers 0 = .ok (ls, z, fl, s2) → ev .chorusHandleLoadEnd [core, ctx, h] fun t m' =>
        m'.handle ctx h = some { y with st := 2, layers := ls, poison := z, flags := fl, stamp := s.clock } ∧ t.mem = s2.mem ∧ t.groups = s.groups)
      ∧ (∀ e, s1.loadLayers ⟨ctx, core, 2 ^ 64⟩ x c x.layers 0 = .error e → ev .chorusHandleLoadEnd [core, ctx, h] fun t m' =>
        m'.handle ctx h = none ∧ t.mem = s1.mem ∧ ∀ t' ∈ m'.tiles, ¬(t'.ctx = ctx ∧ t'.handle = h)))
    ∧ (∀ tl y l t0, m.pass = some (tl.id, true, t0) → t0 ≤ s.clock → m.tile tl.id = some tl → m.handle tl.ctx tl.handle = some y → y.layers[tl.layer]? = some l →
      tl.layer + 1 ≠ y.layers.length → ev .passEnd [core] fun t m' => m'.pass = none ∧ t.mem = s.mem ∧ m'.tile tl.id = some
        { tl with layer := tl.layer + 1, st := 1, ready := s.clock + 4,
                  rows := tl.rows.map fun r => { r with xs := (l.apply r.xs).1, flags := r.flags ||| (l.apply r.xs).2, poison := r.poison || y.poison } })

/-- R208, R230, R231, R234, R276, R333, R334, R393, R394: an arrival of a copy writes its piece and leaves the rest to come, or ends the command with its cause; a copy or
decompression with nothing left completes; what a CPYM has read for one member is what it writes for all; a chunk arrives and the next
is due; a chain goes on element by element, writes a row's result after its last and completes after the last row; a table reload
writes its entries and completes; completing takes the command away, raises its counter, and leaves its flags and failure for EWAIT. No line of memory holds an
error not yet found. That a failed reload makes its entries zero is log entry 44, that what an engine reads over time is read in one event log entry 33: the model's
choices. -/
def Obligations.EngineEvents : Prop :=
  ∀ (s : State) (c : EngCmd), s.ecmd c.id = some c → s.mem.latent = [] →
    let ctx := (s.blockAgent c.bk).ctx
    (∀ m k, s.subject = [c.id, m, k] → (c.kind = 4 ∨ c.kind = 5) → (m, k) ∈ c.left →
      ∀ sf df, copyFmts (c.arg 4) = some (sf, df) → let n := pieceElems df.bits
      (∀ c1 ys s1 s2, s.copyPiece c sf df k = .ok (c1, ys, s1) →
        s1.arrivals c.bk m (s1.packElems (fun va => s.destParts c.bk m va 1) df.bits ((((layoutElems (c.arg 1) (c.arg 3) df.bits).getD []).drop (k * n)).zip ys)) (c.arg 10 == 1)
          (if c.arg 11 = 1 then some (c.arg 4 % 2 ^ 20) else none) = (none, s2) → c1.id = c.id →
        exec .copyArrival s = .next (s2.setEcmd { c1 with left := c.left.erase (m, k), pieces := c1.pieces.filter fun x => (c.left.erase (m, k)).any fun a => a.2 == x.1 }))
      ∧ (∀ cause, s.copyPiece c sf df k = .error cause → exec .copyArrival s = .next (s.setEcmd { c with left := [], pieces := [], cause := cause.code }))
      ∧ (∀ ys fl s1, c.pieces.find? (fun x => x.1 == k) = none → s.copyRead c sf df k = .ok (ys, fl, s1) → s.copyPiece c sf df k =
          .ok ({ c with flags := c.flags ||| fl, pieces := if c.kind = 5 then c.pieces ++ [(k, ys)] else c.pieces }, ys, s1))
      ∧ (∀ x, c.pieces.find? (fun x => x.1 == k) = some x → s.copyPiece c sf df k = .ok (c, x.2, s)))
    ∧ (s.subject = [c.id] →
      ((c.kind = 4 ∨ c.kind = 5 ∨ c.kind = 6) → c.left = [] → s.bars = [] → exec .copyComplete s = .next (s.ecmdDone c))
      ∧ (c.left ≠ [] → exec .copyComplete s = .next s)
      ∧ (∀ m k rest ys next s1 s2, c.kind = 6 → s.tableReady c = true → s.portTaken c = false → c.left = (m, k) :: rest → k ≠ 0 →
        s.decChunk c (c.arg 8) (min 4096 (((layoutElems (c.arg 1) (c.arg 2) 8).getD []).length - 4096 * k)) = .ok (ys, next, s1) → s1.decArrive c k ys = (none, s2) →
        exec .decChunkDecode s = .next (s2.setEcmd { c with left := rest, args := next :: ((c.args.drop 1).take 7 ++ [c.arg 8]) }))
      ∧ (∀ m k rest cause, c.kind = 6 → s.tableReady c = true → s.portTaken c = false → c.left = (m, k) :: rest → k ≠ 0 →
        s.decChunk c (c.arg 8) (min 4096 (((layoutElems (c.arg 1) (c.arg 2) 8).getD []).length - 4096 * k)) = .error cause →
        exec .decChunkDecode s = .next (s.setEcmd { c with left := [], cause := cause.code }))
      ∧ (c.kind = 8 → s.uncleared c.gk c.mask c.id = false → (c.arg 0 = 0 → ∀ x ∈ s.cores, ∀ t ∈ (s.mx x.1).tiles, ¬(t.ctx = ctx ∧ c.covers t.handle = true)) →
        (c.arg 0 = 4 → ∀ x ∈ s.ecmds, x.kind ≠ 6) →
        let s0 := if c.arg 0 = 0 then s.dropHandles ctx c else s
        (∀ rs s2, s0.tableImage c = (.ok rs, s2) → ∃ t, exec .tblldReload s = .next t ∧ t.ecmd c.id = none
          ∧ t.mem = (s2.writeEntries ctx (c.arg 0) (c.arg 2) (rs.map (·.1))).mem)
        ∧ (∀ cause s2, s0.tableImage c = (.error cause, s2) → ∃ t, exec .tblldReload s = .next t ∧ t.ecmd c.id = none
          ∧ t.mem = (s2.writeEntries ctx (c.arg 0) (c.arg 2) (List.replicate (c.arg 3) 0)).mem)))
    ∧ (∀ n, s.subject = [c.id, n] → n ≤ 1 → c.kind = 7 → ((s.ecmds.takeWhile fun x => x.id != c.id).all fun x => !(x.kind == 7 && x.core == c.core && x.pieces.isEmpty)) = true →
      let ch := c.chain
      let ag := s.blockAgent c.bk
      let fails := fun (e : Cause × State) => exec .chainComplete s = .next (e.2.ecmdDone { c with left := [], cause := e.1.code })
      ∀ r i rest p0 p1 s1, c.left = (r, i) :: rest → s.chainParams ag ch c r i = .ok (p0, p1, s1) →
        (∀ e, s1.chainElem ag ch (r * ch.rlen + i) p0 p1 = .error e → fails e)
        ∧ ∀ t fl s2, s1.chainElem ag ch (r * ch.rlen + i) p0 p1 = .ok (t, fl, s2) →
          let cs := (if i = 0 then [] else ((c.pieces.find? fun x => x.1 == 0).map (·.2)).getD []) ++ [t]
          (i + 1 < ch.rlen → exec .chainComplete s = .next (s2.setEcmd
            { c with left := [(r, i + 1)], pieces := [(0, if ch.red = 0 then [] else cs), (1, [p0, p1])], flags := c.flags ||| fl }))
          ∧ (ch.rlen ≤ i + 1 → (∀ e, s2.chainResult ag ch r cs p0 p1 = .error e → fails e)
            ∧ ∀ f s3, s2.chainResult ag ch r cs p0 p1 = .ok (f, s3) → let c1 := { c with pieces := [(0, [])], flags := c.flags ||| fl ||| f }
              ((r + 1) * ch.rlen < layoutCount (ch.l.getD 0 0) → exec .chainComplete s = .next (s3.setEcmd { c1 with left := [(r + 1, 0)] }))
              ∧ (layoutCount (ch.l.getD 0 0) ≤ (r + 1) * ch.rlen → exec .chainComplete s = .next (s3.ecmdDone { c1 with left := [] }))))
    ∧ ∀ b, s.blk c.bk = some b → SMap.wf 0 b.counters = true → (s.ecmdDone c).ecmd c.id = none ∧ ∃ b', (s.ecmdDone c).blk c.bk = some b'
      ∧ SMap.get 0 b'.counters c.counter = SMap.get 0 b.counters c.counter + 1
      ∧ (c.flags = 0 → c.cause = 0 → b'.dones = b.dones) ∧ (¬(c.flags = 0 ∧ c.cause = 0) → b'.dones = b.dones ++ [⟨c.counter, c.flags, c.cause, c.kind, c.gk⟩])

/-- R213, R221, R222, R224, R225, R267, R325: a traversal that owes a report visits its next node or writes its six words to its thread; the earliest record of an outbox
enters the buffer while there is room and stays where there is none and its block is not the lowest; a film's next record is added into its pixel's
pairs and nothing else is stored; a tree request acts in its turn, waits while the tree holds it, and a commit applies what arrived before it. -/
def Obligations.RayFilmTreeEvents : Prop :=
  ∀ (s : State) (gk th bk ctx film : Nat) (g : Grp),
    (∀ t, s.subject = [gk, th] → s.grp gk = some g → SMap.find? g.travs th = some t →
      (t.due = true → (t.empty = true ∨ t.fault ≠ 0 ∨ t.cand ≠ none ∨ t.todo = []) → t.hita = [] → t.pop = [] → g.resident = true → g.tidy → g.alive.getLsbD th = true → th < 96 → t.dest + t.words.length ≤ 128 →
        ∃ u g' t', exec .traversalReport s = .next u ∧ u.grp gk = some g' ∧ u.mem = s.mem ∧ SMap.find? g'.travs th = some t' ∧ t'.due = false
          ∧ (∀ j w, t.words[j]? = some w → SMap.get RegVal.zero g'.v (128 * (t.dest + j) + th) = ⟨BitVec.ofNat 32 w, false⟩)
          ∧ (∀ k, k % 128 ≠ th → SMap.get RegVal.zero g'.v k = SMap.get RegVal.zero g.v k))
      ∧ (t.due = true → t.empty = false → t.fault = 0 → t.cand = none → t.todo ≠ [] → s.mem.latent = [] → s.uncleared gk (BitVec.ofNat 96 (2 ^ th)) t.op = false → ∃ u g', exec .traversalReport s = .next u ∧ u.grp gk = some g' ∧ g'.SameRegs g
          ∧ SMap.find? g'.travs th = some (s.travStep (s.blockAgent g.blk) t).1)
      ∧ (t.due = false → exec .traversalReport s = .next s))
    ∧ (∀ r rest, s.subject = [bk] → s.outbox bk = r :: rest →
      ((s.films.filter fun x => x.die == r.die && x.place == 1).length < filmCapacity → exec .filmOutboxDrain s = .next { s with films := moveFirst bk 1 s.films })
      ∧ (filmCapacity ≤ (s.films.filter fun x => x.die == r.die && x.place == 1).length → s.lowestBlock r.ctx r.task ≠ some r.bid → exec .filmOutboxDrain s = .next s))
    ∧ (∀ r p, s.subject = [ctx, film] → s.nextFilm ctx film = some r → let base := ((s.filmDesc ctx film).extractLsb' 0 64).toNat
      base % 64 = 0 → s.plainParts ctx .atomic (base + 64 * r.pix) 40 = .ok [p] → p.len = 40 → p.home % 64 = 0 → s.Canonical → SMap.get 0 s.mem.latent (p.home / 64) = 0 →
      s.mem.anyPoison p.home 40 = false → s.inOutbox p.home = false → s.inSpawn p.home = false → r.vals.length ≤ 4 →
      ∃ t, exec .filmRecordApply s = .next t ∧ t.films = s.films.erase r
        ∧ t.mem.readLE (p.home + 32) 8 = addPair (s.mem.readLE (p.home + 32) 8) r.weight % 2 ^ 64
        ∧ (∀ k v, r.vals[k]? = some v → t.mem.readLE (p.home + 8 * k) 8 = addPair (s.mem.readLE (p.home + 8 * k) 8) v % 2 ^ 64)
        ∧ ∀ a, (a < p.home ∨ (p.home + 8 * r.vals.length ≤ a ∧ a < p.home + 32) ∨ p.home + 40 ≤ a) → t.mem.byte a = s.mem.byte a)
    ∧ (∀ r rest, s.treeReqs = r :: rest → s.subject = [r.id, r.thread] →
      let s1 := { s with treeReqs := rest }
      (if r.kind = 3 then s.unsettled r.gk r.mask r.id else s.uncleared r.gk (if r.thread = 127 then r.mask else BitVec.ofNat 96 (2 ^ r.thread)) r.id) = false →
      (s1.tree r.ctx r.tree = none → exec .treeRequestArrival s = .next (s1.treeAct r))
      ∧ ∀ tr, s1.tree r.ctx r.tree = some tr → (r.kind = 3 → exec .treeRequestArrival s = .next (s1.treeCommit r))
        ∧ (r.kind ≠ 3 → tr.holds r = true → exec .treeRequestArrival s = .next (s1.setTree r.ctx r.tree { tr with waiting := tr.waiting ++ [r] }))
        ∧ (r.kind ≠ 3 → tr.holds r = false → exec .treeRequestArrival s = .next (s1.treeAct r)))
    ∧ ∀ n tr r rest, s.subject = [ctx, n] → SMap.find? (s.ctx ctx).trees n = some tr → tr.waiting = r :: rest →
      (tr.fullFor r = false → exec .treeStagingEnter s = .next ((s.setTree ctx n { tr with waiting := rest }).treeAct r))
      ∧ (tr.st = 1 → (r.kind = 1 ∨ r.kind = 2) → tr.cap ≤ tr.staged.length → exec .treeStagingEnter s = .next s)

/-- R165, R166, R170, R239, R240, R241, R414, R415, R457: a flit of a put enters its window and counts as delivered; the flag of a PUTF is written after its last flit; a fabric
atomic exchanges its word and answers, or is refused; a put is judged whole before its first flit is written, and one refused writes nothing; an acknowledgement takes the operation away, counts it on its window and leaves a failure for its
group; an operation without an answer fails; a port that trains or fails joins or leaves the ports; an engine arrival is counted on its word or as an
orphan; an hierarchical barrier that is met lets its waiters go, at .POD once the packages it counts have arrived; an arrival that counts them otherwise ends the phase on
this package (log entry 104). No line of memory holds an error not yet found. The timeout of FAAR and CASR, and a window of the own package as the target, are log
entry 62's readings. -/
def Obligations.FabricEvents : Prop :=
  ∀ (s : State) (o : FabOp), s.fabFind o.id = some o → s.mem.latent = [] →
    let own := o.pkg = s.dev.pkgid
    let failed := fun (c : Cause) => s.setFab { o with left := [], stage := 2, cause := c.code }
    (∀ k at' n, s.subject = [0, o.id, k] → o.kind ≤ 1 → k ∈ o.left → s.fabReady o k = true → flitSpan o.off o.len k = (at', n) → let left := o.left.erase k
      (∀ src dst fl, s.putJudge o = .ok (src, dst, fl) → let r := s.readSource o src at' n
        exec .putDelivery s = .next ((if own then r.2.2.deliverBytes o.win n (cutParts dst at' n) r.1 r.2.1 else r.2.2).setFab
          { o with left := left, stage := if own ∧ left = [] ∧ o.kind = 0 then 2 else 1, srcs := src, dsts := dst, flag := fl }))
      ∧ (∀ e, s.putJudge o = .error e → exec .putDelivery s = .next (failed e)))
    ∧ (o.stage ≠ 0 → s.putJudge o = .ok (o.srcs, o.dsts, o.flag))
    ∧ (o.stage = 0 → (∀ e, 0 < o.len → s.resolve (s.blockAgent o.bk) .read o.src o.len = .error e → s.putJudge o = .error e.1)
      ∧ ∀ ps, s.sourceParts o = .ok ps → s.putJudge o =
          if own then match s.putTarget o.win o.off o.len (if o.kind = 1 then some o.a else none) with | .error c => .error c | .ok x => .ok (ps, x.1, x.2) else .ok (ps, [], []))
    ∧ (∀ src at' n ps, 0 < n → s.resolve (s.blockAgent o.bk) .read (o.src + at') n = .ok ps → s.readSource o src at' n = s.readMarked (some (s.blockAgent o.bk).ctx) ps)
    ∧ (∀ ps off n, off + n ≤ (ps.map fun p : Part => p.len).sum → ((cutParts ps off n).map fun p : Part => p.len).sum = n)
    ∧ (∀ id win off len flag c, s.dev.putsIn.find? (fun p => p.id == id) = none → s.putTarget win off len flag = .error c → (s.putInOf id win off len flag).refused = true)
    ∧ (∀ a : List Nat, let x := fun k => a.getD k 0
      ((s.putInOf (x 7) (x 0) (x 1) (x 2) (if x 8 = 0 then none else some (x 8 - 1))).refused = true → (s.flitIn a).mem = s.mem)
      ∧ ((s.putInOf (x 3) (x 0) (x 4) (x 5) (some (x 1))).refused = true → (s.flagIn a).mem = s.mem))
    ∧ (∀ k at' n, k < flitCount o.off o.len → flitSpan o.off o.len k = (at', n) → at' + n ≤ o.len ∧ n ≤ 256 ∧ (k + 1 < flitCount o.off o.len → (o.off + at' + n) % 256 = 0))
    ∧ (∀ win w n x zs ps, SMap.find? s.windows win = some w → ∃ w', SMap.find? (s.deliverBytes win n ps x zs).windows win = some w'
        ∧ w' = { w with deliv := (w.deliv + n) % 2 ^ 64 } ∧ (s.deliverBytes win n ps x zs).mem = (s.programWrite (markedBytes zs ps x)).mem)
    ∧ (∀ kind a, (s.linkHeld (a.getD 0 0) = true → s.linkIn kind a = { s with dev := { s.dev with linkWait := s.dev.linkWait ++ [(kind, a)] } })
      ∧ (s.subject = 1 :: a → exec .putDelivery s = .next (s.linkIn 0 a) ∧ exec .putfFlagWrite s = .next (s.linkIn 1 a) ∧ exec .fabricAtomicAtTarget s = .next (s.linkIn 2 a)))
    ∧ (s.subject = [0, o.id] → own → o.kind = 1 → o.stage = 1 → o.left = [] → s.linkHeld o.win = false →
        exec .putfFlagWrite s = .next ((s.programWrite (partBytes false o.flag o.b)).setFab { o with stage := 2 }))
    ∧ (o.left ≠ [] → s.subject = [0, o.id] → exec .putfFlagWrite s = .next s)
    ∧ (s.subject = [0, o.id] → ¬own → 2 ≤ o.kind → o.stage = 0 → s.fabReady o 0 = true → exec .fabricAtomicAtTarget s = .next (s.setFab { o with stage := 1, left := [] }))
    ∧ (∀ old z, s.subject = [3, o.id, old, if z then 1 else 0, 0] → old < 2 ^ 64 → ¬own → 2 ≤ o.kind → o.stage = 1 → ∃ t, exec .fabricAtomicAtTarget s = .next t ∧ t.mem = s.mem
        ∧ t.results = s.results ++ [{ id := o.id, gk := o.gk, cls := .other, mask := ~~~0, vw := [], flags := 0, sw := [(o.dest, ⟨BitVec.ofNat 32 old, z⟩), (o.dest + 1, ⟨BitVec.ofNat 32 (old / 2 ^ 32), z⟩)] }]
        ∧ t.fabFind o.id = some { o with left := [], stage := 2, cause := 0 })
    ∧ (s.subject = [0, o.id] → own → 2 ≤ o.kind → o.stage = 0 → s.fabReady o 0 = true →
      (∀ old z s1, s.fabAtomic o.win o.off o.kind o.a o.b = .ok (old, z, s1) → ∃ t, exec .fabricAtomicAtTarget s = .next t ∧ t.mem = s1.mem
        ∧ t.results = s1.results ++ [{ id := o.id, gk := o.gk, cls := .other, mask := ~~~0, vw := [], flags := 0, sw := [(o.dest, ⟨BitVec.ofNat 32 old, z⟩), (o.dest + 1, ⟨BitVec.ofNat 32 (old / 2 ^ 32), z⟩)] }]
        ∧ t.fabFind o.id = some { o with left := [], stage := 2, cause := 0 })
      ∧ (∀ c, s.fabAtomic o.win o.off o.kind o.a o.b = .error c → c.code ≠ 0 → ∃ t, exec .fabricAtomicAtTarget s = .next t ∧ t.mem = s.mem
        ∧ t.fabFind o.id = some { o with left := [], stage := 2, cause := c.code }))
    ∧ (∀ w g, s.subject = [0, o.id] → o.stage = 2 → o.kind ≤ 1 → SMap.find? s.windows o.win = some w → s.grp o.gk = some g →
      ∃ t g', exec .putAck s = .next t ∧ t.fabFind o.id = none ∧ SMap.find? t.windows o.win = some { w with acked := (w.acked + o.len) % 2 ^ 64 } ∧ t.grp o.gk = some g'
        ∧ g'.fabricFail = (if o.cause = 0 then g.fabricFail else g.fabricFail ++ [(o.win, o.pkg, o.cause)]) ∧ g'.SameRegs g ∧ t.mem = s.mem)
    ∧ (∀ cause w g, s.subject = [1, o.id, cause] → ¬own → o.stage = 1 → o.kind ≤ 1 → (cause ≠ 0 ∨ o.left = []) → SMap.find? s.windows o.win = some w → s.grp o.gk = some g →
      ∃ t g', exec .putAck s = .next t ∧ t.fabFind o.id = none ∧ SMap.find? t.windows o.win = some { w with acked := (w.acked + o.len) % 2 ^ 64 } ∧ t.grp o.gk = some g'
        ∧ g'.fabricFail = (if cause = 0 then g.fabricFail else g.fabricFail ++ [(o.win, o.pkg, cause)]) ∧ g'.SameRegs g ∧ t.mem = s.mem)
    ∧ (s.subject = [o.id] → ¬own → o.stage ≠ 2 → o.since + 700000 ≤ s.clock → o.kind ≤ 1 → exec .fabricDeliveryTimeout s = .next (failed .fabric))
    ∧ (s.subject = [o.id] → ¬own → o.stage ≠ 2 → o.since + 700000 ≤ s.clock → 2 ≤ o.kind → ∃ t, exec .fabricDeliveryTimeout s = .next t ∧ t.mem = s.mem
        ∧ t.fabFind o.id = some { o with left := [], stage := 2, cause := 0x13 })
    ∧ (s.subject = [o.id] → (own ∨ s.clock < o.since + 700000) → exec .fabricDeliveryTimeout s = .next s)
    ∧ (∀ target flit p, s.dev.portFor target flit = some p → s.dev.ports.getLsbD p = true ∧ ∃ j, j < 18 ∧ p = (target + flit + j) % 18 ∧ ∀ k, k < j → s.dev.ports.getLsbD ((target + flit + k) % 18) = false)
    ∧ (∀ port, port < 18 → s.subject = [port] → ∃ t, exec .ualinkPortFailure s = .next t ∧ t.dev.ports.getLsbD port = false
        ∧ (∀ k, k ≠ port → t.dev.ports.getLsbD k = s.dev.ports.getLsbD k) ∧ t.fab = s.fab ∧ t.mem = s.mem)
    ∧ (∀ port, port < 18 → s.subject = [port, 1] → s.dev.ready = true → ∃ t, exec .ualinkPortTrained s = .next t ∧ t.dev.ports.getLsbD port = true
        ∧ (∀ k, k ≠ port → t.dev.ports.getLsbD k = s.dev.ports.getLsbD k) ∧ t.fab = s.fab ∧ t.mem = s.mem)
    ∧ (∀ k home n, s.subject = [k] → s.bars[k]? = some (home, n) → exec .barrierArrival s = .next (State.engineArrive { s with bars := s.bars.eraseIdx k } home n))
    ∧ (∀ home n, s.mem.latent = [] → barKind (s.mem.readLE home 8) = 2 → let w := s.mem.readLE home 8
        s.engineArrive home n = s.wordArrive home 2 (barPhase w) (barBroken w) (barExpected w) (barArrived w + n + 1) (barArrived w + n))
    ∧ (∀ k home n, s.subject = [k] → s.bars[k]? = some (home, n) → s.mem.latent = [] → barKind (s.mem.readLE home 8) ≠ 2 → ∃ t, exec .barrierArrival s = .next t ∧ t.bars = s.bars.eraseIdx k
        ∧ t.mem = s.mem ∧ t.groups = s.groups ∧ (t.core (coreOfPA home)).orphan = min ((s.core (coreOfPA home)).orphan + 1) (2 ^ 32 - 1))
    ∧ (∀ bk b scope, s.subject = [bk, scope] → scope ≠ 6 → s.blk bk = some b →
      (s.hbarMet b scope = true → exec .hbarComplete s = .next (s.hbarRelease ((s.scopeBlocks b scope).map (·.1)) scope)) ∧ (s.hbarMet b scope = false → exec .hbarComplete s = .next s))
    ∧ (∀ bk b, s.subject = [bk, 6] → s.blk bk = some b → s.hbarMet b 6 = true → let c := s.ctx b.ctx
      ((∀ a ∈ s.dev.podNow c.pgid, a.2 ≠ s.dev.pkgid) → exec .hbarComplete s = .next
          (({ s with dev := { s.dev with podOwn := SMap.put s.dev.podOwn c.pgid ((s.scopeBlocks b 6).map (·.1)) } } : State).podArrive c.pgid c.pgcnt s.dev.pkgid))
      ∧ ((∃ a ∈ s.dev.podNow c.pgid, a.2 = s.dev.pkgid) → exec .hbarComplete s = .next s))
    ∧ (∀ pg cnt pkg, s.subject = [pg, cnt, pkg] → (pkg = s.dev.pkgid → exec .podBarrierArrival s = .next s)
      ∧ (pkg ≠ s.dev.pkgid → exec .podBarrierArrival s = .next (s.podArrive pg cnt pkg))
      ∧ (pkg ≠ s.dev.pkgid → s.dev.podPhaseOf pg = SMap.get 0 s.dev.podSeen (512 * pg + pkg) → s.podBlocks pg = [] → (∀ a ∈ s.dev.podNow pg, a.2 ≠ s.dev.pkgid) →
        ∃ t, exec .podBarrierArrival s = .next t ∧ t.dev.pod = s.dev.pod ++ [(pg, cnt, pkg, s.dev.podPhaseOf pg)] ∧ t.groups = s.groups ∧ t.mem = s.mem))
    ∧ ∀ pg, let counts := (s.podBlocks pg).filterMap fun k => (s.blk k).map fun b => (s.ctx b.ctx).pgcnt
      ((∃ a ∈ s.dev.podNow pg, ∃ n ∈ counts, n ≠ a.1) → s.podSettle pg =
          State.trapWaiters { s with dev := s.dev.podNext pg, blocks := s.blocks.map fun (e : Nat × Blk) =>
            (e.1, if (s.podBlocks pg).contains e.1 then { e.2 with hbarArr := SMap.del e.2.hbarArr 6 } else e.2) }
            (fun g => (s.podBlocks pg).contains g.blk) (fun w => match w with | .hbar 6 _ => true | _ => false) (trap .barrierMismatch))
      ∧ ((∀ a ∈ s.dev.podNow pg, ∀ n ∈ counts, n = a.1) → (∃ a ∈ s.dev.podNow pg, a.2 = s.dev.pkgid ∧ a.1 ≤ (s.dev.podNow pg).length) →
        s.podSettle pg = State.hbarRelease { s with dev := s.dev.podNext pg } (SMap.get [] s.dev.podOwn pg) 6)
      ∧ ((∀ a ∈ s.dev.podNow pg, ∀ n ∈ counts, n = a.1) → (∀ a ∈ s.dev.podNow pg, a.2 = s.dev.pkgid → (s.dev.podNow pg).length < a.1) → s.podSettle pg = s)

/-- R374, R375, R385, R388, R412, R434, R435: a coalesced record closes 256 clocks after its first event; a record enters its context's ring, whose producer count rises, and
one of KIND 2 or 3 is dropped while the ring is full; a raise that waits is signalled 4,096 clocks after the last message; a held error record enters the
log while it has room, and while it has none those of class 1 are dropped and the others stay; a walk that ends at a legal leaf is held for the
whole page by the cores that wait for it and their clusters, the table entries on the way by the die's walkers, and a fault is held nowhere; the scrubber
reads on, mends what can be mended and marks what cannot, whose record is performed at once while the log has room. That a faulted write to the ring raises
EVPROD all the same is log entry 62, which lines the scrubber reads in what order entry 69.

R385, R426, R427, R436, R462: an error in the package's storage: a cached translation goes; a predicate or index register counts as damaged until it is written; an error in a
group's control state stops every path of the group with reason 16 under the stop's tag, or under that of the open record it merges into; one of the task unit is
fatal, and what ran on the compute dies is lost; a line is in error until it is next met, an uncorrectable error the graver; a register is
poisoned, its value unspecified (the readings of log entry 69). -/
def Obligations.RecordsAndStorageErrors : Prop :=
  (∀ (s : State) (core ctx v : Nat),
    (s.subject = [core] → ∀ t0 r rest, (s.core core).coalescer = (t0, r) :: rest →
      (s.clock < t0 + 256 → exec .coalescerClose s = .next s)
      ∧ (t0 + 256 ≤ s.clock → ∃ t, exec .coalescerClose s = .next t ∧ t.records = s.records ++ [r] ∧ (t.core core).coalescer = rest ∧ t.groups = s.groups ∧ t.mem = s.mem))
    ∧ (s.subject = [ctx] → let c := s.ctx ctx
      let full := (c.evprod + 2 ^ 32 - c.evcons) % 2 ^ 32 = 2 ^ c.evlog2
      (∀ r rest, s.records = r :: rest → r.ctx = ctx → ¬full → let s1 := { s with records := rest }
        let keeps := fun (m : Memory) => ∃ t, exec .eventRingWrite s = .next t ∧ t.records = rest ∧ (t.ctx ctx).evprod = (c.evprod + 1) % 2 ^ 32
          ∧ (t.ctx ctx).evcons = c.evcons ∧ t.mem = m
        (∀ x, s1.storeNow (homeAgent ctx) (c.evbase + 64 * (c.evprod % 2 ^ c.evlog2)) 64 r.bits.toNat false = .ok x → keeps x.mem)
        ∧ (∀ e, s1.storeNow (homeAgent ctx) (c.evbase + 64 * (c.evprod % 2 ^ c.evlog2)) 64 r.bits.toNat false = .error e → keeps s.mem))
      ∧ (∀ r rest, s.records = r :: rest → r.ctx = ctx → full → (r.kind = 2 ∨ r.kind = 3) → ∃ t, exec .eventRingWrite s = .next t ∧ t.records = rest ∧ t.mem = s.mem
          ∧ (t.ctx ctx).evprod = c.evprod ∧ ((t.ctx ctx).desc.extractLsb' 944 16).toNat = min ((c.desc.extractLsb' 944 16).toNat + 1) 65535)
      ∧ (full → (∀ r ∈ s.records, r.ctx = ctx → r.kind ≠ 2 ∧ r.kind ≠ 3) → exec .eventRingWrite s = .next s))
    ∧ (s.subject = [v] → ∀ last, SMap.find? s.dev.msix v = some (last, true) → (s.clock < last + 4095 → exec .msixModerationExpiry s = .next s)
      ∧ (last + 4095 ≤ s.clock → ∃ t, exec .msixModerationExpiry s = .next t ∧ SMap.find? t.dev.msix v = some (s.clock + 1, false)
          ∧ SMap.get 0 t.dev.sent v = SMap.get 0 s.dev.sent v + 1 ∧ t.mem = s.mem ∧ t.groups = s.groups))
    ∧ (∀ r rest, s.errlog.held = r :: rest → (s.errlog.prod - s.errlog.cons = 64 → ∃ t, exec .errorLogWrite s = .next t
          ∧ t.errlog.held = s.errlog.held.filter (fun x => decide (errClass x ≠ 1)) ∧ t.errlog.recs = s.errlog.recs ∧ t.errlog.prod = s.errlog.prod
          ∧ t.errlog.cons = s.errlog.cons ∧ t.mem = s.mem ∧ t.groups = s.groups
          ∧ (s.errlog.cedrop ≤ 65535 → t.errlog.cedrop = min (s.errlog.cedrop + (s.errlog.held.filter fun x => decide (errClass x = 1)).length) 65535))
      ∧ (s.errlog.prod - s.errlog.cons ≠ 64 → ∃ t, exec .errorLogWrite s = .next t ∧ t.errlog.held = rest ∧ t.errlog.prod = s.errlog.prod + 1 ∧ t.errlog.cons = s.errlog.cons
          ∧ SMap.find? t.errlog.recs (s.errlog.prod.toNat % 64) = some (r ||| BitVec.ofNat 512 (s.errlog.prod.toNat * 2 ^ 352)) ∧ t.mem = s.mem))
    ∧ (∀ die page, s.subject = [die, ctx, page] → let mine := fun (w : Walk) => w.die == die && w.ctx == ctx && w.page == page
      ((s.walks.find? fun w => mine w && w.st == 2) = none → exec .tlbWalkComplete s = .next s)
      ∧ (∀ w, (s.walks.find? fun w => mine w && w.st == 2) = some w → ∃ t, exec .tlbWalkComplete s = .next t ∧ t.mem = s.mem ∧ t.groups = s.groups
          ∧ (∀ x ∈ t.walks, mine x = false)
          ∧ (let met := fun (y : Nat × Nat) => (⟨2, die, ctx, 65536 * page / 2 ^ y.1 * 2 ^ y.1, y.1, BitVec.ofNat 64 y.2⟩ : TlbEnt)
            let walkers := fun (x : TlbEnt) => x.kind == 2 && x.unit == die
            (((s.tlb.filter walkers).length + w.tables.length ≤ 4096 ∧ (w.tables.map (·.1)).Nodup) → ∀ y ∈ w.tables, met y ∈ t.tlb)
            ∧ ((∀ e size, w.answer ≠ .leaf e size) → t.tlb.filter (fun x => x.kind != 2) = s.tlb.filter (fun x => x.kind != 2))
            ∧ (∀ e size, w.answer = .leaf e size → let ent := fun (kind unit : Nat) => (⟨kind, unit, ctx, 65536 * page / size * size, Nat.log2 size, BitVec.ofNat 64 e⟩ : TlbEnt)
              (∀ c, leafOf e size = .error c → t.tlb.filter (fun x => x.kind != 2) = s.tlb.filter (fun x => x.kind != 2))
              ∧ (∀ l, leafOf e size = .ok l → (∀ k ∈ w.cores, ent 0 k ∈ t.tlb ∧ ent 1 (clusterOf k) ∈ t.tlb)
                ∧ ∀ x ∈ t.tlb, x ∈ s.tlb ∨ (∃ y ∈ w.tables, x = met y) ∨ ∃ k ∈ w.cores, x = ent 0 k ∨ x = ent 1 (clusterOf k))))))
    ∧ (let line := scrubLine s.dev.scrub; SMap.wf 0 s.mem.latent = true → SMap.wf false s.mem.poison = true → s.errlog.held.length < 4096 → ∃ t, exec .scrub s = .next t
        ∧ t.dev.scrub = (s.dev.scrub + 1) % (16 * (stackBytes / 64) + 1152 * 2 ^ 14) ∧ t.mem.bytes = s.mem.bytes ∧ t.groups = s.groups
        ∧ ((SMap.get false s.mem.poison line = true ∨ SMap.get 0 s.mem.latent line = 0) → t.mem = s.mem ∧ t.errlog = s.errlog)
        ∧ (SMap.get false s.mem.poison line = false → SMap.get 0 s.mem.latent line = 1 → SMap.get 0 t.mem.latent line = 0 ∧ t.mem.poison = s.mem.poison
            ∧ t.errlog.cecnt = min (s.errlog.cecnt + 1) (2 ^ 32 - 1))
        ∧ (SMap.get false s.mem.poison line = false → SMap.get 0 s.mem.latent line = 2 → SMap.get false t.mem.poison line = true
            ∧ (∀ k, k ≠ line → SMap.get false t.mem.poison k = SMap.get false s.mem.poison k) 
            ∧ (s.errlog.prod - s.errlog.cons = 64 → t.errlog.held.length = s.errlog.held.length + 1 ∧ t.errlog.prod = s.errlog.prod)
            ∧ (s.errlog.prod - s.errlog.cons ≠ 64 → s.errlog.held = [] → t.errlog.held = [] ∧ t.errlog.prod = s.errlog.prod + 1))))
  ∧ (∀ (s : State) (gk n : Nat) (g : Grp),
    (s.subject = [0, n] → exec .controlStateError s = .next { s with tlb := s.tlb.eraseIdx n })
    ∧ (∀ k, s.subject = [1, gk, k, n] → s.grp gk = some g →
      exec .controlStateError s = .next (s.setGrp gk { g with damaged := g.damaged ++ [match k with | 0 => .p n | 1 => .q n | _ => .x n] }))
    ∧ (∀ b, s.subject = [2, gk] → s.grp gk = some g → s.blk g.blk = some b → g.alive ≠ 0 → s.errlog.held.length < 4096 →
      let r : Rec := { recOf g b with kind := 1, cause := 0x0B, mask := g.alive, tag := s.seq }
      let open' := (s.core b.core).coalescer.find? fun o => o.2.merges r
      let tag := match open' with | some o => o.2.tag | none => s.seq
      ∃ t g', exec .controlStateError s = .next t ∧ t.grp gk = some g' ∧ g'.SameRegs g
        ∧ t.mem = s.mem ∧ (∀ p ∈ g'.paths, p.st = .free ∨ (p.st = .stopped ∧ p.wait = .escalated (controlTag + tag)))
        ∧ (open' = none → (t.core b.core).coalescer = (s.core b.core).coalescer ++ [(s.clock, r)])
        ∧ ∀ i, i < g.paths.length → ((g'.path i).st = .free ↔ (g.path i).st = .free) ∧ (g'.path i).pc = (g.path i).pc ∧ (g'.path i).mask = (g.path i).mask)
    ∧ (s.subject = [4] → s.fatal = false → ∃ t, exec .controlStateError s = .next t ∧ t.fatal = true ∧ t.dev.rsn = (if s.dev.ready = true ∨ s.dev.axolotl = true then 11 else 9)
        ∧ t.groups = [] ∧ t.blocks = [] ∧ t.tasks = [] ∧ t.mem.bytes = [] ∧ t.dev.kept = s.dev.kept)
    ∧ (s.subject = [4] → s.fatal = true → exec .controlStateError s = .next s)
    ∧ (∀ line k, s.subject = [5, line, k] → (k = 1 ∨ k = 2) → SMap.wf 0 s.mem.latent = true → ∃ t, exec .controlStateError s = .next t ∧ SMap.get 0 t.mem.latent line = max (SMap.get 0 s.mem.latent line) k
        ∧ t.mem.bytes = s.mem.bytes ∧ t.mem.poison = s.mem.poison ∧ t.groups = s.groups)
    ∧ (∀ u, s.subject = [6, gk, n, u] → n < 128 → u < 96 → s.grp gk = some g → g.tidy → s.errlog.held.length < 4096 → ∃ t g', exec .controlStateError s = .next t ∧ t.grp gk = some g'
        ∧ SMap.get RegVal.zero g'.v (128 * n + u) = ⟨(Config.freeValue s.free).extractLsb' 0 32, true⟩
        ∧ (∀ k, k ≠ 128 * n + u → SMap.get RegVal.zero g'.v k = SMap.get RegVal.zero g.v k) ∧ g'.s = g.s ∧ g'.paths = g.paths ∧ t.mem = s.mem)
    ∧ (s.subject = [7, gk, n] → s.grp gk = some g → g.tidy → s.errlog.held.length < 4096 → ∃ t g', exec .controlStateError s = .next t ∧ t.grp gk = some g'
        ∧ SMap.get RegVal.zero g'.s n = ⟨(Config.freeValue s.free).extractLsb' 0 32, true⟩
        ∧ (∀ k, k ≠ n → SMap.get RegVal.zero g'.s k = SMap.get RegVal.zero g.s k) ∧ g'.v = g.v ∧ g'.paths = g.paths ∧ t.mem = s.mem))

/-- R244, R253, R355, R356, R357, R358, R361, R362, R378, R379, R380, R382, R383, R384: a turn passes on when it has ended; the context in turn places the next block of its first task that can be
placed, each group with one LIVE path of all its threads at the entry and the parameter in s0 and s1; a task blocked for 65,536 clocks with another behind it
in the queue order is reserving, and then the only one placed (what counts as blocked is log entry 42); a
quantum's last clock is charged; a group of a context being suspended leaves, and one whose turn it is comes back; a block that may retire gives up
its groups and its frame and is counted; a task that has met its end is written back and arms its successors, and where a write-back faults the launch ends FAULTED
(log entry 41); at the end of an interval the counts start afresh, and a chosen block stands on its new core with its footprint and its claim (log entry 98). -/
def Obligations.PlacementEvents : Prop :=
  ∀ (s : State) (ctx idx bk gk core : Nat),
    (s.turnOpen = true → exec .dispatchTurn s = .next s)
    ∧ (∀ c, s.turnOpen = false → s.nextTurn = some c → exec .dispatchTurn s = .next { s with turn := (c, 0, (s.ctx c).weight) })
    ∧ (s.turnOpen = false → s.nextTurn = none → exec .dispatchTurn s = .next { s with turn := (s.turn.1, 0, 0) })
    ∧ (∀ c, s.nextTurn = some c → (s.placeable c).isSome = true ∧ ∃ i, i < 64 ∧ c = (s.turn.1 + 1 + i) % 64 ∧ ∀ j, j < i → s.placeable ((s.turn.1 + 1 + j) % 64) = none)
    ∧ (∀ s1 w, s.turn = (ctx, 0, w) → 0 < w → s.placeable ctx = some idx → s.tryPlace ctx idx = some s1 → s.leaving = [] → ∃ t, exec .blockPlacement s = .next t
        ∧ t.groups = s1.groups ∧ t.blocks = s1.blocks ∧ t.tasks = s1.tasks ∧ t.mem = s1.mem ∧ t.turn.1 = ctx ∧ t.turn.2.2 = w)
    ∧ (s.placeable s.turn.1 = none → exec .blockPlacement s = .next s)
    ∧ (∀ tk frame bid base, s.task ctx idx = some tk → (tk.status = 2 ∨ tk.status = 3) → tk.ending = 0 → s.freeFrame ctx = some frame → ∃ (t : State) (b : Blk) (tk' : Task),
        s.place ctx idx bid core base = some (if tk.status = 3 then t.setTask ctx idx tk' else t.putTask ctx idx tk tk')
        ∧ tk'.status = 3 ∧ tk'.placed = max tk.placed (bid + 1) ∧ tk'.since = s.clock ∧ (bid + 1 = tk.nblk → tk'.reserving = none) ∧ tk'.retired = tk.retired
        ∧ t.blk s.seq = some b ∧ b.ctx = ctx ∧ b.task = idx ∧ b.bid = bid ∧ b.core = core ∧ b.frame = frame ∧ b.gpb = tk.gpb ∧ b.regs = tk.regs ∧ b.xregs = tk.xregs
        ∧ ∀ j, j < tk.gpb → ∃ g, t.grp (16 * s.seq + j) = some g ∧ g.gix = j ∧ g.blk = s.seq ∧ g.resident = true ∧ g.alive = ~~~0
          ∧ (g.path 0).st = .live ∧ (g.path 0).pc = BitVec.ofNat 64 (tk.f 0 64) ∧ (g.path 0).mask = ~~~0 ∧ (∀ k, 0 < k → (g.path k).st = .free)
          ∧ (SMap.get RegVal.zero g.s 0).val = BitVec.ofNat 32 (tk.f 64 64) ∧ (SMap.get RegVal.zero g.s 1).val = BitVec.ofNat 32 (tk.f 64 64 / 2 ^ 32)
          ∧ g.flags = 0 ∧ g.partn = 32)
    ∧ (∀ tk, s.subject = [ctx, idx] → s.task ctx idx = some tk → (tk.status = 2 ∨ tk.status = 3) → tk.ending = 0 → tk.placed < tk.nblk →
      (∀ before t next rest, s.inOrder ctx = before ++ (taskKey ctx idx, t) :: next :: rest → (∀ e ∈ before, e.1 ≠ taskKey ctx idx) →
        (t.since + 65536 ≤ s.clock → t.reserving = none → exec .reservingTimeout s = .next (s.setTask ctx idx { tk with reserving := some s.clock }))
        ∧ ((s.clock < t.since + 65536 ∨ t.reserving ≠ none) → exec .reservingTimeout s = .next s))
      ∧ (∀ before t, s.inOrder ctx = before ++ [(taskKey ctx idx, t)] → (∀ e ∈ before, e.1 ≠ taskKey ctx idx) → exec .reservingTimeout s = .next s)
      ∧ (∀ before first rest, s.inOrder ctx = before ++ first :: rest → (∀ e ∈ before, e.2.reserving = none) → first.2.reserving ≠ none → s.queue ctx = [first.1 % 65536])
      ∧ ((∀ e ∈ s.inOrder ctx, e.2.reserving = none) → s.queue ctx = (s.inOrder ctx).map fun e => e.1 % 65536)
      ∧ (idx < 65536 → s.noteBlocked.task ctx idx = some
          (if (s.ctx ctx).susp = true ∨ s.suspending ctx = true ∨ (s.tryPlace ctx idx).isSome = true then { tk with since := s.clock } else tk)))
    ∧ (∀ b, s.subject = [bk] → s.blk bk = some b → 0 < b.quantum → b.used + 1 = b.quantum * 1024 →
      exec .quantumExpiry s = .next (s.setBlk bk { b with used := b.quantum * 1024 }))
    ∧ (∀ g b, s.subject = [gk] → s.grp gk = some g → s.blk g.blk = some b →
      (∀ s1, g.resident = true → s.suspending b.ctx = true → g.settled = true → s.evictGroup s.seq gk = some s1 → exec .groupEvict s = .next s1
        ∧ ∃ g', s1.grp gk = some g' ∧ g'.resident = false ∧ g'.alive = g.alive ∧ g'.v = g.v ∧ g'.s = g.s ∧ ∀ p ∈ g'.paths, p.dist = [])
      ∧ (g.settled = false → exec .groupEvict s = .next s)
      ∧ (s.suspending b.ctx = false → exec .groupEvict s = .next s)
      ∧ (s.mayReturn gk = false → exec .groupReturn s = .next s)
      ∧ (∀ s1, s.mayReturn gk = true → s.areaBack g b = some (true, s1) → s1.grp gk = some g → ∃ t g', exec .groupReturn s = .next t ∧ t.grp gk = some g' ∧ g'.resident = true
          ∧ g'.v = g.v ∧ g'.s = g.s ∧ g'.flags = g.flags ∧ g'.starve = 0 ∧ g'.promoted = false ∧ t.mem = s1.mem)
      ∧ (s.mayReturn gk = true → s.areaBack g b = none → exec .groupReturn s = .next (s.restoreFault g b (s.frameVA b g.rowsAt))))
    ∧ (∀ b tk, s.subject = [bk] → s.blk bk = some b →
      (s.mayRetire bk = false → exec .blockRetire s = .next s)
      ∧ (s.mayRetire bk = true → b.clsz = 0 → SMap.sorted s.blocks = true → s.leftFailures b = [] → s.task b.ctx b.task = some tk → tk.kept = false → tk.status = 3 → tk.ending = 0 →
        ∃ (t : State) (tk' : Task), exec .blockRetire s = .next ((t.putTask b.ctx b.task tk tk').endIfEmpty b.ctx b.task) ∧ t.blk bk = none ∧ (∀ e ∈ t.groups, e.2.blk ≠ bk)
          ∧ (t.ctx b.ctx).frames = (s.ctx b.ctx).frames.erase b.frame ∧ t.tasks = s.tasks ∧ t.mem = s.mem
          ∧ tk'.status = 3 ∧ tk'.retired = tk.retired + 1 ∧ tk'.done = tk.done ++ [b.bid] ∧ tk'.pfx = prefixFrom (tk.done ++ [b.bid]) (tk.done.length + 1) tk.pfx
          ∧ (∀ s1, t.writeBack b.ctx b.task true tk tk' = .ok s1 → exec .blockRetire s = .next (s1.setTask b.ctx b.task tk'))
          ∧ (∀ c, t.writeBack b.ctx b.task true tk tk' = .error c →
            exec .blockRetire s = .next (((t.setTask b.ctx b.task { tk' with kept := true }).fault 0 (checkRec b.ctx b.task c.code 0)).endIfEmpty b.ctx b.task))))
    ∧ (s.subject = [ctx, idx] → (s.taskMet ctx idx = false → exec .taskDone s = .next s)
      ∧ (∀ tk, s.taskMet ctx idx = true → s.task ctx idx = some tk → tk.kept = false → SMap.sorted s.tasks = true →
        (∀ s1, s.writeBack ctx idx true tk { tk with status := 4 } = .ok s1 → ∃ (t : State), t.task ctx idx = none ∧ t.mem = s1.mem ∧ t.blocks = s1.blocks
          ∧ t.dev.syncpend = (if tk.markAtDone = true ∧ s1.dev.syncpend < 65535 then s1.dev.syncpend + 1 else s1.dev.syncpend)
          ∧ exec .taskDone s = .next (tk.succ.foldl (fun x i => (x.arm ctx i 0 0).2) t))
        ∧ (∀ c, s.writeBack ctx idx true tk { tk with status := 4 } = .error c →
          exec .taskDone s = .next ((s.setTask ctx idx { tk with kept := true }).fault 0 (checkRec ctx idx c.code 0)))))
    ∧ (s.clock % 65536 ≠ 0 → exec .leapInterval s = .next s)
    ∧ (s.clock % 65536 = 0 → s.cores.any (fun e => e.2.issuedIn != 0 || e.2.crowdedIn != 0) = true → ∃ t, exec .leapInterval s = .next t
        ∧ (∀ e ∈ t.cores, e.2.issuedIn = 0 ∧ e.2.crowdedIn = 0) ∧ t.groups = s.groups ∧ t.mem = s.mem
        ∧ (t.dev.leap = s.dev.leap ∨ ∃ x, s.dev.leap = [] ∧ t.dev.leap = [x] ∧ x ∈ s.leapMoves))
    ∧ (s.subject = [bk, core] → s.dev.leap.contains (bk, core) = false → exec .leapMove s = .next s)
    ∧ (∀ b base, s.subject = [bk, core] → s.dev.leap.contains (bk, core) = true → s.blk bk = some b → s.movable bk b = true → s.fitsOn b core = true →
      (s.mayMove bk b = false → exec .leapMove s = .next s)
      ∧ (s.mayMove bk b = true → s.freeBase [core] b.fsize = some base → core ≠ b.core → b.fbase + b.fsize ≤ 2 ^ 20 → s.Canonical →
        (∀ e ∈ (s.mx b.core).slots, e.1 / 16 ≠ bk) → (s.mx b.core).prev ≠ some bk → ∃ t b', exec .leapMove s = .next t
        ∧ ((s.mx b.core).claim = some bk → (t.mx b.core).claim = none ∧ ((s.mx core).claim = none → (t.mx core).claim = some bk))
        ∧ t.blk bk = some b' ∧ b'.core = core ∧ b'.fbase = base ∧ b'.bid = b.bid ∧ b'.task = b.task
        ∧ (∀ k, k < b.fsize → t.mem.byte (slicePA core base + k) = s.mem.byte (slicePA b.core b.fbase + k))
        ∧ ∀ a, (a < slicePA core base ∨ slicePA core base + b.fsize ≤ a) → t.mem.byte a = s.mem.byte a))
    ∧ ∀ b, s.subject = [bk, core] → s.blk bk = some b → let lo := slicePA b.core b.fbase
      let out := s.reqs.any fun r => r.core == core && r.parts.any fun p => decide (lo ≤ p.home ∧ p.home < lo + b.fsize)
      (out = true → exec .leapForwardAck s = .next s) ∧ (out = false → exec .leapForwardAck s = .next (s.setBlk bk { b with fwd := b.fwd.erase core }))

/-- R364, R369, R374, R381, R390, R404, R413, R457: a command ends with BUSY clear and its RESULT: before READY and in the fatal state with BADSTATE, for a context that is not valid with BADCTX, for
arguments outside their rules with BADARG; CREATE makes the context valid with its ring empty; INVAL takes every cached entry of its range; SUSPEND sets
SUSP when all is saved and RESUME clears it when all is back; PRESUME lets the paths of a stop go on; TBUILD, TDROP, WREG and WUNREG act on the tree and
window they name, by the arguments held when the command was started (R369); CANCEL makes a WAITING or READY task CANCELLED, ends a RUNNING one, whose status is
written once no block is left, and leaves others alone; DESTROY waits until nothing of the context is left. That a write-back of CANCEL that faults ends the task
FAULTED is log entry 41; how commands that take time end is entries 63 and 78. -/
def Obligations.CommandResults : Prop :=
  ∀ (s : State) (ctx : Nat),
    let cmd := fun (code : Nat) (begun : Bool) => s.dev.busy = some (code, ctx, begun)
    let live := s.dev.ready = true ∧ s.fatal = false
    let c := s.ctx ctx
    let valid := c.valid = true
    let n := (s.dev.carg 0).toNat
    let gives := fun (i : Instr) (r : Nat) => exec i s = .next { s with dev := { s.dev with busy := none, result := r } }
    let begins := fun (i : Instr) (code : Nat) => exec i s = .next { s with dev := { s.dev with busy := some (code, ctx, true) } }
    let ends := fun (i : Instr) (P : State → Prop) => ∃ t, exec i s = .next t ∧ t.dev.busy = none ∧ t.dev.result = 0 ∧ P t
    (¬live → ∀ x ∈ [(Instr.create, 1), (.destroy, 2), (.inval, 3), (.suspend, 4), (.resume, 5), (.presume, 6), (.pfault, 7), (.cancel, 8), (.tbuild, 9), (.tdrop, 10), (.wreg, 11),
        (.wunreg, 12)], cmd x.2 false → gives x.1 2)
    ∧ (live → c.valid = false → ∀ x ∈ [(Instr.destroy, 2), (.inval, 3), (.suspend, 4), (.resume, 5), (.presume, 6), (.pfault, 7), (.cancel, 8), (.tbuild, 9), (.tdrop, 10), (.wreg, 11),
        (.wunreg, 12)], cmd x.2 false → gives x.1 1)
    ∧ (live → cmd 1 false → (valid → gives .create 1) ∧ (c.valid = false → c.createOk = false → gives .create 3)
      ∧ (c.valid = false → c.createOk = true → ends .create fun t => (t.ctx ctx).valid = true ∧ (t.ctx ctx).evprod = 0 ∧ (t.ctx ctx).evcons = 0 ∧ t.mem = s.mem ∧ t.groups = s.groups))
    ∧ (live → valid → cmd 2 false → exec .destroy s = .next (((List.range c.tcbcnt).foldl (fun s i => s.cancel ctx i) s).cmdBegun)
      ∧ (c.tcbcnt = 0 → begins .destroy 2))
    ∧ (∀ idx tk, s.tcb ctx idx = .ok tk → tk.kept = false → let held := (s.task ctx idx).isSome
      (∀ s1, (tk.status ≤ 2 ∨ (tk.status = 3 ∧ held = false)) → s.writeBack ctx idx held tk { tk with status := 6 } = .ok s1 →
        SMap.sorted s1.tasks = true → (s.cancel ctx idx).task ctx idx = none ∧ (s.cancel ctx idx).mem = s1.mem ∧ (s.cancel ctx idx).groups = s1.groups
          ∧ (s.cancel ctx idx).blocks = s1.blocks)
      ∧ (tk.status = 3 → held = true → tk.ending = 0 → s.taskBlocks ctx idx ≠ [] → (s.cancel ctx idx).task ctx idx = some { tk with ending := 2 }
        ∧ (∀ r ∈ (s.cancel ctx idx).films, ¬(r.ctx = ctx ∧ r.task = idx))
        ∧ ∀ gk g, (s.cancel ctx idx).grp gk = some g → (∃ e ∈ s.taskBlocks ctx idx, g.blk = e.1) → g.alive = 0)
      ∧ (∀ s1, tk.status = 3 → held = true → tk.ending = 0 → s.taskBlocks ctx idx = [] → (∀ r ∈ s.films, ¬(r.ctx = ctx ∧ r.task = idx)) → s.dev.stopWait = [] →
        let last := { tk with ending := 2 }
        { s.unbindFilms ctx idx with tasks := SMap.del (SMap.put s.tasks (taskKey ctx idx) last) (taskKey ctx idx) }.writeBack ctx idx true last { last with status := 6 } = .ok s1 →
        s.cancel ctx idx = s1)
      ∧ ((4 ≤ tk.status ∨ (tk.status = 3 ∧ held = true ∧ tk.ending ≠ 0)) → s.cancel ctx idx = s))
    ∧ (∀ idx e, s.tcb ctx idx = .error e → s.cancel ctx idx = s)
    ∧ (cmd 2 true → (s.blocks.all fun e => e.2.ctx != ctx) = true → c.frames = [] → ((s.windowsOf ctx).all fun e => e.2.issued == e.2.acked) = true →
      ends .destroyComplete fun t => (t.ctx ctx).valid = false ∧ (t.ctx ctx).susp = false ∧ (t.ctx ctx).trees = [] ∧ (∀ e ∈ t.tlb, e.ctx ≠ ctx) ∧ (∀ w ∈ t.walks, w.ctx ≠ ctx) ∧ (∀ w ∈ t.windows, w.2.ctx ≠ ctx) ∧ t.mem = s.mem)
    ∧ (cmd 2 true → (s.blocks.any fun e => e.2.ctx == ctx) = true → exec .destroyComplete s = .next s)
    ∧ (live → valid → cmd 3 false → begins .inval 3)
    ∧ (cmd 3 true → (∃ w ∈ s.walks, w.ctx = ctx) → exec .invalComplete s = .next s)
    ∧ (cmd 3 true → (∀ w ∈ s.walks, w.ctx ≠ ctx) → ends .invalComplete fun t => t.mem = s.mem ∧ t.groups = s.groups
        ∧ ∀ e, e ∈ t.tlb ↔ e ∈ s.tlb ∧ ¬(e.ctx = ctx ∧ e.va < n + (s.dev.carg 1).toNat ∧ n < e.va + 2 ^ e.log2))
    ∧ (live → valid → cmd 4 false → (c.susp = true → gives .suspend 2) ∧ (c.susp = false → begins .suspend 4))
    ∧ (cmd 4 true → (s.quiet ctx = false → exec .suspendComplete s = .next s)
      ∧ (∀ s1, s.quiet ctx = true → s.saveBlocks (s.ctxBlocks ctx) = (false, s1) → exec .suspendComplete s = .next s1)
      ∧ ∀ s1, s.quiet ctx = true → s.saveBlocks (s.ctxBlocks ctx) = (true, s1) → ends .suspendComplete fun t => (t.ctx ctx).susp = true ∧ t.mem = s1.mem ∧ t.blocks = s1.blocks)
    ∧ (live → valid → cmd 5 false → (c.susp = false → gives .resume 2)
      ∧ (c.susp = true → (∀ e ∈ s.blocks, e.2.ctx = ctx → e.2.suspended = false) → ends .resume fun t => (t.ctx ctx).susp = false ∧ t.mem = s.mem ∧ t.groups = s.groups)
      ∧ (c.susp = true → ∀ e, (s.blocks.filter fun (e : Nat × Blk) => e.2.ctx == ctx && e.2.suspended).find? (fun e => (s.together e.2).all fun x => s.roomFor x.2) = some e →
        exec .resume s = .next (((s.together e.2).foldl (fun s x => s.restoreBlock x.1 x.2) s).cmdBegun)))
    ∧ (live → valid → cmd 6 false → let tag := (s.dev.carg 1).toNat
      (s.stoppedGroups ctx n tag = [] → gives .presume 2)
      ∧ (s.stoppedGroups ctx n tag ≠ [] → 3 ≤ (s.dev.carg 2).toNat → gives .presume 3)
      ∧ ∀ gk g, s.stoppedGroups ctx n tag = [(gk, g)] → s.grp gk = some g → s.dev.carg 2 = 0 → (∀ p, (p ∈ g.paths ∨ p ∈ g.spilled.map (·.2)) → p.stoppedBy tag = true → p.controlStop = false) →
        ends .presume fun t => t.mem = s.mem ∧ ∃ g', t.grp gk = some g' ∧ g'.SameRegs g ∧ ∀ i, i < g.paths.length →
          g'.path i = if (g.path i).stoppedBy tag then { g.path i with st := .live, wait := .none, dist := [] } else g.path i)
    ∧ (live → valid → cmd 7 false → (s.stoppedGroups ctx n (s.dev.carg 1).toNat = [] → gives .pfault 2)
      ∧ ∀ gk g gs b tg r, s.stoppedGroups ctx n (s.dev.carg 1).toNat = (gk, g) :: gs → s.blk g.blk = some b →
        List.find? (fun (e : Nat × Rec) => e.1 % 2 ^ 32 == (s.dev.carg 1).toNat) s.stopRecs = some (tg, r) → exec .pfault s = .next ((s.fatalFault ctx r.task r).cmdDone 0))
    ∧ (live → valid → cmd 8 false → (c.tcbcnt ≤ n → gives .cancel 3) ∧ (n < c.tcbcnt → exec .cancel s = .next ((s.cancel ctx n).cmdDone 0)))
    ∧ (live → valid → cmd 9 false → let ok := n < 64 ∧ treeConfigOk (BitVec.ofNat 512 (s.tabRange ctx (0x89000 + 64 * n) 64).1) = true
      (¬ok → gives .tbuild 3) ∧ (ok → begins .tbuild 9))
    ∧ (cmd 9 true → (∀ s1 x, s.treeBuild ctx n = (some s1, x) → exec .tbuildComplete s = .next (s1.cmdDone 0)) ∧ (∀ x, s.treeBuild ctx n = (none, x) → exec .tbuildComplete s = .next (x.cmdDone 3)))
    ∧ (live → valid → cmd 10 false → (64 ≤ n → gives .tdrop 3) ∧ (n < 64 → ends .tdrop fun t => t.tree ctx n = none ∧ (∀ k, k ≠ n → t.tree ctx k = s.tree ctx k) ∧ t.mem = s.mem))
    ∧ (live → valid → cmd 11 false → let base := (s.dev.carg 1).toNat; let len := (s.dev.carg 2).toNat; let f := (s.dev.carg 3).toNat
      let ok := s.dev.faben = true ∧ n < 256 ∧ base % 64 = 0 ∧ len % 64 = 0 ∧ 64 ≤ len ∧ len ≤ 2 ^ 40 ∧ f < 4
      (SMap.find? s.windows n ≠ none → gives .wreg 2) ∧ (SMap.find? s.windows n = none → ¬ok → gives .wreg 3)
      ∧ (SMap.find? s.windows n = none → ok → ends .wreg fun t => SMap.find? t.windows n = some ⟨ctx, base, len, f % 2 == 1, f / 2 == 1, 0, 0, 0⟩
          ∧ (∀ k, k ≠ n → SMap.find? t.windows k = SMap.find? s.windows k) ∧ t.mem = s.mem))
    ∧ (live → valid → cmd 12 false → (∀ w, SMap.find? s.windows n = some w → w.ctx = ctx → begins .wunreg 12) ∧ (SMap.find? s.windows n = none → gives .wunreg 2)
      ∧ (∀ w, SMap.find? s.windows n = some w → w.ctx ≠ ctx → gives .wunreg 2))
    ∧ (cmd 12 true → s.window ctx n = none → gives .wunregComplete 0)
    ∧ (cmd 12 true → ∀ w, s.window ctx n = some w → (w.issued ≠ w.acked → exec .wunregComplete s = .next s)
      ∧ (w.issued = w.acked → SMap.sorted s.windows = true → ends .wunregComplete fun t => SMap.find? t.windows n = none ∧ t.mem = s.mem))

/-- R458, R460, R461: ATTEST takes the report, whose signature follows; RECOVER checks the staged image in Axolotl mode and puts the image it checked into flash, then FSC and
LASTRSN become 0; RETRY clears FSC there; outside Axolotl mode both end with BADSTATE. How long the flash is being written is log entry 8.

R442, R443, R445, R446, R447, R455: VERIFY opens what the token names, or counts the rejection with its reason, 1 where
its form is wrong, 2 where it names another package's identity, 3 where its nonce is stale; CLOSE closes features; HALT marks the paths of a group to
stop; RUN lets a held path go on, one held at BKPT after it, and frees its entry; REGRD and REGWR read and write a register of a stopped group, with its poison; SNAP copies every core's counters and
CNTCLR clears them, SNAPSEQ with them (log entry 110); in Axolotl mode and in the fatal state each of these ends with BADSTATE (log entry 111). -/
def Obligations.RecoveryAndDebugCommands : Prop :=
  (∀ (s : State) (ctx : Nat),
    let cmd := fun (code : Nat) (begun : Bool) => s.dev.busy = some (code, ctx, begun)
    let n := (s.dev.carg 0).toNat
    let gives := fun (i : Instr) (r : Nat) => exec i s = .next { s with dev := { s.dev with busy := none, result := r } }
    (cmd 16 false → ∃ t, exec .attest s = .next t ∧ t.dev.busy = some (16, ctx, true) ∧ t.dev.report = natBytes 256 s.reportBody ∧ t.mem = s.mem ∧ t.groups = s.groups)
    ∧ (cmd 16 true → ∃ t, exec .attestComplete s = .next t ∧ t.dev.busy = none ∧ t.dev.result = 0
        ∧ t.dev.report = s.dev.report.take 256 ++ natBytes 7856 (Config.signature (s.dev.report.take 256)) ∧ t.mem = s.mem)
    ∧ (cmd 17 false → ((s.dev.axolotl = false ∨ s.fatal = true) → gives .recover 2)
      ∧ (s.dev.axolotl = true → s.fatal = false → (2 ^ 19 < n ∨ imageReason s.dev.kept (s.dev.staged n) ≠ 0) → gives .recover 3)
      ∧ (s.dev.axolotl = true → s.fatal = false → n ≤ 2 ^ 19 → imageReason s.dev.kept (s.dev.staged n) = 0 →
        exec .recover s = .next { s with dev := { s.dev with busy := some (17, ctx, true), recovering := s.dev.staged n } }))
    ∧ (cmd 17 true → ∃ t, exec .recoverComplete s = .next t ∧ t.dev.busy = none ∧ t.dev.result = 0 ∧ t.dev.kept.image = s.dev.recovering ∧ t.dev.kept.fsc = 0
        ∧ t.dev.kept.lastrsn = 0 ∧ t.dev.kept.repair = s.dev.kept.repair ∧ t.dev.kept.bad = s.dev.kept.bad ∧ t.dev.flashing = true ∧ t.mem = s.mem)
    ∧ (cmd 18 false → ((s.dev.axolotl = false ∨ s.fatal = true) → gives .retry 2)
      ∧ (s.dev.axolotl = true → s.fatal = false → ∃ t, exec .retry s = .next t ∧ t.dev.busy = none ∧ t.dev.result = 0 ∧ t.dev.kept.image = s.dev.kept.image
          ∧ t.dev.kept.fsc = 0 ∧ t.dev.kept.lastrsn = s.dev.kept.lastrsn ∧ t.dev.kept.repair = s.dev.kept.repair ∧ t.dev.kept.bad = s.dev.kept.bad)))
  ∧ (∀ (s : State),
    let cmd := fun (code : Nat) => s.dev.dbusy = some code ∧ s.dev.axolotl = false ∧ s.fatal = false
    let gives := fun (i : Instr) (r : Nat) => exec i s = .next { s with dev := { s.dev with dbusy := none, dresult := r } }
    let ends := fun (i : Instr) (P : State → Prop) => ∃ t, exec i s = .next t ∧ t.dev.dbusy = none ∧ t.dev.dresult = 0 ∧ t.mem = s.mem ∧ P t
    let entry := SMap.find? s.dev.stops (s.dev.dcarg 0).toNat
    ((s.dev.axolotl = true ∨ s.fatal = true) → ∀ x ∈ [(Instr.verify, 1), (.close, 2), (.halt, 3), (.run, 4), (.regrd, 5), (.regwr, 6), (.snap, 7), (.cntclr, 8)],
      s.dev.dbusy = some x.2 → gives x.1 2)
    ∧ (cmd 1 → (s.dev.tokenReason = 0 → ends .verify fun t => t.dev.opened = s.dev.opened ||| BitVec.ofNat 7 (s.dev.tokenField 96 7)
          ∧ t.dev.ctxopen = s.dev.ctxopen ||| BitVec.ofNat 64 (s.dev.tokenField 128 64) ∧ t.dev.tokrej = s.dev.tokrej)
      ∧ (s.dev.tokenReason ≠ 0 → ends .verify fun t => t.dev.opened = s.dev.opened ∧ t.dev.ctxopen = s.dev.ctxopen
          ∧ t.dev.tokrej = min (s.dev.tokrej + 1) 65535 ∧ t.dev.lastrej = s.dev.tokenReason))
    ∧ (let formed := s.dev.tokenField 0 32 = 0x54474244 ∧ s.dev.tokenField 32 64 = 0 ∧ s.dev.tokenField 103 25 = 0 ∧ s.dev.tokenField 192 64 = 0
      (¬formed → s.dev.tokenReason = 1) ∧ (formed → s.dev.tokenField 256 256 ≠ sha256 identityKey → s.dev.tokenReason = 2)
      ∧ (formed → s.dev.tokenField 256 256 = sha256 identityKey → s.dev.tokenField 512 256 ≠ s.dev.nonce.toNat → s.dev.tokenReason = 3)
      ∧ (s.dev.tokenReason = 0 → sha256 (s.dev.tokenBytes 96 32) = s.dev.kept.authority ∧ s.dev.kept.lcs ≠ 3))
    ∧ (cmd 2 → ends .close fun t => t.dev.opened = s.dev.opened &&& ~~~((s.dev.dcarg 0).setWidth 7) ∧ ((s.dev.dcarg 0).getLsbD 0 = false → t.groups = s.groups ∧ t.dev.stops = s.dev.stops))
    ∧ (cmd 3 → ((∀ e ∈ s.groups, ∀ b, s.blk e.2.blk = some b → b.core = (s.dev.dcarg 0).toNat → e.2.slot = (s.dev.dcarg 1).toNat → e.2.resident = true → e.2.alive = 0) → gives .halt 3)
      ∧ ∀ gk g b, s.groups = [(gk, g)] → s.blk g.blk = some b → b.core = (s.dev.dcarg 0).toNat → g.slot = (s.dev.dcarg 1).toNat → g.resident = true → g.alive ≠ 0 →
        (s.dev.openFor 0 b.ctx = false → gives .halt 4)
        ∧ (s.dev.openFor 0 b.ctx = true → ends .halt fun t => ∃ g', t.grp gk = some g' ∧ g'.SameRegs g ∧ ∀ i, i < g.paths.length →
            g'.path i = if (g.path i).st = .live ∨ (g.path i).st = .parked then { g.path i with step := 3 } else g.path i))
    ∧ (cmd 4 → (entry = none → gives .run 2)
      ∧ ∀ x, entry = some x → (s.dev.openFor 0 x.ctx = false → gives .run 4) ∧ (s.dev.openFor 0 x.ctx = true → 2 ≤ (s.dev.dcarg 1).toNat → gives .run 3)
        ∧ ∀ g pi, s.dev.openFor 0 x.ctx = true → (s.dev.dcarg 1).toNat < 2 → s.dev.stopWait = [] → SMap.sorted s.dev.stops = true → s.grp x.gk = some g → pi < g.paths.length →
          (g.path pi).wait = .debug x.id → let stop := x.image.extractLsb' 23 3
          ends .run fun t => SMap.find? t.dev.stops (s.dev.dcarg 0).toNat = none
            ∧ ∃ g', t.grp x.gk = some g' ∧ g'.SameRegs g ∧ g'.path pi = { g.path pi with st := .live, wait := .none, pc := if stop = 1 then (g.path pi).pc + 4 else (g.path pi).pc, exempt := true, step := if s.dev.dcarg 1 = 1 then 1 else 0 })
    ∧ (cmd 5 → (entry = none → gives .regrd 2)
      ∧ (∀ gk g t n b, s.regArgs 1 = .ok (gk, g, t, 0, n) → s.blk g.blk = some b → ends .regrd fun u => u.groups = s.groups
          ∧ u.dev.data = BitVec.ofNat 64 ((rdV g b n t).val.toNat + (rdV g b n t).poison.toNat * 2 ^ 32))
      ∧ (∀ gk g t n, s.regArgs 1 = .ok (gk, g, t, 1, n) → ends .regrd fun u => u.groups = s.groups
          ∧ u.dev.data = BitVec.ofNat 64 ((SMap.get RegVal.zero g.s n).val.toNat + (SMap.get RegVal.zero g.s n).poison.toNat * 2 ^ 32)))
    ∧ (cmd 6 → (entry = none → gives .regwr 2)
      ∧ (∀ gk g t n, s.regArgs 2 = .ok (gk, g, t, 1, n) → s.grp gk = some g → g.resident = true → g.tidy → ends .regwr fun u => ∃ g', u.grp gk = some g' ∧ g'.v = g.v ∧ g'.paths = g.paths
          ∧ SMap.get RegVal.zero g'.s n = ⟨(s.dev.dcarg 2).setWidth 32, (s.dev.dcarg 2).getLsbD 32⟩ ∧ (∀ k, k ≠ n → SMap.get RegVal.zero g'.s k = SMap.get RegVal.zero g.s k))
      ∧ (∀ gk g t n, s.regArgs 2 = .ok (gk, g, t, 0, n) → n < 128 → s.grp gk = some g → g.resident = true → g.tidy → ends .regwr fun u => ∃ g', u.grp gk = some g' ∧ g'.s = g.s ∧ g'.paths = g.paths
          ∧ SMap.get RegVal.zero g'.v (128 * n + t) = ⟨(s.dev.dcarg 2).setWidth 32, (s.dev.dcarg 2).getLsbD 32⟩
          ∧ ∀ k, k ≠ 128 * n + t → SMap.get RegVal.zero g'.v k = SMap.get RegVal.zero g.v k))
    ∧ (cmd 7 → ends .snap fun t => t.groups = s.groups ∧ ∀ k, k < 1152 → (t.core k).snapseq = (s.core k).snapseq + 1
        ∧ (∀ i, 1 ≤ i → i ≤ 22 → SMap.get 0 (t.core k).snap i = s.counter k i) ∧ (t.core k).counts = (s.core k).counts)
    ∧ (cmd 8 → ends .cntclr fun t => t.groups = s.groups ∧ ∀ k, k < 1152 → (t.core k).counts = [] ∧ (t.core k).countsFrom = s.clock ∧ (t.core k).snapseq = 0 ∧ (t.core k).snap = (s.core k).snap))

/-- R352, R408, R411, R417, R418: a host read of the linear window answers its bytes and a write leaves them there; an AtomicOp answers the old value and leaves the new one; an
arming word takes a FetchAdd as an arm and counts what is none, and what is not supported is answered so; a trigger's edge is recognised once its level has held for
4 clocks and 8 have passed since the last, and arms the bound task of each context with EN = 1 and counts on its binding; a queued pulse takes the sync
output for 700 clocks, and 700 more follow it. From which clock a level counts as held is log entry 71, which accesses to the linear window are Unsupported Requests entry 76.

R18, R166, R352, R369, R410, R432, R435, R441, R443, R449, R453, R456, R462: each register that is cleared by a read answers its value and becomes 0, and nothing else changes; any other
read returns the register's fields in their places (the boot status word, the device word, the counters), the value written where that is readable and zero from the
write-only token area and from offsets that are none; a register write sets the fields that are writable at its
offset, ignores values outside their ranges, starts the command CMD names where none is in progress, resets the package where the key is written, and has no effect on other offsets.
How PKGID and PODCNT of one write meet is log entry 77, that a read that clears nothing changes nothing entry 118. -/
def Obligations.HostAndRegisterAccess : Prop :=
  (∀ (s : State) (off n data exp ctx idx input value : Nat),
    let up := s.dev.ready = true ∧ s.fatal = false
    let clean := linearPopulated off n = true ∧ (∀ l ∈ linesOf off n, SMap.get 0 s.mem.latent l = 0) ∧ s.mem.anyPoison off n = false
      ∧ ∀ a, off ≤ a → a < off + n → s.inOutbox a = false ∧ s.inSpawn a = false
    let outside := fun (t : State) => ∀ a, (a < off ∨ off + n ≤ a) → t.mem.byte a = s.mem.byte a
    (s.subject = [0, off, n] → ¬up → ∃ t, exec .hostBar4Request s = .next t ∧ t.dev.reply = (0, false, true) ∧ t.mem = s.mem)
    ∧ (s.subject = [0, off, n] → up → linearPopulated off n = false → ∃ t, exec .hostBar4Request s = .next t ∧ t.dev.reply = (0, false, true) ∧ t.mem = s.mem)
    ∧ (s.subject = [4, off, 16, data, exp] → ∃ t, exec .hostBar4Request s = .next t ∧ t.dev.reply = (0, false, true) ∧ t.mem = s.mem)
    ∧ (s.subject = [1, off, n, data] → (¬up ∨ linearPopulated off n = false) → exec .hostBar4Request s = .next s)
    ∧ (s.subject = [0, off, n] → up → 0 < n → s.Canonical → clean → ∃ t, exec .hostBar4Request s = .next t ∧ t.dev.reply = (s.mem.readLE off n, false, false) ∧ t.mem = s.mem ∧ t.groups = s.groups)
    ∧ (s.subject = [1, off, n, data] → up → 0 < n → s.Canonical → linearPopulated off n = true → ∃ t, exec .hostBar4Request s = .next t
        ∧ t.mem.readLE off n = data % 2 ^ (8 * n) ∧ outside t)
    ∧ (∀ kind, (kind = 2 ∨ kind = 3 ∨ kind = 4) → s.subject = [kind, off, n, data, exp] → up → (n = 4 ∨ n = 8) → off % n = 0 → s.Canonical → clean → let old := s.mem.readLE off n
        ∃ t, exec .hostBar4Request s = .next t ∧ t.dev.reply = (old, false, false) ∧ outside t
          ∧ t.mem.readLE off n = match kind with | 2 => (old + data) % 2 ^ (8 * n) | 3 => data % 2 ^ (8 * n) | _ => if old = exp % 2 ^ (8 * n) then data % 2 ^ (8 * n) else old)
    ∧ (∀ c i, i < 65536 → armWord ((c * 65536 + i) * 8) = (c, i))
    ∧ (∀ bits, s.subject = [off, bits] → armWord off = (ctx, idx) → up → (s.noTcb ctx idx = false → exec .armwordFetchadd s = .next (s.armLater ⟨3, 0, 0, ctx, idx, bits⟩))
        ∧ (s.noTcb ctx idx = true → ∃ t, exec .armwordFetchadd s = .next t ∧ t.dev.reply = (0, false, false) ∧ (t.ctx ctx).ignored = min ((s.ctx ctx).ignored + 1) (2 ^ 32 - 1) ∧ t.mem = s.mem))
    ∧ (∀ bits, s.subject = [off, bits] → ¬up → ∃ t, exec .armwordFetchadd s = .next t ∧ t.dev.reply = (0, false, true) ∧ t.mem = s.mem ∧ t.tasks = s.tasks)
    ∧ (∀ bits x d, bits ≠ 0 → (⟨3, 0, 0, ctx, idx, bits⟩ : Arm).reply x d = { d with reply := ((x % (2 : Int) ^ bits).toNat, false, false) })
    ∧ (∀ kind bits, s.subject = [off, bits, kind] → armWord off = (ctx, idx) → up → s.noTcb ctx idx = false → ∃ t, exec .armwordIgnored s = .next t ∧ t.mem = s.mem ∧ t.tasks = s.tasks
          ∧ (kind ≤ 1 → bits ≠ 128 → (t.ctx ctx).ignored = min ((s.ctx ctx).ignored + 1) (2 ^ 32 - 1)) ∧ (2 ≤ kind → (t.ctx ctx).ignored = (s.ctx ctx).ignored)
          ∧ (kind = 0 → bits = 128 → t.dev.reply = (0, false, true))
          ∧ ∀ tk, kind ≠ 1 → bits ≠ 128 → s.task ctx idx = some tk → t.dev.reply = ((tk.depcnt.toInt % (2 : Int) ^ bits).toNat, false, false))
    ∧ (input < 8 → let x := s.dev.trigger input
        (∀ lv, s.subject = [input, lv, 0] → lv < 2 → (lv = x.1 → exec .triggerEdge s = .next s)
          ∧ (lv ≠ x.1 → exec .triggerEdge s = .next { s with dev := { s.dev with trig := SMap.set (0, 0, 0, 0) s.dev.trig input (lv, s.clock, x.2.2.1, x.2.2.2) } }))
        ∧ (∀ lv, s.subject = [input, lv, 1] → up → s.dev.edgeDue s.clock input = true → exec .triggerEdge s = .next ((List.range 64).foldl (fun s c => s.edgeFor input (x.1 == 1) c)
            { s with dev := { s.dev with trig := SMap.set (0, 0, 0, 0) s.dev.trig input (x.1, x.2.1, x.1, s.clock + 1) } }))
        ∧ (∀ lv, s.subject = [input, lv, 1] → (¬up ∨ s.dev.edgeDue s.clock input = false) → exec .triggerEdge s = .next s)
        ∧ (s.dev.edgeDue s.clock input = true ↔ x.1 ≠ x.2.2.1 ∧ x.2.1 + 4 ≤ s.clock ∧ (x.2.2.2 = 0 ∨ x.2.2.2 + 7 ≤ s.clock)))
    ∧ (∀ rising, let b := (s.ctx ctx).bind input
        (b.getLsbD 32 = true → b.getLsbD 33 ≠ rising → s.edgeFor input rising ctx =
          (s.setCtx ctx { s.ctx ctx with binds := SMap.set 0 (s.ctx ctx).binds input ((b &&& 0x0000FFFFFFFFFFFF) ||| ((b >>> 48) + 1) <<< 48) }).armLater
            ⟨2, 64 * input + ctx, 0, ctx, b.toNat % 2 ^ 16, 0⟩)
        ∧ ((b.getLsbD 32 = false ∨ b.getLsbD 33 = rising) → s.edgeFor input rising ctx = s))
    ∧ (s.subject = [ctx, input, value] → ctx < 64 → input < 8 → SMap.wf 0 (s.ctx ctx).binds = true → let old := (s.ctx ctx).bind input
        ∃ t, exec .triggerBindingWrite s = .next t ∧ t.mem = s.mem ∧ ((t.ctx ctx).bind input).toNat % 2 ^ 16 = value % 2 ^ 16
          ∧ ((t.ctx ctx).bind input).getLsbD 32 = value.testBit 32 ∧ ((t.ctx ctx).bind input).getLsbD 33 = value.testBit 33
          ∧ ((t.ctx ctx).bind input).extractLsb' 48 16 = if value.testBit 32 = true ∧ old.getLsbD 32 = false then 0 else old.extractLsb' 48 16)
    ∧ (s.dev.sync = 0 → 0 < s.dev.syncpend → exec .syncPulse s = .next { s with dev := { s.dev with sync := 1, syncUntil := s.clock + 700, syncpend := s.dev.syncpend - 1 } })
    ∧ (s.dev.sync = 1 → s.dev.syncUntil ≤ s.clock → exec .syncPulseEnd s = .next { s with dev := { s.dev with sync := 2, syncUntil := s.clock + 700 } })
    ∧ (s.dev.sync = 2 → s.dev.syncUntil ≤ s.clock → exec .syncPulseEnd s = .next { s with dev := { s.dev with sync := 0, syncUntil := 0 } })
    ∧ (s.clock < s.dev.syncUntil → exec .syncPulseEnd s = .next s))
  ∧ (∀ (s : State) (k off v : Nat),
    let reads := fun (i : Instr) (x : Nat) (P : State → Prop) => ∃ t, exec i s = .next t ∧ t.dev.reply = (x, false, false) ∧ t.mem = s.mem ∧ t.groups = s.groups ∧ P t
    let wr := fun (a x : Nat) => s.subject = [a, x] ∧ x < 2 ^ 64
    (s.subject = [k] → reads .orphanRead (s.core k).orphan (fun t => (t.core k).orphan = 0 ∧ ∀ j, j ≠ k → t.core j = s.core j)
      ∧ reads .ignoredArmCountRead (s.ctx k).ignored (fun t => (t.ctx k).ignored = 0 ∧ ∀ j, j ≠ k → t.ctx j = s.ctx j))
    ∧ reads .synclostRead s.dev.synclost (fun t => t.dev.synclost = 0) ∧ reads .cecntRead s.errlog.cecnt (fun t => t.errlog = { s.errlog with cecnt := 0 })
    ∧ reads .tokrejRead s.dev.tokrej (fun t => t.dev.tokrej = 0) ∧ reads .trdropRead s.dev.trdrop (fun t => t.dev.trdrop = 0)
    ∧ (wr 0 v → let cnt := v / 2 ^ 14 % 2 ^ 9; let id := v % 2 ^ 9; let legal := s.dev.faben = false ∧ 1 ≤ cnt ∧ cnt ≤ 288
      ∃ t, exec .registerWrite s = .next t ∧ t.mem = s.mem ∧ t.groups = s.groups ∧ t.dev.faben = (v / 2 ^ 23 % 2 == 1) ∧ t.dev.podcnt = (if legal then cnt else s.dev.podcnt)
        ∧ t.dev.pkgid = if s.dev.faben = false ∧ id < t.dev.podcnt then id else s.dev.pkgid)
    ∧ (∀ x, wr 0x1000 x → exec .registerWrite s = .next { s with dev := { s.dev with arg0 := BitVec.ofNat 64 x } })
    ∧ (∀ x, wr 0x1008 x → exec .registerWrite s = .next { s with dev := { s.dev with arg1 := BitVec.ofNat 64 x } })
    ∧ (∀ x, wr 0x1020 x → s.dev.busy ≠ none → exec .registerWrite s = .next s)
    ∧ (∀ x, wr 0x1020 x → s.dev.busy = none → x % 256 ∈ [1, 2, 3, 4, 5, 6, 7, 8, 9, 10, 11, 12, 16, 17, 18] →
      exec .registerWrite s = .next { s with dev := { s.dev with busy := some (x % 256, x / 256 % 64, false), cargs := [s.dev.arg0, s.dev.arg1, s.dev.arg2, s.dev.arg3] } })
    ∧ (∀ x, wr 0x4008 x → s.dev.dbusy = none → 1 ≤ x % 256 → x % 256 ≤ 8 → exec .registerWrite s = .next { s with dev := { s.dev with dbusy := some (x % 256), dcargs := [s.dev.darg0, s.dev.darg1, s.dev.data] } })
    ∧ (∀ x, wr 0x1808 x → ((1 ≤ x % 256 ∧ x % 256 ≤ 168) → exec .registerWrite s = .next { s with errlog := { s.errlog with scrubh := x % 256 } })
      ∧ (¬(1 ≤ x % 256 ∧ x % 256 ≤ 168) → exec .registerWrite s = .next s))
    ∧ (∀ x, wr 0x6010 x → (x % 2 ^ 32 = 0x52535421 → exec .registerWrite s = .next s.packageReset) ∧ (x % 2 ^ 32 ≠ 0x52535421 → exec .registerWrite s = .next s))
    ∧ (∀ x, wr 0x6048 x → ∃ t, exec .registerWrite s = .next t ∧ t.mem = s.mem ∧ (t.dev.tthrot = s.dev.tthrot ∨ (t.dev.tthrot = x / 2 ^ 48 ∧ 70 ≤ t.dev.tthrot ∧ t.dev.tthrot ≤ 105))
      ∧ (t.dev.pkgw = s.dev.pkgw ∨ (t.dev.pkgw = x / 2 ^ 32 % 2 ^ 16 ∧ 400 ≤ t.dev.pkgw ∧ t.dev.pkgw ≤ 3200)) ∧ (t.dev.diew = s.dev.diew ∨ t.dev.diew.sum ≤ t.dev.pkgw))
    ∧ (off % 8 ≠ 0 → wr off v → exec .registerWrite s = .next s)
    ∧ (off % 8 ≠ 0 → s.readReg off = 0) ∧ (0x8000 ≤ off → off < 0x8000 + 7984 → s.readReg off = 0) ∧ s.readReg 0x1020 = 0
    ∧ (∀ x a, (a = 0x1000 ∨ a = 0x1008 ∨ a = 0x1010 ∨ a = 0x1018 ∨ a = 0x4010 ∨ a = 0x4018 ∨ a = 0x5018) → wr a x → ∃ t, exec .registerWrite s = .next t ∧ t.readReg a = x ∧ t.mem = s.mem ∧ t.groups = s.groups)
    ∧ (let w := s.readReg 0x6000; w % 2 = s.dev.ready.toNat ∧ w / 2 % 2 = s.dev.axolotl.toNat ∧ w / 4 % 2 = s.fatal.toNat ∧ w / 2 ^ 3 % 2 ^ 5 = 0
      ∧ w / 2 ^ 8 % 2 ^ 8 = s.dev.stage % 2 ^ 8 ∧ w / 2 ^ 16 % 2 ^ 8 = s.dev.kept.fsc % 2 ^ 8 ∧ w / 2 ^ 24 % 2 ^ 8 = s.dev.rsn % 2 ^ 8 ∧ w / 2 ^ 32 = s.dev.kept.lastrsn % 2 ^ 8)
    ∧ (let w := s.readReg 0; w % 2 ^ 9 = s.dev.pkgid % 2 ^ 9 ∧ w / 2 ^ 14 % 2 ^ 9 = s.dev.podcnt % 2 ^ 9 ∧ w / 2 ^ 23 % 2 = s.dev.faben.toNat
      ∧ w / 2 ^ 32 % 2 ^ 16 = s.dev.syncpend % 2 ^ 16 ∧ w / 2 ^ 48 = s.dev.synclost % 2 ^ 16)
    ∧ (∀ j, k < 1152 → j ≤ 22 → s.readReg (0x20000 + 0x200 * k + 8 * j) = s.counter k j % 2 ^ 64)
    ∧ (s.readReg 0x1028 = (if s.dev.busy.isSome then 2 ^ 63 else 0) + s.dev.result % 2 ^ 8)
    ∧ (off ∈ [0x6000, 0x6008, 0x1028, 0x2000, 0x20000, 0x4020] → wr off v → exec .registerWrite s = .next s))

/-- R35, R437, R439, R440, R456, R457, R458, R459, R461, R462: a package reset and a loss of power leave the machine as after reset, but for the flash, the fuses and the inputs to come, and
a write of the persistent area that a loss of power cuts off leaves the earlier copy in force; boot passes through its
stages and fails with the stage's reason, which is shown and which flash keeps, and the package then resets itself; the watchdog fails it with reason 8; at the end of
4,096 clocks the arbiter decides each quad's next grant; a reading above 115 °C is fatal, and what the compute dies held is lost; the test port changes nothing but
where TAP or CPDBG is open, where what a code but IDCODE and BYPASS does is not given. How the outcomes of the stages and the time they take are chosen is log entry 8, what memory
reads after a reset entry 81, what the test port's codes leave alone entry 80. -/
def Obligations.BootAndPowerEvents : Prop :=
  ∀ (s : State) (n code : Nat),
    let fails := fun (i : Instr) (r : Nat) => ∃ t, exec i s = .next t ∧ t.dev.kept.lastrsn = r ∧ t.dev.kept.fsc = s.dev.kept.fsc ∧ t.dev.rsn = r ∧ t.dev.ready = false
      ∧ t.dev.stage = s.dev.stage ∧ t.dev.flashing = true
    let afterReset := fun (t : State) (k : Kept) => t = { State.resetWith { k with rows := [] } with free := s.free, seq := s.seq, inputs := s.inputs }
    let booting := s.dev.ready = false ∧ s.dev.axolotl = false ∧ s.fatal = false ∧ s.dev.rsn = 0
    let passes := fun (P : State → Prop) => ∃ t, exec .bootStage s = .next t ∧ t.dev.stage = s.dev.stage + 1 ∧ P t
    (∃ t, exec .packageReset s = .next t ∧ afterReset t s.dev.kept)
    ∧ (s.dev.flashing = false → ∃ t, exec .powerLoss s = .next t ∧ afterReset t s.dev.kept)
    ∧ (∀ (k : Kept) (f : Persist → Persist) (d : Dev), k.readable = true → s.dev = { d with kept := k.write f, flashing := true } → d.wasImage = none →
      k.readable = true ∧ s.dev.kept.area = f k.area ∧ ∃ t, exec .powerLoss s = .next t ∧ t.dev.kept.area = k.area ∧ t.dev.kept.image = k.image)
    ∧ (∀ x, s.dev.flashing = true → s.dev.wasImage = some x → ∃ t, exec .powerLoss s = .next t ∧ t.dev.kept.image = x)
    ∧ (s.dev.ready = true → exec .bootStage s = .next s) ∧ (s.dev.axolotl = true → exec .bootStage s = .next s)
    ∧ (s.dev.ready = false → s.dev.axolotl = false → s.fatal = true → ∃ t, exec .bootStage s = .next t ∧ t.dev.kept.lastrsn = 9 ∧ t.dev.stage = 0 ∧ t.groups = [] ∧ t.clock = 0)
    ∧ (s.dev.ready = false → s.dev.axolotl = false → s.fatal = false → s.dev.rsn ≠ 0 → ∃ t, exec .bootStage s = .next t ∧ afterReset t s.dev.kept)
    ∧ (booting → s.dev.stage = 0 → (s.arg 0 = 0 → passes fun t => t.mem = s.mem) ∧ (s.arg 0 ≠ 0 → fails .bootStage 1))
    ∧ (booting → s.dev.stage = 1 → ((s.arg 0 ≠ 0 ∨ s.dev.kept.readable = false) → fails .bootStage 2)
      ∧ (s.arg 0 = 0 → s.dev.kept.readable = true → s.dev.kept.fsc < 3 → passes fun t => t.dev.kept.area = { s.dev.kept.area with fsc := s.dev.kept.fsc + 1 } ∧ t.dev.kept.image = s.dev.kept.image)
      ∧ (s.arg 0 = 0 → s.dev.kept.readable = true → 3 ≤ s.dev.kept.fsc → ∃ t, exec .bootStage s = .next t ∧ t.dev.axolotl = true ∧ t.dev.ready = false ∧ t.dev.stage = 1))
    ∧ (booting → s.dev.stage = 2 → (imageReason s.dev.kept s.dev.kept.image = 0 → passes fun t => t.dev.kept = s.dev.kept)
      ∧ (imageReason s.dev.kept s.dev.kept.image ≠ 0 → fails .bootStage (imageReason s.dev.kept s.dev.kept.image)))
    ∧ (booting → s.dev.stage = 3 → s.subject = [0] → (s.dev.kept.retired.all fun e => e.2 ≤ 6) = true → passes fun t => t.dev.kept = s.dev.kept)
    ∧ (booting → s.dev.stage = 3 → (s.dev.kept.retire (s.subject.drop 1)).retired.any (fun e => 6 < e.2) = true → fails .bootStage 6)
    ∧ (booting → s.dev.stage = 4 → (s.arg 0 ≠ 0 → fails .bootStage 5) ∧ (s.arg 0 = 0 → s.dev.kept.repair = [] → s.dev.kept.bad = [] → passes fun t => t.mem = s.mem ∧ t.dev.kept = s.dev.kept))
    ∧ (booting → s.dev.stage = 5 → (s.arg 0 ≠ 0 → fails .bootStage 7) ∧ (s.arg 0 = 0 → passes fun t => t.dev.kept = s.dev.kept))
    ∧ (booting → s.dev.stage = 6 → passes fun t => t.dev.ready = true ∧ t.dev.kept.area = { s.dev.kept.area with fsc := 0 } ∧ t.dev.kept.image = s.dev.kept.image ∧ t.mem = s.mem)
    ∧ (s.dev.ready = false → s.dev.axolotl = false → s.dev.rsn = 0 → 1 ≤ s.dev.stage → s.dev.stage < 6 → fails .bootWatchdogExpiry 8)
    ∧ ((s.dev.ready = true ∨ s.dev.stage = 0 ∨ 6 ≤ s.dev.stage) → exec .bootWatchdogExpiry s = .next s)
    ∧ (booting → s.inputs = [] → ((s.bootChoices.any fun o => o.1 == .bootWatchdogExpiry) = true ↔ 1 ≤ s.dev.stage ∧ s.dev.stage ≤ 5 ∧ 30 * 10 ^ 9 < s.dev.bootTime + s.stageTime)
      ∧ (1 ≤ s.dev.stage → s.dev.stage < 7 → ∃ t, exec .bootStage s = .next t ∧ (t.dev.stage = s.dev.stage + 1 → t.dev.bootTime = s.dev.bootTime + s.stageTime)))
    ∧ (s.clock < 4096 * (s.dev.arbiter + 1) → exec .arbiterInterval s = .next s)
    ∧ (4096 * (s.dev.arbiter + 1) ≤ s.clock → SMap.wf (16, 16) s.dev.grants = true → ∃ t, exec .arbiterInterval s = .next t ∧ t.dev.arbiter = s.dev.arbiter + 1 ∧ t.groups = s.groups ∧ t.mem = s.mem
      ∧ (∀ k, k < 8 → t.dev.capped.getD k false = s.dev.capAfter k (Config.sensor (8 + k) s.dev.arbiter))
      ∧ ∀ c, c < 1152 → t.dev.grant c = ((s.dev.grant c).1, nextGrant (s.quadBusy (c / 4)) (s.dev.grant c).2 (Config.sensor (c / 144) s.dev.arbiter) (s.dev.diew.getD (c / 144) 0)
          (s.dev.capAfter (c / 144) (Config.sensor (8 + c / 144) s.dev.arbiter))))
    ∧ (s.subject = [n] → (n ≤ 115 → exec .thermalTrip s = .next s)
      ∧ (115 < n → s.fatal = false → s.dev.ready = true → ∃ t, exec .thermalTrip s = .next t ∧ t.fatal = true ∧ t.dev.rsn = 10 ∧ t.mem.bytes = [] ∧ t.groups = [] ∧ t.tasks = [] ∧ t.dev.kept = s.dev.kept))
    ∧ (s.subject = [code] → ((code < 2 ∨ (s.dev.opened.getLsbD 4 = false ∧ s.dev.opened.getLsbD 5 = false)) → exec .testPortInstruction s = .next s)
      ∧ (2 ≤ code → (s.dev.opened.getLsbD 4 = true ∨ s.dev.opened.getLsbD 5 = true) → exec .testPortInstruction s = .refused .testPort))

/-! ### The step -/

/-- R24, R36, R37, R38, R50. A step runs the decoded instruction. In a READY machine with nothing due and nothing that follows at once, and where
none of the events that may come is taken (t is then the state, with its choice spent), the core whose issue slot comes is not withheld, its
choice is the path e, no line of memory has an error nothing has met, and the words at the path's PC are mapped, executable, clean and not written while a task of the context ran: then the step is exec of the instruction those words
decode to — one that traps ILLOP where the decoder refuses them — with the path as its issuer. Before it the step has only kept the issue's
books, and looked up the page of the PC: memory, blocks, contexts, tasks, windows, requests, results, the device and the clock, and every group's registers, paths
but for their stamps (R247), pending results and marks, are those of t. After it the step clears the issuer and makes the issue's trace records (R450). A uniform instruction that is not outside the role is one the shared scalar
unit takes (R23, R27). The order of events is the model's (log entry 3). -/
def Obligations.StepRunsDecoded : Prop :=
  ∀ (s t : State) (core h : Nat) (o : Offer) (e : Env) (x : Word) (i : Instr),
    s.dev.ready = true → s.fatal = false → s.due = [] → s.atOnce.isNone = true →
    (((s.offering = true ∨ s.closing = true ∨ s.choices = []) ∧ t = s) ∨
      (s.offering = false ∧ s.closing = false ∧ s.choices ≠ [] ∧ s.choices[Config.pick (2 * s.seq) % (s.choices.length + 1)]? = none ∧ t = { s with seq := s.seq + 1 })) →
    t.nextCore = some core → t.withheld core = false → chooseOffer (t.offers core) = some o → t.envOf o.gk o.pi = some e →
    t.mem.latent = [] → t.fetchHome e.b.ctx e.b.core e.p.pc = .ok h → t.mem.anyPoison h 4 = false → (∀ w ∈ t.codeWas, w.1 = e.b.ctx → ∀ n < 4, w.2.1 ≠ (h + n) / 64) →
    (twoWords (BitVec.ofNat 32 (t.mem.readLE h 4)) = false → x = 0) →
    (twoWords (BitVec.ofNat 32 (t.mem.readLE h 4)) = true → ∃ h2, t.fetchHome e.b.ctx e.b.core (e.p.pc + 4) = .ok h2 ∧ t.mem.anyPoison h2 4 = false
      ∧ (∀ w ∈ t.codeWas, w.1 = e.b.ctx → ∀ n < 4, w.2.1 ≠ (h2 + n) / 64) ∧ x = BitVec.ofNat 32 (t.mem.readLE h2 4)) →
    (match decodeBytes (bytesOfWord (BitVec.ofNat 32 (t.mem.readLE h 4)) ++ bytesOfWord x) with
      | .ok (j, _) => i = j
      | .error _ => i = .unassignedOpcode (BitVec.ofNat 32 (t.mem.readLE h 4))) →
    (o.scalar = true → (t.scalarGrant core).1 = true) →
    ∃ (u : State), u.issuer = some (o.gk, o.pi) ∧ u.mem = t.mem ∧ u.blocks = t.blocks ∧ u.ctxs = t.ctxs ∧ u.tasks = t.tasks ∧ u.windows = t.windows
      ∧ u.reqs = t.reqs ∧ u.results = t.results ∧ u.dev = t.dev ∧ u.clock = t.clock
      ∧ (∀ k g, t.grp k = some g → ∃ g', u.grp k = some g' ∧ g'.SameRegs g ∧ (∀ j, ∃ c, g'.path j = { g.path j with stamp := c }) ∧ g'.spilled = g.spilled ∧ g'.fixed = g.fixed ∧ g'.pend = g.pend)
      ∧ step s = match exec i u with
        | .next v => .next ({ v with issuer := none }.traceIssue i o.gk o.pi u)
        | .fault f => .fault f
        | .refused r => .refused r

/-- R410, R432, R449, R462, R439, R277, R367. State.reset holds the values the spec gives for reset: the device registers of R410, the error registers of R432,
the trace registers of R449, the power registers of R462, no line marked, every granule full, no context valid and CHORUSWIN 24 in every context;
and the invariants hold there. -/
def Obligations.ResetLegal : Prop :=
  State.reset.RegistersLegal ∧ State.reset.Canonical
  ∧ (State.reset.dev.pkgid = 0 ∧ State.reset.dev.podcnt = 1 ∧ State.reset.dev.faben = false ∧ State.reset.dev.syncpend = 0 ∧ State.reset.dev.synclost = 0)
  ∧ (State.reset.errlog.prod = 0 ∧ State.reset.errlog.cons = 0 ∧ State.reset.errlog.scrubh = 24 ∧ State.reset.errlog.cecnt = 0 ∧ State.reset.errlog.cedrop = 0)
  ∧ (State.reset.dev.trbase = 0 ∧ State.reset.dev.trprod = 0 ∧ State.reset.dev.trcons = 0 ∧ State.reset.dev.trdrop = 0 ∧ State.reset.dev.trkinds = 0
    ∧ State.reset.dev.trlog2 = 10 ∧ State.reset.dev.tren = false)
  ∧ (State.reset.dev.tthrot = 95 ∧ State.reset.dev.pkgw = 3200 ∧ State.reset.dev.diew = List.replicate 8 400)
  ∧ (State.reset.dev.ready = false ∧ State.reset.fatal = false ∧ State.reset.dev.axolotl = false ∧ State.reset.dev.stage = 0 ∧ State.reset.dev.rsn = 0)
  ∧ (∀ pa, State.reset.mem.poisoned pa = false ∧ State.reset.mem.full pa = true)
  ∧ ∀ c, (State.reset.ctx c).valid = false ∧ ((State.reset.ctx c).desc.extractLsb' 496 8).toNat = 24

/-- R410, R432, R449, R462, R264. From every state in which the device's registers hold legal values and memory stands in its canonical form, a step leads to such
a state. The canonical form is the model's own (log entry 5). -/
def Obligations.StepKeepsLegal : Prop :=
  ∀ (s t : State), s.RegistersLegal → s.Canonical → step s = .next t → t.RegistersLegal ∧ t.Canonical
end

