-- ==== Sys2Proof/Laws/Encoding.lean ====
section
/-! SUPPORT. Words and their fields: reading the fields of a word made of fields, and the reserved-field check. -/
namespace Sys2Proof

/-- The number of two bit strings side by side. -/
theorem append_toNat {n m : Nat} (x : BitVec n) (y : BitVec m) : (x ++ y).toNat = x.toNat * 2 ^ m + y.toNat := by
  rw [BitVec.toNat_append, ← Nat.shiftLeft_add_eq_or_of_lt y.isLt, Nat.shiftLeft_eq]
theorem Fields.toWord_toNat (f : Fields) : f.toWord.toNat =
    f.b.toNat + 2 ^ 7 * (f.a.toNat + 2 ^ 7 * (f.d.toNat + 2 ^ 7 * (f.st.toNat + 2 ^ 3 * (f.op.toNat + 2 ^ 7 * f.set.toNat)))) := by
  obtain ⟨s, o, st, d, a, b⟩ := f
  show (s ++ o ++ st ++ d ++ a ++ b).toNat = _
  simp only [append_toNat]
  ring
theorem Fields.ofWord_toWord (f : Fields) : Fields.ofWord f.toWord = f := by
  have h := f.toWord_toNat
  obtain ⟨s, o, st, d, a, b⟩ := f
  have := b.isLt; have := a.isLt; have := d.isLt; have := st.isLt; have := o.isLt; have := s.isLt
  simp only [Fields.ofWord, Fields.mk.injEq]
  refine ⟨?_, ?_, ?_, ?_, ?_, ?_⟩ <;>
    (apply BitVec.eq_of_toNat_eq
     simp only [BitVec.extractLsb'_toNat, h, Nat.shiftRight_eq_div_pow]
     omega)
theorem Fields.toWord_ofWord (w : Word) : (Fields.ofWord w).toWord = w := by
  apply BitVec.eq_of_toNat_eq
  rw [Fields.toWord_toNat]
  simp only [Fields.ofWord, BitVec.extractLsb'_toNat, Nat.shiftRight_eq_div_pow]
  have := w.isLt
  omega

/-- The reserved-field check answers the instruction exactly where the fields are zero. -/
theorem needZero_eq_ok {m : String} {c : Prop} [Decidable c] {i j : Instr} : needZero m c i = .ok j ↔ c ∧ i = j := by
  unfold needZero
  split <;> simp_all

/-- Whether a word is the first of two (R36), by its fields. -/
theorem twoWords_toWord (f : Fields) : twoWords f.toWord =
    if f.set = 1 then decide (0x60 ≤ f.op.toNat ∧ f.op.toNat ≤ 0x6C) else decide (0x60 ≤ f.op.toNat ∧ f.op.toNat ≤ 0x7E) := by
  have ho : f.toWord.extractLsb' 24 7 = f.op := congrArg Fields.op f.ofWord_toWord
  have hs : f.toWord.extractLsb' 31 1 = f.set := congrArg Fields.set f.ofWord_toWord
  have hb : f.toWord.getLsbD 31 = decide (f.set = 1) := by
    have := f.toWord.isLt
    simp only [← hs, ← BitVec.toNat_inj, BitVec.extractLsb'_toNat, BitVec.getLsbD, Nat.testBit_eq_decide_div_mod_eq, Nat.shiftRight_eq_div_pow]
    rfl
  simp only [twoWords, ho, hb]
  split <;> simp_all

end Sys2Proof
end

