-- ==== Sys2Proof/Laws/Table.lean ====
section
/-! SUPPORT. Tables: reading after writing, and the canonical form, which every table operation keeps. -/
namespace Sys2Proof.Machine

variable {α : Type}

@[simp] theorem SMap.find?_put_self (m : SMap α) (k : Nat) (v : α) : SMap.find? (SMap.put m k v) k = some v := by
  induction m with
  | nil => simp [SMap.put, SMap.find?]
  | cons e m ih =>
    obtain ⟨a, x⟩ := e
    simp only [SMap.put]
    split
    · simp [SMap.find?]
    · split
      · simp [SMap.find?]
      · simp [SMap.find?, *]

theorem SMap.find?_put_ne (m : SMap α) {k j : Nat} (v : α) (h : j ≠ k) : SMap.find? (SMap.put m k v) j = SMap.find? m j := by
  induction m with
  | nil => simp [SMap.put, SMap.find?, h.symm]
  | cons e m ih =>
    obtain ⟨a, x⟩ := e
    simp only [SMap.put]
    split
    · subst a; simp [SMap.find?, h.symm]
    · split
      · simp [SMap.find?, h.symm]
      · simp [SMap.find?, ih]

@[simp] theorem SMap.put_put (m : SMap α) (k : Nat) (v w : α) : SMap.put (SMap.put m k v) k w = SMap.put m k w := by
  induction m with
  | nil => simp [SMap.put]
  | cons e m ih =>
    obtain ⟨a, x⟩ := e
    simp only [SMap.put]
    by_cases h : a = k
    · simp [h, SMap.put]
    · by_cases h2 : k < a
      · simp [h, h2, SMap.put]
      · simp [h, h2, SMap.put, ih]

theorem SMap.sorted_cons {a : Nat} {x : α} {m : SMap α} : SMap.sorted ((a, x) :: m) = true ↔ (∀ e ∈ m, a < e.1) ∧ SMap.sorted m = true := by
  simp [SMap.sorted, List.all_eq_true]

theorem SMap.find?_of_lt {m : SMap α} {k : Nat} (h : ∀ e ∈ m, k < e.1) : SMap.find? m k = none := by
  induction m with
  | nil => rfl
  | cons e m ih =>
    obtain ⟨a, x⟩ := e
    have h1 := h (a, x) (by simp)
    simp only [SMap.find?]
    rw [if_neg (by simp only at h1; omega)]
    exact ih fun e he => h e (by simp [he])

theorem SMap.mem_put {m : SMap α} {k : Nat} {v : α} {e : Nat × α} (h : e ∈ SMap.put m k v) : e = (k, v) ∨ e ∈ m := by
  induction m with
  | nil => simpa [SMap.put] using h
  | cons f m ih =>
    obtain ⟨a, x⟩ := f
    simp only [SMap.put] at h
    split at h
    · simp only [List.mem_cons] at h ⊢; tauto
    · split at h
      · simp only [List.mem_cons] at h ⊢; tauto
      · simp only [List.mem_cons] at h ⊢
        rcases h with h | h
        · exact .inr (.inl h)
        · exact (ih h).imp_right .inr

theorem SMap.mem_del {m : SMap α} {k : Nat} {e : Nat × α} (h : e ∈ SMap.del m k) : e ∈ m := by
  induction m with
  | nil => simp [SMap.del] at h
  | cons f m ih =>
    obtain ⟨a, x⟩ := f
    simp only [SMap.del] at h
    split at h
    · simp [h]
    · split at h
      · exact h
      · simp only [List.mem_cons] at h ⊢
        exact h.imp_right ih

theorem SMap.sorted_put {m : SMap α} (k : Nat) (v : α) (h : SMap.sorted m = true) : SMap.sorted (SMap.put m k v) = true := by
  induction m with
  | nil => simp [SMap.put, SMap.sorted]
  | cons f m ih =>
    obtain ⟨a, x⟩ := f
    rw [SMap.sorted_cons] at h
    simp only [SMap.put]
    split
    · subst a; exact SMap.sorted_cons.2 h
    · split
      · rename_i h1 h2
        refine SMap.sorted_cons.2 ⟨?_, SMap.sorted_cons.2 h⟩
        intro e he
        rcases List.mem_cons.1 he with rfl | he
        · exact h2
        · exact h2.trans (h.1 e he)
      · rename_i h1 h2
        refine SMap.sorted_cons.2 ⟨fun e he => ?_, ih h.2⟩
        rcases SMap.mem_put he with rfl | he
        · simp only; omega
        · exact h.1 e he

theorem SMap.sorted_del {m : SMap α} (k : Nat) (h : SMap.sorted m = true) : SMap.sorted (SMap.del m k) = true := by
  induction m with
  | nil => simp [SMap.del, SMap.sorted]
  | cons f m ih =>
    obtain ⟨a, x⟩ := f
    have h' := h
    rw [SMap.sorted_cons] at h
    simp only [SMap.del]
    split
    · exact h.2
    · split
      · exact h'
      · exact SMap.sorted_cons.2 ⟨fun e he => h.1 e (SMap.mem_del he), ih h.2⟩

theorem SMap.find?_del_self {m : SMap α} (k : Nat) (h : SMap.sorted m = true) : SMap.find? (SMap.del m k) k = none := by
  induction m with
  | nil => rfl
  | cons f m ih =>
    obtain ⟨a, x⟩ := f
    rw [SMap.sorted_cons] at h
    simp only [SMap.del]
    split
    · subst a; exact SMap.find?_of_lt h.1
    · rename_i h1
      split
      · rename_i h2
        simp only [SMap.find?, if_neg h1]
        exact SMap.find?_of_lt fun e he => h2.trans (h.1 e he)
      · simp only [SMap.find?, if_neg h1]; exact ih h.2

theorem SMap.find?_del_ne (m : SMap α) {k j : Nat} (h : j ≠ k) : SMap.find? (SMap.del m k) j = SMap.find? m j := by
  induction m with
  | nil => rfl
  | cons f m ih =>
    obtain ⟨a, x⟩ := f
    simp only [SMap.del]
    split
    · subst a; simp [SMap.find?, h.symm]
    · split
      · rfl
      · simp only [SMap.find?, ih]

variable [DecidableEq α]

theorem SMap.get_set_self {d : α} {m : SMap α} (k : Nat) (v : α) (h : SMap.sorted m = true) : SMap.get d (SMap.set d m k v) k = v := by
  unfold SMap.set SMap.get
  split
  · simp [SMap.find?_del_self k h, *]
  · simp

theorem SMap.get_set_ne (d : α) (m : SMap α) {k j : Nat} (v : α) (h : j ≠ k) : SMap.get d (SMap.set d m k v) j = SMap.get d m j := by
  unfold SMap.set SMap.get
  split
  · rw [SMap.find?_del_ne m h]
  · rw [SMap.find?_put_ne m v h]

theorem SMap.wf_set {d : α} {m : SMap α} (k : Nat) (v : α) (h : SMap.wf d m = true) : SMap.wf d (SMap.set d m k v) = true := by
  simp only [SMap.wf, Bool.and_eq_true, List.all_eq_true, bne_iff_ne] at h ⊢
  unfold SMap.set
  split
  · exact ⟨SMap.sorted_del k h.1, fun e he => h.2 e (SMap.mem_del he)⟩
  · refine ⟨SMap.sorted_put k v h.1, fun e he => ?_⟩
    rcases SMap.mem_put he with rfl | he
    · assumption
    · exact h.2 e he

theorem SMap.sorted_of_wf {d : α} {m : SMap α} (h : SMap.wf d m = true) : SMap.sorted m = true := by
  simp only [SMap.wf, Bool.and_eq_true] at h; exact h.1

/-- Two tables in canonical form that read alike are equal. -/
theorem SMap.eq_of_get {d : α} {m n : SMap α} (hm : SMap.wf d m = true) (hn : SMap.wf d n = true)
    (h : ∀ k, SMap.get d m k = SMap.get d n k) : m = n := by
  induction m generalizing n with
  | nil =>
    cases n with
    | nil => rfl
    | cons f n =>
      obtain ⟨a, x⟩ := f
      have := h a
      simp only [SMap.wf, Bool.and_eq_true, List.all_eq_true, bne_iff_ne] at hn
      simp [SMap.get, SMap.find?] at this
      exact absurd this.symm (hn.2 (a, x) (by simp))
  | cons e m ih =>
    obtain ⟨a, x⟩ := e
    cases n with
    | nil =>
      have := h a
      simp only [SMap.wf, Bool.and_eq_true, List.all_eq_true, bne_iff_ne] at hm
      simp [SMap.get, SMap.find?] at this
      exact absurd this (hm.2 (a, x) (by simp))
    | cons f n =>
      obtain ⟨b, y⟩ := f
      simp only [SMap.wf, Bool.and_eq_true, List.all_eq_true, bne_iff_ne, SMap.sorted_cons] at hm hn
      have hx : x ≠ d := hm.2 (a, x) (by simp)
      have hy : y ≠ d := hn.2 (b, y) (by simp)
      have ha := h a
      have hb := h b
      simp only [SMap.get, SMap.find?, if_true, Option.getD_some] at ha hb
      have hab : a = b := by
        by_contra hne
        rw [if_neg (Ne.symm hne)] at ha
        rw [if_neg hne] at hb
        rcases Nat.lt_or_ge a b with hl | hl
        · rw [SMap.find?_of_lt fun e he => hl.trans (hn.1.1 e he)] at ha; exact hx ha
        · rw [SMap.find?_of_lt fun e he => (by omega : b < a).trans (hm.1.1 e he)] at hb; exact hy hb.symm
      subst hab
      rw [if_pos rfl] at ha
      simp only [Option.getD_some] at ha
      subst ha
      congr 1
      apply ih
      · simp only [SMap.wf, Bool.and_eq_true, List.all_eq_true, bne_iff_ne]
        exact ⟨hm.1.2, fun e he => hm.2 e (by simp [he])⟩
      · simp only [SMap.wf, Bool.and_eq_true, List.all_eq_true, bne_iff_ne]
        exact ⟨hn.1.2, fun e he => hn.2 e (by simp [he])⟩
      · intro k
        by_cases hk : a = k
        · subst hk; simp [SMap.get, SMap.find?_of_lt hm.1.1, SMap.find?_of_lt hn.1.1]
        · have := h k; simpa [SMap.get, SMap.find?, hk] using this

end Sys2Proof.Machine
end

