-- ==== Sys2Proof/Laws/State.lean ====
section
/-! SUPPORT. The state under its updates: what each leaves of every field, and reading a table after writing it. -/
namespace Sys2Proof.Machine

@[simp] theorem State.setGrp_mem (s : State) (gk : Nat) (g : Grp) : (s.setGrp gk g).mem = s.mem := rfl
@[simp] theorem State.setGrp_errlog (s : State) (gk : Nat) (g : Grp) : (s.setGrp gk g).errlog = s.errlog := rfl
@[simp] theorem State.setGrp_fatal (s : State) (gk : Nat) (g : Grp) : (s.setGrp gk g).fatal = s.fatal := rfl
@[simp] theorem State.setGrp_reqs (s : State) (gk : Nat) (g : Grp) : (s.setGrp gk g).reqs = s.reqs := rfl
@[simp] theorem State.setGrp_loads (s : State) (gk : Nat) (g : Grp) : (s.setGrp gk g).loads = s.loads := rfl
@[simp] theorem State.setGrp_bars (s : State) (gk : Nat) (g : Grp) : (s.setGrp gk g).bars = s.bars := rfl
@[simp] theorem State.setGrp_tlb (s : State) (gk : Nat) (g : Grp) : (s.setGrp gk g).tlb = s.tlb := rfl
@[simp] theorem State.setGrp_walks (s : State) (gk : Nat) (g : Grp) : (s.setGrp gk g).walks = s.walks := rfl
@[simp] theorem State.setGrp_looked (s : State) (gk : Nat) (g : Grp) : (s.setGrp gk g).looked = s.looked := rfl
@[simp] theorem State.setGrp_acts (s : State) (gk : Nat) (g : Grp) : (s.setGrp gk g).acts = s.acts := rfl
@[simp] theorem State.setGrp_arms (s : State) (gk : Nat) (g : Grp) : (s.setGrp gk g).arms = s.arms := rfl
@[simp] theorem State.setGrp_codeWas (s : State) (gk : Nat) (g : Grp) : (s.setGrp gk g).codeWas = s.codeWas := rfl
@[simp] theorem State.setGrp_spoiled (s : State) (gk : Nat) (g : Grp) : (s.setGrp gk g).spoiled = s.spoiled := rfl
@[simp] theorem State.setGrp_results (s : State) (gk : Nat) (g : Grp) : (s.setGrp gk g).results = s.results := rfl
@[simp] theorem State.setGrp_clock (s : State) (gk : Nat) (g : Grp) : (s.setGrp gk g).clock = s.clock := rfl
@[simp] theorem State.setGrp_closing (s : State) (gk : Nat) (g : Grp) : (s.setGrp gk g).closing = s.closing := rfl
@[simp] theorem State.setGrp_issuer (s : State) (gk : Nat) (g : Grp) : (s.setGrp gk g).issuer = s.issuer := rfl
@[simp] theorem State.setGrp_subject (s : State) (gk : Nat) (g : Grp) : (s.setGrp gk g).subject = s.subject := rfl
@[simp] theorem State.setGrp_free (s : State) (gk : Nat) (g : Grp) : (s.setGrp gk g).free = s.free := rfl
@[simp] theorem State.setGrp_seq (s : State) (gk : Nat) (g : Grp) : (s.setGrp gk g).seq = s.seq := rfl
@[simp] theorem State.setGrp_blocks (s : State) (gk : Nat) (g : Grp) : (s.setGrp gk g).blocks = s.blocks := rfl
@[simp] theorem State.setGrp_cores (s : State) (gk : Nat) (g : Grp) : (s.setGrp gk g).cores = s.cores := rfl
@[simp] theorem State.setGrp_ctxs (s : State) (gk : Nat) (g : Grp) : (s.setGrp gk g).ctxs = s.ctxs := rfl
@[simp] theorem State.setGrp_tasks (s : State) (gk : Nat) (g : Grp) : (s.setGrp gk g).tasks = s.tasks := rfl
@[simp] theorem State.setGrp_turn (s : State) (gk : Nat) (g : Grp) : (s.setGrp gk g).turn = s.turn := rfl
@[simp] theorem State.setGrp_records (s : State) (gk : Nat) (g : Grp) : (s.setGrp gk g).records = s.records := rfl
@[simp] theorem State.setGrp_stopRecs (s : State) (gk : Nat) (g : Grp) : (s.setGrp gk g).stopRecs = s.stopRecs := rfl
@[simp] theorem State.setGrp_ecmds (s : State) (gk : Nat) (g : Grp) : (s.setGrp gk g).ecmds = s.ecmds := rfl
@[simp] theorem State.setGrp_films (s : State) (gk : Nat) (g : Grp) : (s.setGrp gk g).films = s.films := rfl
@[simp] theorem State.setGrp_treeReqs (s : State) (gk : Nat) (g : Grp) : (s.setGrp gk g).treeReqs = s.treeReqs := rfl
@[simp] theorem State.setGrp_windows (s : State) (gk : Nat) (g : Grp) : (s.setGrp gk g).windows = s.windows := rfl
@[simp] theorem State.setGrp_fab (s : State) (gk : Nat) (g : Grp) : (s.setGrp gk g).fab = s.fab := rfl
@[simp] theorem State.setGrp_dev (s : State) (gk : Nat) (g : Grp) : (s.setGrp gk g).dev = s.dev := rfl
@[simp] theorem State.setGrp_inputs (s : State) (gk : Nat) (g : Grp) : (s.setGrp gk g).inputs = s.inputs := rfl

@[simp] theorem State.setBlk_mem (s : State) (bk : Nat) (b : Blk) : (s.setBlk bk b).mem = s.mem := rfl
@[simp] theorem State.setBlk_errlog (s : State) (bk : Nat) (b : Blk) : (s.setBlk bk b).errlog = s.errlog := rfl
@[simp] theorem State.setBlk_fatal (s : State) (bk : Nat) (b : Blk) : (s.setBlk bk b).fatal = s.fatal := rfl
@[simp] theorem State.setBlk_reqs (s : State) (bk : Nat) (b : Blk) : (s.setBlk bk b).reqs = s.reqs := rfl
@[simp] theorem State.setBlk_loads (s : State) (bk : Nat) (b : Blk) : (s.setBlk bk b).loads = s.loads := rfl
@[simp] theorem State.setBlk_bars (s : State) (bk : Nat) (b : Blk) : (s.setBlk bk b).bars = s.bars := rfl
@[simp] theorem State.setBlk_tlb (s : State) (bk : Nat) (b : Blk) : (s.setBlk bk b).tlb = s.tlb := rfl
@[simp] theorem State.setBlk_walks (s : State) (bk : Nat) (b : Blk) : (s.setBlk bk b).walks = s.walks := rfl
@[simp] theorem State.setBlk_looked (s : State) (bk : Nat) (b : Blk) : (s.setBlk bk b).looked = s.looked := rfl
@[simp] theorem State.setBlk_acts (s : State) (bk : Nat) (b : Blk) : (s.setBlk bk b).acts = s.acts := rfl
@[simp] theorem State.setBlk_arms (s : State) (bk : Nat) (b : Blk) : (s.setBlk bk b).arms = s.arms := rfl
@[simp] theorem State.setBlk_codeWas (s : State) (bk : Nat) (b : Blk) : (s.setBlk bk b).codeWas = s.codeWas := rfl
@[simp] theorem State.setBlk_spoiled (s : State) (bk : Nat) (b : Blk) : (s.setBlk bk b).spoiled = s.spoiled := rfl
@[simp] theorem State.setBlk_results (s : State) (bk : Nat) (b : Blk) : (s.setBlk bk b).results = s.results := rfl
@[simp] theorem State.setBlk_clock (s : State) (bk : Nat) (b : Blk) : (s.setBlk bk b).clock = s.clock := rfl
@[simp] theorem State.setBlk_closing (s : State) (bk : Nat) (b : Blk) : (s.setBlk bk b).closing = s.closing := rfl
@[simp] theorem State.setBlk_issuer (s : State) (bk : Nat) (b : Blk) : (s.setBlk bk b).issuer = s.issuer := rfl
@[simp] theorem State.setBlk_subject (s : State) (bk : Nat) (b : Blk) : (s.setBlk bk b).subject = s.subject := rfl
@[simp] theorem State.setBlk_free (s : State) (bk : Nat) (b : Blk) : (s.setBlk bk b).free = s.free := rfl
@[simp] theorem State.setBlk_seq (s : State) (bk : Nat) (b : Blk) : (s.setBlk bk b).seq = s.seq := rfl
@[simp] theorem State.setBlk_groups (s : State) (bk : Nat) (b : Blk) : (s.setBlk bk b).groups = s.groups := rfl
@[simp] theorem State.setBlk_cores (s : State) (bk : Nat) (b : Blk) : (s.setBlk bk b).cores = s.cores := rfl
@[simp] theorem State.setBlk_ctxs (s : State) (bk : Nat) (b : Blk) : (s.setBlk bk b).ctxs = s.ctxs := rfl
@[simp] theorem State.setBlk_tasks (s : State) (bk : Nat) (b : Blk) : (s.setBlk bk b).tasks = s.tasks := rfl
@[simp] theorem State.setBlk_turn (s : State) (bk : Nat) (b : Blk) : (s.setBlk bk b).turn = s.turn := rfl
@[simp] theorem State.setBlk_records (s : State) (bk : Nat) (b : Blk) : (s.setBlk bk b).records = s.records := rfl
@[simp] theorem State.setBlk_stopRecs (s : State) (bk : Nat) (b : Blk) : (s.setBlk bk b).stopRecs = s.stopRecs := rfl
@[simp] theorem State.setBlk_ecmds (s : State) (bk : Nat) (b : Blk) : (s.setBlk bk b).ecmds = s.ecmds := rfl
@[simp] theorem State.setBlk_films (s : State) (bk : Nat) (b : Blk) : (s.setBlk bk b).films = s.films := rfl
@[simp] theorem State.setBlk_treeReqs (s : State) (bk : Nat) (b : Blk) : (s.setBlk bk b).treeReqs = s.treeReqs := rfl
@[simp] theorem State.setBlk_windows (s : State) (bk : Nat) (b : Blk) : (s.setBlk bk b).windows = s.windows := rfl
@[simp] theorem State.setBlk_fab (s : State) (bk : Nat) (b : Blk) : (s.setBlk bk b).fab = s.fab := rfl
@[simp] theorem State.setBlk_dev (s : State) (bk : Nat) (b : Blk) : (s.setBlk bk b).dev = s.dev := rfl
@[simp] theorem State.setBlk_inputs (s : State) (bk : Nat) (b : Blk) : (s.setBlk bk b).inputs = s.inputs := rfl

@[simp] theorem State.setCore_mem (s : State) (c : Nat) (x : Core) : (s.setCore c x).mem = s.mem := rfl
@[simp] theorem State.setCore_errlog (s : State) (c : Nat) (x : Core) : (s.setCore c x).errlog = s.errlog := rfl
@[simp] theorem State.setCore_fatal (s : State) (c : Nat) (x : Core) : (s.setCore c x).fatal = s.fatal := rfl
@[simp] theorem State.setCore_reqs (s : State) (c : Nat) (x : Core) : (s.setCore c x).reqs = s.reqs := rfl
@[simp] theorem State.setCore_loads (s : State) (c : Nat) (x : Core) : (s.setCore c x).loads = s.loads := rfl
@[simp] theorem State.setCore_bars (s : State) (c : Nat) (x : Core) : (s.setCore c x).bars = s.bars := rfl
@[simp] theorem State.setCore_tlb (s : State) (c : Nat) (x : Core) : (s.setCore c x).tlb = s.tlb := rfl
@[simp] theorem State.setCore_walks (s : State) (c : Nat) (x : Core) : (s.setCore c x).walks = s.walks := rfl
@[simp] theorem State.setCore_looked (s : State) (c : Nat) (x : Core) : (s.setCore c x).looked = s.looked := rfl
@[simp] theorem State.setCore_acts (s : State) (c : Nat) (x : Core) : (s.setCore c x).acts = s.acts := rfl
@[simp] theorem State.setCore_arms (s : State) (c : Nat) (x : Core) : (s.setCore c x).arms = s.arms := rfl
@[simp] theorem State.setCore_codeWas (s : State) (c : Nat) (x : Core) : (s.setCore c x).codeWas = s.codeWas := rfl
@[simp] theorem State.setCore_spoiled (s : State) (c : Nat) (x : Core) : (s.setCore c x).spoiled = s.spoiled := rfl
@[simp] theorem State.setCore_results (s : State) (c : Nat) (x : Core) : (s.setCore c x).results = s.results := rfl
@[simp] theorem State.setCore_clock (s : State) (c : Nat) (x : Core) : (s.setCore c x).clock = s.clock := rfl
@[simp] theorem State.setCore_closing (s : State) (c : Nat) (x : Core) : (s.setCore c x).closing = s.closing := rfl
@[simp] theorem State.setCore_issuer (s : State) (c : Nat) (x : Core) : (s.setCore c x).issuer = s.issuer := rfl
@[simp] theorem State.setCore_subject (s : State) (c : Nat) (x : Core) : (s.setCore c x).subject = s.subject := rfl
@[simp] theorem State.setCore_free (s : State) (c : Nat) (x : Core) : (s.setCore c x).free = s.free := rfl
@[simp] theorem State.setCore_seq (s : State) (c : Nat) (x : Core) : (s.setCore c x).seq = s.seq := rfl
@[simp] theorem State.setCore_groups (s : State) (c : Nat) (x : Core) : (s.setCore c x).groups = s.groups := rfl
@[simp] theorem State.setCore_blocks (s : State) (c : Nat) (x : Core) : (s.setCore c x).blocks = s.blocks := rfl
@[simp] theorem State.setCore_ctxs (s : State) (c : Nat) (x : Core) : (s.setCore c x).ctxs = s.ctxs := rfl
@[simp] theorem State.setCore_tasks (s : State) (c : Nat) (x : Core) : (s.setCore c x).tasks = s.tasks := rfl
@[simp] theorem State.setCore_turn (s : State) (c : Nat) (x : Core) : (s.setCore c x).turn = s.turn := rfl
@[simp] theorem State.setCore_records (s : State) (c : Nat) (x : Core) : (s.setCore c x).records = s.records := rfl
@[simp] theorem State.setCore_stopRecs (s : State) (c : Nat) (x : Core) : (s.setCore c x).stopRecs = s.stopRecs := rfl
@[simp] theorem State.setCore_ecmds (s : State) (c : Nat) (x : Core) : (s.setCore c x).ecmds = s.ecmds := rfl
@[simp] theorem State.setCore_films (s : State) (c : Nat) (x : Core) : (s.setCore c x).films = s.films := rfl
@[simp] theorem State.setCore_treeReqs (s : State) (c : Nat) (x : Core) : (s.setCore c x).treeReqs = s.treeReqs := rfl
@[simp] theorem State.setCore_windows (s : State) (c : Nat) (x : Core) : (s.setCore c x).windows = s.windows := rfl
@[simp] theorem State.setCore_fab (s : State) (c : Nat) (x : Core) : (s.setCore c x).fab = s.fab := rfl
@[simp] theorem State.setCore_dev (s : State) (c : Nat) (x : Core) : (s.setCore c x).dev = s.dev := rfl
@[simp] theorem State.setCore_inputs (s : State) (c : Nat) (x : Core) : (s.setCore c x).inputs = s.inputs := rfl

@[simp] theorem State.setCtx_mem (s : State) (c : Nat) (x : Ctx) : (s.setCtx c x).mem = s.mem := rfl
@[simp] theorem State.setCtx_errlog (s : State) (c : Nat) (x : Ctx) : (s.setCtx c x).errlog = s.errlog := rfl
@[simp] theorem State.setCtx_fatal (s : State) (c : Nat) (x : Ctx) : (s.setCtx c x).fatal = s.fatal := rfl
@[simp] theorem State.setCtx_reqs (s : State) (c : Nat) (x : Ctx) : (s.setCtx c x).reqs = s.reqs := rfl
@[simp] theorem State.setCtx_loads (s : State) (c : Nat) (x : Ctx) : (s.setCtx c x).loads = s.loads := rfl
@[simp] theorem State.setCtx_bars (s : State) (c : Nat) (x : Ctx) : (s.setCtx c x).bars = s.bars := rfl
@[simp] theorem State.setCtx_tlb (s : State) (c : Nat) (x : Ctx) : (s.setCtx c x).tlb = s.tlb := rfl
@[simp] theorem State.setCtx_walks (s : State) (c : Nat) (x : Ctx) : (s.setCtx c x).walks = s.walks := rfl
@[simp] theorem State.setCtx_looked (s : State) (c : Nat) (x : Ctx) : (s.setCtx c x).looked = s.looked := rfl
@[simp] theorem State.setCtx_acts (s : State) (c : Nat) (x : Ctx) : (s.setCtx c x).acts = s.acts := rfl
@[simp] theorem State.setCtx_arms (s : State) (c : Nat) (x : Ctx) : (s.setCtx c x).arms = s.arms := rfl
@[simp] theorem State.setCtx_codeWas (s : State) (c : Nat) (x : Ctx) : (s.setCtx c x).codeWas = s.codeWas := rfl
@[simp] theorem State.setCtx_spoiled (s : State) (c : Nat) (x : Ctx) : (s.setCtx c x).spoiled = s.spoiled := rfl
@[simp] theorem State.setCtx_results (s : State) (c : Nat) (x : Ctx) : (s.setCtx c x).results = s.results := rfl
@[simp] theorem State.setCtx_clock (s : State) (c : Nat) (x : Ctx) : (s.setCtx c x).clock = s.clock := rfl
@[simp] theorem State.setCtx_closing (s : State) (c : Nat) (x : Ctx) : (s.setCtx c x).closing = s.closing := rfl
@[simp] theorem State.setCtx_issuer (s : State) (c : Nat) (x : Ctx) : (s.setCtx c x).issuer = s.issuer := rfl
@[simp] theorem State.setCtx_subject (s : State) (c : Nat) (x : Ctx) : (s.setCtx c x).subject = s.subject := rfl
@[simp] theorem State.setCtx_free (s : State) (c : Nat) (x : Ctx) : (s.setCtx c x).free = s.free := rfl
@[simp] theorem State.setCtx_seq (s : State) (c : Nat) (x : Ctx) : (s.setCtx c x).seq = s.seq := rfl
@[simp] theorem State.setCtx_groups (s : State) (c : Nat) (x : Ctx) : (s.setCtx c x).groups = s.groups := rfl
@[simp] theorem State.setCtx_blocks (s : State) (c : Nat) (x : Ctx) : (s.setCtx c x).blocks = s.blocks := rfl
@[simp] theorem State.setCtx_cores (s : State) (c : Nat) (x : Ctx) : (s.setCtx c x).cores = s.cores := rfl
@[simp] theorem State.setCtx_tasks (s : State) (c : Nat) (x : Ctx) : (s.setCtx c x).tasks = s.tasks := rfl
@[simp] theorem State.setCtx_turn (s : State) (c : Nat) (x : Ctx) : (s.setCtx c x).turn = s.turn := rfl
@[simp] theorem State.setCtx_records (s : State) (c : Nat) (x : Ctx) : (s.setCtx c x).records = s.records := rfl
@[simp] theorem State.setCtx_stopRecs (s : State) (c : Nat) (x : Ctx) : (s.setCtx c x).stopRecs = s.stopRecs := rfl
@[simp] theorem State.setCtx_ecmds (s : State) (c : Nat) (x : Ctx) : (s.setCtx c x).ecmds = s.ecmds := rfl
@[simp] theorem State.setCtx_films (s : State) (c : Nat) (x : Ctx) : (s.setCtx c x).films = s.films := rfl
@[simp] theorem State.setCtx_treeReqs (s : State) (c : Nat) (x : Ctx) : (s.setCtx c x).treeReqs = s.treeReqs := rfl
@[simp] theorem State.setCtx_windows (s : State) (c : Nat) (x : Ctx) : (s.setCtx c x).windows = s.windows := rfl
@[simp] theorem State.setCtx_fab (s : State) (c : Nat) (x : Ctx) : (s.setCtx c x).fab = s.fab := rfl
@[simp] theorem State.setCtx_dev (s : State) (c : Nat) (x : Ctx) : (s.setCtx c x).dev = s.dev := rfl
@[simp] theorem State.setCtx_inputs (s : State) (c : Nat) (x : Ctx) : (s.setCtx c x).inputs = s.inputs := rfl

@[simp] theorem State.updGrp_mem (s : State) (gk : Nat) (f : Grp → Grp) : (s.updGrp gk f).mem = s.mem := by unfold State.updGrp; split <;> rfl
@[simp] theorem State.updGrp_errlog (s : State) (gk : Nat) (f : Grp → Grp) : (s.updGrp gk f).errlog = s.errlog := by unfold State.updGrp; split <;> rfl
@[simp] theorem State.updGrp_fatal (s : State) (gk : Nat) (f : Grp → Grp) : (s.updGrp gk f).fatal = s.fatal := by unfold State.updGrp; split <;> rfl
@[simp] theorem State.updGrp_reqs (s : State) (gk : Nat) (f : Grp → Grp) : (s.updGrp gk f).reqs = s.reqs := by unfold State.updGrp; split <;> rfl
@[simp] theorem State.updGrp_loads (s : State) (gk : Nat) (f : Grp → Grp) : (s.updGrp gk f).loads = s.loads := by unfold State.updGrp; split <;> rfl
@[simp] theorem State.updGrp_bars (s : State) (gk : Nat) (f : Grp → Grp) : (s.updGrp gk f).bars = s.bars := by unfold State.updGrp; split <;> rfl
@[simp] theorem State.updGrp_tlb (s : State) (gk : Nat) (f : Grp → Grp) : (s.updGrp gk f).tlb = s.tlb := by unfold State.updGrp; split <;> rfl
@[simp] theorem State.updGrp_walks (s : State) (gk : Nat) (f : Grp → Grp) : (s.updGrp gk f).walks = s.walks := by unfold State.updGrp; split <;> rfl
@[simp] theorem State.updGrp_looked (s : State) (gk : Nat) (f : Grp → Grp) : (s.updGrp gk f).looked = s.looked := by unfold State.updGrp; split <;> rfl
@[simp] theorem State.updGrp_acts (s : State) (gk : Nat) (f : Grp → Grp) : (s.updGrp gk f).acts = s.acts := by unfold State.updGrp; split <;> rfl
@[simp] theorem State.updGrp_arms (s : State) (gk : Nat) (f : Grp → Grp) : (s.updGrp gk f).arms = s.arms := by unfold State.updGrp; split <;> rfl
@[simp] theorem State.updGrp_codeWas (s : State) (gk : Nat) (f : Grp → Grp) : (s.updGrp gk f).codeWas = s.codeWas := by unfold State.updGrp; split <;> rfl
@[simp] theorem State.updGrp_spoiled (s : State) (gk : Nat) (f : Grp → Grp) : (s.updGrp gk f).spoiled = s.spoiled := by unfold State.updGrp; split <;> rfl
@[simp] theorem State.updGrp_results (s : State) (gk : Nat) (f : Grp → Grp) : (s.updGrp gk f).results = s.results := by unfold State.updGrp; split <;> rfl
@[simp] theorem State.updGrp_clock (s : State) (gk : Nat) (f : Grp → Grp) : (s.updGrp gk f).clock = s.clock := by unfold State.updGrp; split <;> rfl
@[simp] theorem State.updGrp_closing (s : State) (gk : Nat) (f : Grp → Grp) : (s.updGrp gk f).closing = s.closing := by unfold State.updGrp; split <;> rfl
@[simp] theorem State.updGrp_issuer (s : State) (gk : Nat) (f : Grp → Grp) : (s.updGrp gk f).issuer = s.issuer := by unfold State.updGrp; split <;> rfl
@[simp] theorem State.updGrp_subject (s : State) (gk : Nat) (f : Grp → Grp) : (s.updGrp gk f).subject = s.subject := by unfold State.updGrp; split <;> rfl
@[simp] theorem State.updGrp_free (s : State) (gk : Nat) (f : Grp → Grp) : (s.updGrp gk f).free = s.free := by unfold State.updGrp; split <;> rfl
@[simp] theorem State.updGrp_seq (s : State) (gk : Nat) (f : Grp → Grp) : (s.updGrp gk f).seq = s.seq := by unfold State.updGrp; split <;> rfl
@[simp] theorem State.updGrp_blocks (s : State) (gk : Nat) (f : Grp → Grp) : (s.updGrp gk f).blocks = s.blocks := by unfold State.updGrp; split <;> rfl
@[simp] theorem State.updGrp_cores (s : State) (gk : Nat) (f : Grp → Grp) : (s.updGrp gk f).cores = s.cores := by unfold State.updGrp; split <;> rfl
@[simp] theorem State.updGrp_ctxs (s : State) (gk : Nat) (f : Grp → Grp) : (s.updGrp gk f).ctxs = s.ctxs := by unfold State.updGrp; split <;> rfl
@[simp] theorem State.updGrp_tasks (s : State) (gk : Nat) (f : Grp → Grp) : (s.updGrp gk f).tasks = s.tasks := by unfold State.updGrp; split <;> rfl
@[simp] theorem State.updGrp_turn (s : State) (gk : Nat) (f : Grp → Grp) : (s.updGrp gk f).turn = s.turn := by unfold State.updGrp; split <;> rfl
@[simp] theorem State.updGrp_records (s : State) (gk : Nat) (f : Grp → Grp) : (s.updGrp gk f).records = s.records := by unfold State.updGrp; split <;> rfl
@[simp] theorem State.updGrp_stopRecs (s : State) (gk : Nat) (f : Grp → Grp) : (s.updGrp gk f).stopRecs = s.stopRecs := by unfold State.updGrp; split <;> rfl
@[simp] theorem State.updGrp_ecmds (s : State) (gk : Nat) (f : Grp → Grp) : (s.updGrp gk f).ecmds = s.ecmds := by unfold State.updGrp; split <;> rfl
@[simp] theorem State.updGrp_films (s : State) (gk : Nat) (f : Grp → Grp) : (s.updGrp gk f).films = s.films := by unfold State.updGrp; split <;> rfl
@[simp] theorem State.updGrp_treeReqs (s : State) (gk : Nat) (f : Grp → Grp) : (s.updGrp gk f).treeReqs = s.treeReqs := by unfold State.updGrp; split <;> rfl
@[simp] theorem State.updGrp_windows (s : State) (gk : Nat) (f : Grp → Grp) : (s.updGrp gk f).windows = s.windows := by unfold State.updGrp; split <;> rfl
@[simp] theorem State.updGrp_fab (s : State) (gk : Nat) (f : Grp → Grp) : (s.updGrp gk f).fab = s.fab := by unfold State.updGrp; split <;> rfl
@[simp] theorem State.updGrp_dev (s : State) (gk : Nat) (f : Grp → Grp) : (s.updGrp gk f).dev = s.dev := by unfold State.updGrp; split <;> rfl
@[simp] theorem State.updGrp_inputs (s : State) (gk : Nat) (f : Grp → Grp) : (s.updGrp gk f).inputs = s.inputs := by unfold State.updGrp; split <;> rfl

@[simp] theorem State.updBlk_mem (s : State) (bk : Nat) (f : Blk → Blk) : (s.updBlk bk f).mem = s.mem := by unfold State.updBlk; split <;> rfl
@[simp] theorem State.updBlk_errlog (s : State) (bk : Nat) (f : Blk → Blk) : (s.updBlk bk f).errlog = s.errlog := by unfold State.updBlk; split <;> rfl
@[simp] theorem State.updBlk_fatal (s : State) (bk : Nat) (f : Blk → Blk) : (s.updBlk bk f).fatal = s.fatal := by unfold State.updBlk; split <;> rfl
@[simp] theorem State.updBlk_reqs (s : State) (bk : Nat) (f : Blk → Blk) : (s.updBlk bk f).reqs = s.reqs := by unfold State.updBlk; split <;> rfl
@[simp] theorem State.updBlk_loads (s : State) (bk : Nat) (f : Blk → Blk) : (s.updBlk bk f).loads = s.loads := by unfold State.updBlk; split <;> rfl
@[simp] theorem State.updBlk_bars (s : State) (bk : Nat) (f : Blk → Blk) : (s.updBlk bk f).bars = s.bars := by unfold State.updBlk; split <;> rfl
@[simp] theorem State.updBlk_tlb (s : State) (bk : Nat) (f : Blk → Blk) : (s.updBlk bk f).tlb = s.tlb := by unfold State.updBlk; split <;> rfl
@[simp] theorem State.updBlk_walks (s : State) (bk : Nat) (f : Blk → Blk) : (s.updBlk bk f).walks = s.walks := by unfold State.updBlk; split <;> rfl
@[simp] theorem State.updBlk_looked (s : State) (bk : Nat) (f : Blk → Blk) : (s.updBlk bk f).looked = s.looked := by unfold State.updBlk; split <;> rfl
@[simp] theorem State.updBlk_acts (s : State) (bk : Nat) (f : Blk → Blk) : (s.updBlk bk f).acts = s.acts := by unfold State.updBlk; split <;> rfl
@[simp] theorem State.updBlk_arms (s : State) (bk : Nat) (f : Blk → Blk) : (s.updBlk bk f).arms = s.arms := by unfold State.updBlk; split <;> rfl
@[simp] theorem State.updBlk_codeWas (s : State) (bk : Nat) (f : Blk → Blk) : (s.updBlk bk f).codeWas = s.codeWas := by unfold State.updBlk; split <;> rfl
@[simp] theorem State.updBlk_spoiled (s : State) (bk : Nat) (f : Blk → Blk) : (s.updBlk bk f).spoiled = s.spoiled := by unfold State.updBlk; split <;> rfl
@[simp] theorem State.updBlk_results (s : State) (bk : Nat) (f : Blk → Blk) : (s.updBlk bk f).results = s.results := by unfold State.updBlk; split <;> rfl
@[simp] theorem State.updBlk_clock (s : State) (bk : Nat) (f : Blk → Blk) : (s.updBlk bk f).clock = s.clock := by unfold State.updBlk; split <;> rfl
@[simp] theorem State.updBlk_closing (s : State) (bk : Nat) (f : Blk → Blk) : (s.updBlk bk f).closing = s.closing := by unfold State.updBlk; split <;> rfl
@[simp] theorem State.updBlk_issuer (s : State) (bk : Nat) (f : Blk → Blk) : (s.updBlk bk f).issuer = s.issuer := by unfold State.updBlk; split <;> rfl
@[simp] theorem State.updBlk_subject (s : State) (bk : Nat) (f : Blk → Blk) : (s.updBlk bk f).subject = s.subject := by unfold State.updBlk; split <;> rfl
@[simp] theorem State.updBlk_free (s : State) (bk : Nat) (f : Blk → Blk) : (s.updBlk bk f).free = s.free := by unfold State.updBlk; split <;> rfl
@[simp] theorem State.updBlk_seq (s : State) (bk : Nat) (f : Blk → Blk) : (s.updBlk bk f).seq = s.seq := by unfold State.updBlk; split <;> rfl
@[simp] theorem State.updBlk_groups (s : State) (bk : Nat) (f : Blk → Blk) : (s.updBlk bk f).groups = s.groups := by unfold State.updBlk; split <;> rfl
@[simp] theorem State.updBlk_cores (s : State) (bk : Nat) (f : Blk → Blk) : (s.updBlk bk f).cores = s.cores := by unfold State.updBlk; split <;> rfl
@[simp] theorem State.updBlk_ctxs (s : State) (bk : Nat) (f : Blk → Blk) : (s.updBlk bk f).ctxs = s.ctxs := by unfold State.updBlk; split <;> rfl
@[simp] theorem State.updBlk_tasks (s : State) (bk : Nat) (f : Blk → Blk) : (s.updBlk bk f).tasks = s.tasks := by unfold State.updBlk; split <;> rfl
@[simp] theorem State.updBlk_turn (s : State) (bk : Nat) (f : Blk → Blk) : (s.updBlk bk f).turn = s.turn := by unfold State.updBlk; split <;> rfl
@[simp] theorem State.updBlk_records (s : State) (bk : Nat) (f : Blk → Blk) : (s.updBlk bk f).records = s.records := by unfold State.updBlk; split <;> rfl
@[simp] theorem State.updBlk_stopRecs (s : State) (bk : Nat) (f : Blk → Blk) : (s.updBlk bk f).stopRecs = s.stopRecs := by unfold State.updBlk; split <;> rfl
@[simp] theorem State.updBlk_ecmds (s : State) (bk : Nat) (f : Blk → Blk) : (s.updBlk bk f).ecmds = s.ecmds := by unfold State.updBlk; split <;> rfl
@[simp] theorem State.updBlk_films (s : State) (bk : Nat) (f : Blk → Blk) : (s.updBlk bk f).films = s.films := by unfold State.updBlk; split <;> rfl
@[simp] theorem State.updBlk_treeReqs (s : State) (bk : Nat) (f : Blk → Blk) : (s.updBlk bk f).treeReqs = s.treeReqs := by unfold State.updBlk; split <;> rfl
@[simp] theorem State.updBlk_windows (s : State) (bk : Nat) (f : Blk → Blk) : (s.updBlk bk f).windows = s.windows := by unfold State.updBlk; split <;> rfl
@[simp] theorem State.updBlk_fab (s : State) (bk : Nat) (f : Blk → Blk) : (s.updBlk bk f).fab = s.fab := by unfold State.updBlk; split <;> rfl
@[simp] theorem State.updBlk_dev (s : State) (bk : Nat) (f : Blk → Blk) : (s.updBlk bk f).dev = s.dev := by unfold State.updBlk; split <;> rfl
@[simp] theorem State.updBlk_inputs (s : State) (bk : Nat) (f : Blk → Blk) : (s.updBlk bk f).inputs = s.inputs := by unfold State.updBlk; split <;> rfl

@[simp] theorem State.updCore_mem (s : State) (c : Nat) (f : Core → Core) : (s.updCore c f).mem = s.mem := rfl
@[simp] theorem State.updCore_errlog (s : State) (c : Nat) (f : Core → Core) : (s.updCore c f).errlog = s.errlog := rfl
@[simp] theorem State.updCore_fatal (s : State) (c : Nat) (f : Core → Core) : (s.updCore c f).fatal = s.fatal := rfl
@[simp] theorem State.updCore_reqs (s : State) (c : Nat) (f : Core → Core) : (s.updCore c f).reqs = s.reqs := rfl
@[simp] theorem State.updCore_loads (s : State) (c : Nat) (f : Core → Core) : (s.updCore c f).loads = s.loads := rfl
@[simp] theorem State.updCore_bars (s : State) (c : Nat) (f : Core → Core) : (s.updCore c f).bars = s.bars := rfl
@[simp] theorem State.updCore_tlb (s : State) (c : Nat) (f : Core → Core) : (s.updCore c f).tlb = s.tlb := rfl
@[simp] theorem State.updCore_walks (s : State) (c : Nat) (f : Core → Core) : (s.updCore c f).walks = s.walks := rfl
@[simp] theorem State.updCore_looked (s : State) (c : Nat) (f : Core → Core) : (s.updCore c f).looked = s.looked := rfl
@[simp] theorem State.updCore_acts (s : State) (c : Nat) (f : Core → Core) : (s.updCore c f).acts = s.acts := rfl
@[simp] theorem State.updCore_arms (s : State) (c : Nat) (f : Core → Core) : (s.updCore c f).arms = s.arms := rfl
@[simp] theorem State.updCore_codeWas (s : State) (c : Nat) (f : Core → Core) : (s.updCore c f).codeWas = s.codeWas := rfl
@[simp] theorem State.updCore_spoiled (s : State) (c : Nat) (f : Core → Core) : (s.updCore c f).spoiled = s.spoiled := rfl
@[simp] theorem State.updCore_results (s : State) (c : Nat) (f : Core → Core) : (s.updCore c f).results = s.results := rfl
@[simp] theorem State.updCore_clock (s : State) (c : Nat) (f : Core → Core) : (s.updCore c f).clock = s.clock := rfl
@[simp] theorem State.updCore_closing (s : State) (c : Nat) (f : Core → Core) : (s.updCore c f).closing = s.closing := rfl
@[simp] theorem State.updCore_issuer (s : State) (c : Nat) (f : Core → Core) : (s.updCore c f).issuer = s.issuer := rfl
@[simp] theorem State.updCore_subject (s : State) (c : Nat) (f : Core → Core) : (s.updCore c f).subject = s.subject := rfl
@[simp] theorem State.updCore_free (s : State) (c : Nat) (f : Core → Core) : (s.updCore c f).free = s.free := rfl
@[simp] theorem State.updCore_seq (s : State) (c : Nat) (f : Core → Core) : (s.updCore c f).seq = s.seq := rfl
@[simp] theorem State.updCore_groups (s : State) (c : Nat) (f : Core → Core) : (s.updCore c f).groups = s.groups := rfl
@[simp] theorem State.updCore_blocks (s : State) (c : Nat) (f : Core → Core) : (s.updCore c f).blocks = s.blocks := rfl
@[simp] theorem State.updCore_ctxs (s : State) (c : Nat) (f : Core → Core) : (s.updCore c f).ctxs = s.ctxs := rfl
@[simp] theorem State.updCore_tasks (s : State) (c : Nat) (f : Core → Core) : (s.updCore c f).tasks = s.tasks := rfl
@[simp] theorem State.updCore_turn (s : State) (c : Nat) (f : Core → Core) : (s.updCore c f).turn = s.turn := rfl
@[simp] theorem State.updCore_records (s : State) (c : Nat) (f : Core → Core) : (s.updCore c f).records = s.records := rfl
@[simp] theorem State.updCore_stopRecs (s : State) (c : Nat) (f : Core → Core) : (s.updCore c f).stopRecs = s.stopRecs := rfl
@[simp] theorem State.updCore_ecmds (s : State) (c : Nat) (f : Core → Core) : (s.updCore c f).ecmds = s.ecmds := rfl
@[simp] theorem State.updCore_films (s : State) (c : Nat) (f : Core → Core) : (s.updCore c f).films = s.films := rfl
@[simp] theorem State.updCore_treeReqs (s : State) (c : Nat) (f : Core → Core) : (s.updCore c f).treeReqs = s.treeReqs := rfl
@[simp] theorem State.updCore_windows (s : State) (c : Nat) (f : Core → Core) : (s.updCore c f).windows = s.windows := rfl
@[simp] theorem State.updCore_fab (s : State) (c : Nat) (f : Core → Core) : (s.updCore c f).fab = s.fab := rfl
@[simp] theorem State.updCore_dev (s : State) (c : Nat) (f : Core → Core) : (s.updCore c f).dev = s.dev := rfl
@[simp] theorem State.updCore_inputs (s : State) (c : Nat) (f : Core → Core) : (s.updCore c f).inputs = s.inputs := rfl

@[simp] theorem State.updCtx_mem (s : State) (c : Nat) (f : Ctx → Ctx) : (s.updCtx c f).mem = s.mem := rfl
@[simp] theorem State.updCtx_errlog (s : State) (c : Nat) (f : Ctx → Ctx) : (s.updCtx c f).errlog = s.errlog := rfl
@[simp] theorem State.updCtx_fatal (s : State) (c : Nat) (f : Ctx → Ctx) : (s.updCtx c f).fatal = s.fatal := rfl
@[simp] theorem State.updCtx_reqs (s : State) (c : Nat) (f : Ctx → Ctx) : (s.updCtx c f).reqs = s.reqs := rfl
@[simp] theorem State.updCtx_loads (s : State) (c : Nat) (f : Ctx → Ctx) : (s.updCtx c f).loads = s.loads := rfl
@[simp] theorem State.updCtx_bars (s : State) (c : Nat) (f : Ctx → Ctx) : (s.updCtx c f).bars = s.bars := rfl
@[simp] theorem State.updCtx_tlb (s : State) (c : Nat) (f : Ctx → Ctx) : (s.updCtx c f).tlb = s.tlb := rfl
@[simp] theorem State.updCtx_walks (s : State) (c : Nat) (f : Ctx → Ctx) : (s.updCtx c f).walks = s.walks := rfl
@[simp] theorem State.updCtx_looked (s : State) (c : Nat) (f : Ctx → Ctx) : (s.updCtx c f).looked = s.looked := rfl
@[simp] theorem State.updCtx_acts (s : State) (c : Nat) (f : Ctx → Ctx) : (s.updCtx c f).acts = s.acts := rfl
@[simp] theorem State.updCtx_arms (s : State) (c : Nat) (f : Ctx → Ctx) : (s.updCtx c f).arms = s.arms := rfl
@[simp] theorem State.updCtx_codeWas (s : State) (c : Nat) (f : Ctx → Ctx) : (s.updCtx c f).codeWas = s.codeWas := rfl
@[simp] theorem State.updCtx_spoiled (s : State) (c : Nat) (f : Ctx → Ctx) : (s.updCtx c f).spoiled = s.spoiled := rfl
@[simp] theorem State.updCtx_results (s : State) (c : Nat) (f : Ctx → Ctx) : (s.updCtx c f).results = s.results := rfl
@[simp] theorem State.updCtx_clock (s : State) (c : Nat) (f : Ctx → Ctx) : (s.updCtx c f).clock = s.clock := rfl
@[simp] theorem State.updCtx_closing (s : State) (c : Nat) (f : Ctx → Ctx) : (s.updCtx c f).closing = s.closing := rfl
@[simp] theorem State.updCtx_issuer (s : State) (c : Nat) (f : Ctx → Ctx) : (s.updCtx c f).issuer = s.issuer := rfl
@[simp] theorem State.updCtx_subject (s : State) (c : Nat) (f : Ctx → Ctx) : (s.updCtx c f).subject = s.subject := rfl
@[simp] theorem State.updCtx_free (s : State) (c : Nat) (f : Ctx → Ctx) : (s.updCtx c f).free = s.free := rfl
@[simp] theorem State.updCtx_seq (s : State) (c : Nat) (f : Ctx → Ctx) : (s.updCtx c f).seq = s.seq := rfl
@[simp] theorem State.updCtx_groups (s : State) (c : Nat) (f : Ctx → Ctx) : (s.updCtx c f).groups = s.groups := rfl
@[simp] theorem State.updCtx_blocks (s : State) (c : Nat) (f : Ctx → Ctx) : (s.updCtx c f).blocks = s.blocks := rfl
@[simp] theorem State.updCtx_cores (s : State) (c : Nat) (f : Ctx → Ctx) : (s.updCtx c f).cores = s.cores := rfl
@[simp] theorem State.updCtx_tasks (s : State) (c : Nat) (f : Ctx → Ctx) : (s.updCtx c f).tasks = s.tasks := rfl
@[simp] theorem State.updCtx_turn (s : State) (c : Nat) (f : Ctx → Ctx) : (s.updCtx c f).turn = s.turn := rfl
@[simp] theorem State.updCtx_records (s : State) (c : Nat) (f : Ctx → Ctx) : (s.updCtx c f).records = s.records := rfl
@[simp] theorem State.updCtx_stopRecs (s : State) (c : Nat) (f : Ctx → Ctx) : (s.updCtx c f).stopRecs = s.stopRecs := rfl
@[simp] theorem State.updCtx_ecmds (s : State) (c : Nat) (f : Ctx → Ctx) : (s.updCtx c f).ecmds = s.ecmds := rfl
@[simp] theorem State.updCtx_films (s : State) (c : Nat) (f : Ctx → Ctx) : (s.updCtx c f).films = s.films := rfl
@[simp] theorem State.updCtx_treeReqs (s : State) (c : Nat) (f : Ctx → Ctx) : (s.updCtx c f).treeReqs = s.treeReqs := rfl
@[simp] theorem State.updCtx_windows (s : State) (c : Nat) (f : Ctx → Ctx) : (s.updCtx c f).windows = s.windows := rfl
@[simp] theorem State.updCtx_fab (s : State) (c : Nat) (f : Ctx → Ctx) : (s.updCtx c f).fab = s.fab := rfl
@[simp] theorem State.updCtx_dev (s : State) (c : Nat) (f : Ctx → Ctx) : (s.updCtx c f).dev = s.dev := rfl
@[simp] theorem State.updCtx_inputs (s : State) (c : Nat) (f : Ctx → Ctx) : (s.updCtx c f).inputs = s.inputs := rfl

@[simp] theorem State.updPath_mem (s : State) (gk i : Nat) (f : Path → Path) : (s.updPath gk i f).mem = s.mem := State.updGrp_mem ..
@[simp] theorem State.updPath_errlog (s : State) (gk i : Nat) (f : Path → Path) : (s.updPath gk i f).errlog = s.errlog := State.updGrp_errlog ..
@[simp] theorem State.updPath_fatal (s : State) (gk i : Nat) (f : Path → Path) : (s.updPath gk i f).fatal = s.fatal := State.updGrp_fatal ..
@[simp] theorem State.updPath_reqs (s : State) (gk i : Nat) (f : Path → Path) : (s.updPath gk i f).reqs = s.reqs := State.updGrp_reqs ..
@[simp] theorem State.updPath_loads (s : State) (gk i : Nat) (f : Path → Path) : (s.updPath gk i f).loads = s.loads := State.updGrp_loads ..
@[simp] theorem State.updPath_bars (s : State) (gk i : Nat) (f : Path → Path) : (s.updPath gk i f).bars = s.bars := State.updGrp_bars ..
@[simp] theorem State.updPath_tlb (s : State) (gk i : Nat) (f : Path → Path) : (s.updPath gk i f).tlb = s.tlb := State.updGrp_tlb ..
@[simp] theorem State.updPath_codeWas (s : State) (gk i : Nat) (f : Path → Path) : (s.updPath gk i f).codeWas = s.codeWas := State.updGrp_codeWas ..
@[simp] theorem State.updPath_spoiled (s : State) (gk i : Nat) (f : Path → Path) : (s.updPath gk i f).spoiled = s.spoiled := State.updGrp_spoiled ..
@[simp] theorem State.updPath_results (s : State) (gk i : Nat) (f : Path → Path) : (s.updPath gk i f).results = s.results := State.updGrp_results ..
@[simp] theorem State.updPath_clock (s : State) (gk i : Nat) (f : Path → Path) : (s.updPath gk i f).clock = s.clock := State.updGrp_clock ..
@[simp] theorem State.updPath_closing (s : State) (gk i : Nat) (f : Path → Path) : (s.updPath gk i f).closing = s.closing := State.updGrp_closing ..
@[simp] theorem State.updPath_issuer (s : State) (gk i : Nat) (f : Path → Path) : (s.updPath gk i f).issuer = s.issuer := State.updGrp_issuer ..
@[simp] theorem State.updPath_subject (s : State) (gk i : Nat) (f : Path → Path) : (s.updPath gk i f).subject = s.subject := State.updGrp_subject ..
@[simp] theorem State.updPath_free (s : State) (gk i : Nat) (f : Path → Path) : (s.updPath gk i f).free = s.free := State.updGrp_free ..
@[simp] theorem State.updPath_seq (s : State) (gk i : Nat) (f : Path → Path) : (s.updPath gk i f).seq = s.seq := State.updGrp_seq ..
@[simp] theorem State.updPath_blocks (s : State) (gk i : Nat) (f : Path → Path) : (s.updPath gk i f).blocks = s.blocks := State.updGrp_blocks ..
@[simp] theorem State.updPath_cores (s : State) (gk i : Nat) (f : Path → Path) : (s.updPath gk i f).cores = s.cores := State.updGrp_cores ..
@[simp] theorem State.updPath_ctxs (s : State) (gk i : Nat) (f : Path → Path) : (s.updPath gk i f).ctxs = s.ctxs := State.updGrp_ctxs ..
@[simp] theorem State.updPath_tasks (s : State) (gk i : Nat) (f : Path → Path) : (s.updPath gk i f).tasks = s.tasks := State.updGrp_tasks ..
@[simp] theorem State.updPath_turn (s : State) (gk i : Nat) (f : Path → Path) : (s.updPath gk i f).turn = s.turn := State.updGrp_turn ..
@[simp] theorem State.updPath_records (s : State) (gk i : Nat) (f : Path → Path) : (s.updPath gk i f).records = s.records := State.updGrp_records ..
@[simp] theorem State.updPath_stopRecs (s : State) (gk i : Nat) (f : Path → Path) : (s.updPath gk i f).stopRecs = s.stopRecs := State.updGrp_stopRecs ..
@[simp] theorem State.updPath_ecmds (s : State) (gk i : Nat) (f : Path → Path) : (s.updPath gk i f).ecmds = s.ecmds := State.updGrp_ecmds ..
@[simp] theorem State.updPath_films (s : State) (gk i : Nat) (f : Path → Path) : (s.updPath gk i f).films = s.films := State.updGrp_films ..
@[simp] theorem State.updPath_treeReqs (s : State) (gk i : Nat) (f : Path → Path) : (s.updPath gk i f).treeReqs = s.treeReqs := State.updGrp_treeReqs ..
@[simp] theorem State.updPath_windows (s : State) (gk i : Nat) (f : Path → Path) : (s.updPath gk i f).windows = s.windows := State.updGrp_windows ..
@[simp] theorem State.updPath_fab (s : State) (gk i : Nat) (f : Path → Path) : (s.updPath gk i f).fab = s.fab := State.updGrp_fab ..
@[simp] theorem State.updPath_dev (s : State) (gk i : Nat) (f : Path → Path) : (s.updPath gk i f).dev = s.dev := State.updGrp_dev ..
@[simp] theorem State.updPath_inputs (s : State) (gk i : Nat) (f : Path → Path) : (s.updPath gk i f).inputs = s.inputs := State.updGrp_inputs ..

/-! ### Reading a table after writing it -/

@[simp] theorem State.grp_setGrp (s : State) (gk : Nat) (g : Grp) : (s.setGrp gk g).grp gk = some g := SMap.find?_put_self ..
theorem State.grp_setGrp_ne (s : State) {gk k : Nat} (g : Grp) (h : k ≠ gk) : (s.setGrp gk g).grp k = s.grp k := SMap.find?_put_ne _ _ h
@[simp] theorem State.setGrp_setGrp (s : State) (gk : Nat) (g h : Grp) : (s.setGrp gk g).setGrp gk h = s.setGrp gk h := by simp [State.setGrp]
@[simp] theorem State.blk_setGrp (s : State) (gk bk : Nat) (g : Grp) : (s.setGrp gk g).blk bk = s.blk bk := rfl
@[simp] theorem State.core_setGrp (s : State) (gk c : Nat) (g : Grp) : (s.setGrp gk g).core c = s.core c := rfl
@[simp] theorem State.ctx_setGrp (s : State) (gk c : Nat) (g : Grp) : (s.setGrp gk g).ctx c = s.ctx c := rfl
@[simp] theorem State.blk_setBlk (s : State) (bk : Nat) (b : Blk) : (s.setBlk bk b).blk bk = some b := SMap.find?_put_self ..
theorem State.blk_setBlk_ne (s : State) {bk k : Nat} (b : Blk) (h : k ≠ bk) : (s.setBlk bk b).blk k = s.blk k := SMap.find?_put_ne _ _ h
@[simp] theorem State.setBlk_setBlk (s : State) (bk : Nat) (b c : Blk) : (s.setBlk bk b).setBlk bk c = s.setBlk bk c := by simp [State.setBlk]
@[simp] theorem State.grp_setBlk (s : State) (bk gk : Nat) (b : Blk) : (s.setBlk bk b).grp gk = s.grp gk := rfl
@[simp] theorem State.core_setCore (s : State) (c : Nat) (x : Core) : (s.setCore c x).core c = x := by simp [State.core, State.setCore, SMap.get]
@[simp] theorem State.grp_setCore (s : State) (c gk : Nat) (x : Core) : (s.setCore c x).grp gk = s.grp gk := rfl
@[simp] theorem State.blk_setCore (s : State) (c bk : Nat) (x : Core) : (s.setCore c x).blk bk = s.blk bk := rfl
@[simp] theorem State.ctx_setCtx (s : State) (c : Nat) (x : Ctx) : (s.setCtx c x).ctx c = x := by simp [State.ctx, State.setCtx, SMap.get]
@[simp] theorem State.grp_setCtx (s : State) (c gk : Nat) (x : Ctx) : (s.setCtx c x).grp gk = s.grp gk := rfl
@[simp] theorem State.blk_setCtx (s : State) (c bk : Nat) (x : Ctx) : (s.setCtx c x).blk bk = s.blk bk := rfl

theorem State.updGrp_some {s : State} {gk : Nat} {g : Grp} (h : s.grp gk = some g) (f : Grp → Grp) : s.updGrp gk f = s.setGrp gk (f g) := by
  simp [State.updGrp, h]
theorem State.updGrp_none {s : State} {gk : Nat} (h : s.grp gk = none) (f : Grp → Grp) : s.updGrp gk f = s := by simp [State.updGrp, h]
theorem State.updBlk_some {s : State} {bk : Nat} {b : Blk} (h : s.blk bk = some b) (f : Blk → Blk) : s.updBlk bk f = s.setBlk bk (f b) := by
  simp [State.updBlk, h]
theorem State.updPath_some {s : State} {gk : Nat} {g : Grp} (h : s.grp gk = some g) (i : Nat) (f : Path → Path) :
    s.updPath gk i f = s.setGrp gk (Path.set g i (f (g.path i))) := by
  simp [State.updPath, State.updGrp, h]

/-- A group that stays as it is need not be written. -/
theorem SMap.put_of_find? {α : Type} {m : SMap α} {k : Nat} {v : α} (h : SMap.find? m k = some v) (hs : SMap.sorted m = true) : SMap.put m k v = m := by
  induction m with
  | nil => simp [SMap.find?] at h
  | cons e m ih =>
    obtain ⟨a, x⟩ := e
    simp only [SMap.find?] at h
    simp only [SMap.put]
    split at h
    · simp_all
    · rename_i hne
      rw [SMap.sorted_cons] at hs
      split
      · contradiction
      · split
        · rename_i hl
          rw [SMap.find?_of_lt fun e he => hl.trans (hs.1 e he)] at h
          cases h
        · rw [ih h hs.2]

/-! ### The issuing path -/

/-- What an issuing instruction sees: the group, the block and the path the issuer names. -/
theorem State.env_eq_some {s : State} {e : Env} (h : s.env = some e) :
    e.s = s ∧ s.issuer = some (e.gk, e.pi) ∧ s.grp e.gk = some e.g ∧ s.blk e.g.blk = some e.b ∧ e.p = e.g.path e.pi := by
  unfold State.env at h
  split at h
  · cases h
  · split at h
    · cases h
    · split at h
      · cases h
      · cases h
        exact ⟨rfl, by assumption, by assumption, by assumption, rfl⟩

theorem State.env_of {s : State} {gk pi : Nat} {g : Grp} {b : Blk} (hi : s.issuer = some (gk, pi)) (hg : s.grp gk = some g) (hb : s.blk g.blk = some b) :
    s.env = some ⟨s, gk, g, b, pi, g.path pi⟩ := by
  simp [State.env, hi, hg, hb]

end Sys2Proof.Machine
end

