-- ==== Sys2Proof/Laws/Issue.lean ====
section
/-! SUPPORT. What the shared operations of issue answer: an instruction that the checks of R34 trap, and one that issues without a trap,
for lane, uniform and variable-latency instructions. -/
namespace Sys2Proof.Machine
open Sys2Proof Host

/-! ### Where an instruction traps before it has any effect -/

theorem issueLane_trap {s : State} {e : Env} {i : Instr} {t : Trap} (f : Env → Nat → TRes) (h : s.env = some e) (ht : e.issueTrap i = some t) :
    issueLane i f s = .next (e.trapAll t) := by simp [issueLane, h, ht]
theorem issueVariable_trap {s : State} {e : Env} {i : Instr} {t : Trap} (c : OpClass) (f : Env → Nat → TRes) (h : s.env = some e)
    (ht : e.issueTrap i = some t) : issueVariable i c f s = .next (e.trapAll t) := by simp [issueVariable, issueLookup, h, ht]
theorem issueUniformTo_trap {s : State} {e : Env} {i : Instr} {t : Trap} (pc : Env → DWord) (f : Env → URes) (h : s.env = some e)
    (ht : e.issueTrap i = some t) : issueUniformTo i pc f s = .next (e.trapAll t) := by simp [issueUniformTo, h, ht]
theorem issueUniform_trap {s : State} {e : Env} {i : Instr} {t : Trap} (f : Env → URes) (h : s.env = some e)
    (ht : e.issueTrap i = some t) : issueUniform i f s = .next (e.trapAll t) := issueUniformTo_trap _ f h ht
theorem issueWith_trap {s : State} {e : Env} {i : Instr} {t : Trap} (body : Env → Outcome State Fault Refusal) (h : s.env = some e)
    (ht : e.issueTrap i = some t) : issueWith i body s = .next (e.trapAll t) := by simp [issueWith, h, ht]
theorem issueEffect_trap {s : State} {e : Env} {i : Instr} {t : Trap} (body : Env → Except Trap State) (h : s.env = some e)
    (ht : e.issueTrap i = some t) : issueEffect i body s = .next (e.trapAll t) := issueWith_trap _ h ht

/-! ### Reading operands whose Chorus rows are in order -/

theorem Env.seeChorusBut_paths (e : Env) (i : Instr) (tm m : Mask) (g : Grp) : (e.seeChorusBut i tm m g).paths = g.paths := by unfold Env.seeChorusBut; split <;> rfl
theorem Env.seeChorus_paths (e : Env) (i : Instr) (g : Grp) : (e.seeChorus i g).paths = g.paths := e.seeChorusBut_paths i 0 0 g
theorem Env.seeChorusBut_fixed (e : Env) (i : Instr) (tm m : Mask) (g : Grp) : (e.seeChorusBut i tm m g).fixed = g.fixed := by unfold Env.seeChorusBut; split <;> rfl
theorem Env.seeChorus_fixed (e : Env) (i : Instr) (g : Grp) : (e.seeChorus i g).fixed = g.fixed := e.seeChorusBut_fixed i 0 0 g
theorem Env.seeChorusBut_pend (e : Env) (i : Instr) (tm m : Mask) (g : Grp) : (e.seeChorusBut i tm m g).pend = g.pend := by unfold Env.seeChorusBut; split <;> rfl
theorem Env.seeChorus_pend (e : Env) (i : Instr) (g : Grp) : (e.seeChorus i g).pend = g.pend := e.seeChorusBut_pend i 0 0 g
theorem Env.seeChorusBut_srn (e : Env) (i : Instr) (tm m : Mask) (g : Grp) : (e.seeChorusBut i tm m g).srn = g.srn := by unfold Env.seeChorusBut; split <;> rfl
theorem Env.seeChorus_srn (e : Env) (i : Instr) (g : Grp) : (e.seeChorus i g).srn = g.srn := e.seeChorusBut_srn i 0 0 g

/-- No thread fails: nothing is left out. -/
theorem Env.seeFails_nil (e : Env) (i : Instr) (g : Grp) : e.seeFails i [] g = e.seeChorus i g := rfl

theorem Grp.path_of_paths {g h : Grp} (hp : g.paths = h.paths) (i : Nat) : g.path i = h.path i := by simp [Grp.path, hp]

/-- The end of an instruction none of whose threads fail: the path goes on, in a state that differs from the state of issue only in the group. -/
theorem Env.finish_setGrp {s : State} {e : Env} (h : s.env = some e) (i : Instr) (pc : DWord) (g : Grp) (hf : g.paths = e.g.paths) :
    e.finish i pc [] (s.setGrp e.gk g) = e.goesOn i pc g := by
  obtain ⟨h1, h2, h3, h4, h5⟩ := State.env_eq_some h
  simp only [Env.finish, Env.finishAs, Env.goesOn, h1, h5]
  rw [State.updPath_some (State.grp_setGrp ..), State.setGrp_setGrp, Grp.path_of_paths hf]

theorem Env.finish_nil {s : State} {e : Env} (h : s.env = some e) (i : Instr) (pc : DWord) (f : Grp → Grp) (hf : (f e.g).paths = e.g.paths) :
    e.finish i pc [] (s.updGrp e.gk f) = e.goesOn i pc (f e.g) := by
  rw [State.updGrp_some (State.env_eq_some h).2.2.1, Env.finish_setGrp h i pc _ hf]

/-! ### Lane instructions -/

theorem Env.mem_readers {e : Env} {i : Instr} (h : rdlaneMask i e.p.mask = e.p.mask) : e.readers i = threadsOf e.p.mask := by
  simp [Env.readers, h]

theorem rdlaneMask_of {i : Instr} (h : ∀ stl d a t, i ≠ .rdlane stl d a t) (m : Mask) : rdlaneMask i m = m := by
  unfold rdlaneMask
  split
  · exact absurd rfl (h _ _ _ _)
  · rfl

/-- The results of the threads of a lane instruction none of which traps. -/
theorem Env.laneResults_clear {e : Env} {i : Instr} {f : Env → Nat → TRes} (hd : ∀ t ∈ threadsOf e.p.mask, e.deferred i t = none)
    (hf : ∀ t ∈ threadsOf e.p.mask, (f e t).err = none ∧ (f e t).fl &&& e.g.enables = 0) :
    e.laneResults i f = (threadsOf e.p.mask).map fun t => (t, f e t) := by
  refine List.map_congr_left fun t ht => ?_
  simp [hd t ht, hf t ht]

theorem failsOf_clear {ts : List Nat} {f : Nat → TRes} (h : ∀ t ∈ ts, (f t).err = none) : failsOf (ts.map fun t => (t, f t)) = [] := by
  induction ts with
  | nil => rfl
  | cons t ts ih =>
    simp only [failsOf] at ih ⊢
    simp [h t (by simp), ih fun u hu => h u (by simp [hu])]

theorem filter_clear {ts : List Nat} {f : Nat → TRes} (h : ∀ t ∈ ts, (f t).err = none) :
    ((ts.map fun t => (t, f t)).filter fun r => r.2.err.isNone) = ts.map fun t => (t, f t) := by
  refine List.filter_eq_self.2 fun r hr => ?_
  obtain ⟨t, ht, rfl⟩ := List.mem_map.1 hr
  simp [h t ht]

theorem flagsOf_clear {ts : List Nat} {f : Nat → TRes} (h : ∀ t ∈ ts, (f t).err = none) :
    flagsOf (ts.map fun t => (t, f t)) = ts.foldl (fun fl t => fl ||| (f t).fl) 0 := by
  simp only [flagsOf, List.foldl_map]
  refine List.foldl_ext _ _ _ fun fl t ht => ?_
  simp [h t ht]

theorem stoppedOf_clear {ts : List Nat} {f : Nat → TRes} (h : ∀ t ∈ ts, (f t).err = none) : stoppedOf (ts.map fun t => (t, f t)) = 0 := by
  have : ((ts.map fun t => (t, f t)).filter fun r => r.2.stops) = [] := by
    refine List.filter_eq_nil_iff.2 fun r hr => ?_
    obtain ⟨t, ht, rfl⟩ := List.mem_map.1 hr
    simp [TRes.stops, h t ht]
  unfold stoppedOf
  rw [this]; rfl

theorem and_not_zero (m : Mask) : m &&& ~~~0 = m := by
  refine BitVec.eq_of_getLsbD_eq fun t ht => ?_
  have h0 : (0 : Mask).getLsbD t = false := BitVec.getLsbD_zero
  simp only [BitVec.getLsbD_and, BitVec.getLsbD_not, ht, decide_true, h0, Bool.not_false, Bool.and_true]

theorem and_not_self' (m : Mask) : m &&& ~~~m = 0 := by
  refine BitVec.eq_of_getLsbD_eq fun t ht => ?_
  have h0 : (0 : Mask).getLsbD t = false := BitVec.getLsbD_zero
  simp only [BitVec.getLsbD_and, BitVec.getLsbD_not, ht, decide_true, Bool.true_and, h0, Bool.and_not_self]

/-! ### The threads of a mask -/

theorem getLsbD_maskOf (ts : List Nat) (t : Nat) (ht : t < 96) : (maskOf ts).getLsbD t = decide (t ∈ ts) := by
  have key : ∀ (ts : List Nat) (m : Mask), (ts.foldl (fun m t => m ||| BitVec.ofNat 96 (2 ^ t)) m).getLsbD t = (m.getLsbD t || decide (t ∈ ts)) := by
    intro ts
    induction ts with
    | nil => intro m; simp
    | cons u ts ih =>
      intro m
      simp only [List.foldl_cons, ih, BitVec.getLsbD_or, BitVec.getLsbD_ofNat, ht, decide_true, Bool.true_and, Nat.testBit_two_pow, List.mem_cons]
      by_cases h : u = t
      · simp [h]
      · simp [h, Ne.symm h]
  have := key ts 0
  rwa [show (0 : Mask).getLsbD t = false by simp, Bool.false_or] at this

theorem mem_threadsOf {m : Mask} {t : Nat} : t ∈ threadsOf m ↔ t < 96 ∧ m.getLsbD t = true := by simp [threadsOf]

/-- The threads of a mask make the mask. -/
theorem maskOf_threadsOf (m : Mask) : maskOf (threadsOf m) = m := by
  refine BitVec.eq_of_getLsbD_eq fun t ht => ?_
  rw [getLsbD_maskOf _ _ ht]
  by_cases h : m.getLsbD t = true <;> simp only [mem_threadsOf, ht, h, true_and, decide_true, decide_false, Bool.false_eq_true]

theorem threadsOf_ne_nil {m : Mask} (h : m ≠ 0) : threadsOf m ≠ [] := by
  intro h0; exact h (by rw [← maskOf_threadsOf m, h0]; rfl)

/-- A lane instruction with a fixed latency that issues without a trap (R29, R54): its result is pending and its path goes on. -/
theorem issueLane_clear {s : State} {e : Env} {i : Instr} {f : Env → Nat → TRes} (h : s.env = some e) (hc : e.Clear i)
    (hr : ∀ stl d a t, i ≠ .rdlane stl d a t)
    (hf : ∀ t ∈ threadsOf e.p.mask, (f e t).err = none ∧ (f e t).fl &&& e.g.enables = 0)
    {sr : Bool} (hs : ∀ t ∈ threadsOf e.p.mask, (f e t).srn = sr) :
    issueLane i f s = .next (e.laneDone i (fixedLatency i) (fun t => (f e t).vw) (fun t => (f e t).pw) (fun t => (f e t).fl) sr) := by
  have hd : ∀ t ∈ threadsOf e.p.mask, e.deferred i t = none := by
    have := hc.2; rwa [Env.mem_readers (rdlaneMask_of hr _)] at this
  have he := (State.env_eq_some h).1
  have h0 : ∀ t ∈ threadsOf e.p.mask, (f e t).err = none := fun t ht => (hf t ht).1
  unfold issueLane
  simp only [h, hc.1, Env.laneResults_clear hd hf, failsOf_clear h0, Env.seeFails_nil]
  rw [Env.finish_nil h _ _ _ (by simp [Env.seeChorus_paths])]
  simp only [Env.laneDone, Env.laneFix, Machine.laneFix, stoppedOf_clear h0, and_not_zero, filter_clear h0, flagsOf_clear h0, Env.seeChorus_fixed, Env.seeChorus_srn, he]
  have hq : ((threadsOf e.p.mask).map fun t => (t, f e t)).filter (fun r => r.2.srn) = if sr then (threadsOf e.p.mask).map fun t => (t, f e t) else [] := by
    cases sr with
    | true => exact List.filter_eq_self.2 fun r hr => by obtain ⟨t, ht, rfl⟩ := List.mem_map.1 hr; exact hs t ht
    | false => exact List.filter_eq_nil_iff.2 fun r hr => by obtain ⟨t, ht, rfl⟩ := List.mem_map.1 hr; simp [hs t ht]
  have hm : (if sr then (threadsOf e.p.mask).map fun t => (t, f e t) else []).map (fun r => r.1) = if sr then threadsOf e.p.mask else [] := by
    cases sr <;> simp [Function.comp_def]
  simp only [hq, hm, List.flatMap_map]

theorem lowestVa_const (u : Nat) (us : List Nat) (tr : Trap) (va : Nat) : lowestVa ((u :: us).map fun t => (t, tr, va)) = va := by
  have key : ∀ (vs : List Nat), (vs.map fun t => (t, tr, va)).foldl (fun m (x : Nat × Trap × Nat) => min m x.2.2) va = va := by
    intro vs; induction vs with
    | nil => rfl
    | cons v vs ih => simpa using ih
  exact key us

/-- Threads that all fail alike are all named (R54). -/
theorem Fails.named_const {m : Mask} (hm : m ≠ 0) (tr : Trap) (va : Nat) : Fails.named ((threadsOf m).map fun t => (t, tr, va)) = m := by
  obtain ⟨u, us, hus⟩ := List.exists_cons_of_ne_nil (threadsOf_ne_nil hm)
  have hfil : (((u :: us).map fun t => (t, tr, va)).filter fun (f : Nat × Trap × Nat) => f.2.1.cause == tr.cause) = (u :: us).map fun t => (t, tr, va) :=
    List.filter_eq_self.2 fun r hr => by obtain ⟨t, _, rfl⟩ := List.mem_map.1 hr; simp
  have hmo := maskOf_threadsOf m
  rw [hus] at hmo ⊢
  simp only [List.map_cons] at hfil ⊢
  simp only [Fails.named, hfil]
  simp [Function.comp_def, hmo]

/-- A lane instruction every thread of which meets the same trap, other than FPEXC (R54). -/
theorem issueLane_allTrap {s : State} {e : Env} {i : Instr} {f : Env → Nat → TRes} {tr : Trap} (h : s.env = some e) (hc : e.Clear i)
    (hr : ∀ stl d a t, i ≠ .rdlane stl d a t) (hm : e.p.mask ≠ 0) (ht : tr.cause ≠ Cause.fpexc.code)
    (hf : ∀ t ∈ threadsOf e.p.mask, f e t = { err := some tr }) :
    issueLane i f s = .next ((s.setGrp e.gk (e.seeChorusBut i e.p.mask e.p.mask e.g)).trapEntry e.gk e.pi tr e.p.mask noVa) := by
  have hd : ∀ t ∈ threadsOf e.p.mask, e.deferred i t = none := by
    have := hc.2; rwa [Env.mem_readers (rdlaneMask_of hr _)] at this
  obtain ⟨h1, h2, h3, h4, h5⟩ := State.env_eq_some h
  have hl : e.laneResults i f = (threadsOf e.p.mask).map fun t => (t, { err := some tr }) := by
    refine List.map_congr_left fun t htt => ?_
    simp [hd t htt, hf t htt]
  have hfl : failsOf ((threadsOf e.p.mask).map fun t => (t, ({ err := some tr } : TRes))) = (threadsOf e.p.mask).map fun t => (t, tr, noVa) := by
    simp [failsOf, List.filterMap_map]
  have hst : stoppedOf ((threadsOf e.p.mask).map fun t => (t, ({ err := some tr } : TRes))) = e.p.mask := by
    rw [stoppedOf, List.filter_eq_self.2]
    · simp [Function.comp_def, maskOf_threadsOf]
    · intro r hr; obtain ⟨t, _, rfl⟩ := List.mem_map.1 hr; simpa [TRes.stops] using ht
  have hsr : (((threadsOf e.p.mask).map fun t => (t, ({ err := some tr } : TRes))).filter fun r => r.2.srn) = [] :=
    List.filter_eq_nil_iff.2 fun r hr => by obtain ⟨t, _, rfl⟩ := List.mem_map.1 hr; simp
  unfold issueLane
  have hbm : Fails.mask ((threadsOf e.p.mask).map fun t => (t, tr, noVa)) = e.p.mask := by
    simp [Fails.mask, Function.comp_def, maskOf_threadsOf]
  simp only [h, hc.1, hl, hfl, hsr, hbm, Env.seeFails, Fails.named_const hm, List.map_nil, bumpSeq, List.foldl_nil]
  rw [State.updGrp_some h3]
  have hz : (laneFix (s.clock + fixedLatency i) e.p.mask ((threadsOf e.p.mask).map fun t => (t, ({ err := some tr } : TRes)))).mask = 0 := by
    simp only [laneFix]; rw [hst, and_not_self']
  simp only [hz, if_true, List.append_nil]
  have hn := threadsOf_ne_nil hm
  obtain ⟨u, us, hus⟩ := List.exists_cons_of_ne_nil hn
  have hmo := maskOf_threadsOf e.p.mask
  have hfil : (((u :: us).map fun t => (t, tr, noVa)).filter fun (f : Nat × Trap × Nat) => f.2.1.cause == tr.cause) = (u :: us).map fun t => (t, tr, noVa) :=
    List.filter_eq_self.2 fun r hr => by obtain ⟨t, _, rfl⟩ := List.mem_map.1 hr; simp
  have hlow := lowestVa_const u us tr noVa
  simp only [Env.finish, Env.finishAs, hus]
  rw [hus] at hmo
  simp only [List.map_cons] at hfil hlow ⊢
  simp only [hfil, hlow]
  simp [Function.comp_def, hmo]

/-! ### Uniform instructions -/

/-- A uniform instruction with a fixed latency that issues without a trap (R29, R89). -/
theorem issueUniformTo_clear {s : State} {e : Env} {i : Instr} {pc : Env → DWord} {f : Env → URes} (h : s.env = some e) (hc : e.Clear i)
    (he : (f e).err = none) (hf : (f e).fl &&& e.g.enables = 0) :
    issueUniformTo i pc f s = .next (e.uniDone i (pc e) (if (f e).spec.isSome then 2 else fixedLatency i) (f e).sw (f e).qw (f e).xw (f e).fl
      (f e).srn (f e).spec) := by
  obtain ⟨h1, h2, h3, h4, h5⟩ := State.env_eq_some h
  have hd : (e.readers i).findSome? (e.deferred i) = none := List.findSome?_eq_none_iff.2 hc.2
  unfold issueUniformTo
  simp only [h, hc.1, hd, he, hf, Option.none_or, bne_self_eq_false, Bool.false_eq_true, if_false, Option.isSome_none]
  rw [State.updGrp_some h3, State.updGrp_some (State.grp_setGrp ..), State.setGrp_setGrp, Env.finish_setGrp h _ _ _ (by simp [Env.seeChorus_paths])]
  simp only [State.setGrp_clock, Env.uniDone, URes.fix, Env.seeChorus_fixed, Env.seeChorus_srn, h1]

/-- A uniform instruction that goes on at the next one. -/
theorem issueUniform_clear {s : State} {e : Env} {i : Instr} {f : Env → URes} (h : s.env = some e) (hc : e.Clear i)
    (he : (f e).err = none) (hf : (f e).fl &&& e.g.enables = 0) :
    issueUniform i f s = .next (e.uniDone i (e.nextPc i) (if (f e).spec.isSome then 2 else fixedLatency i) (f e).sw (f e).qw (f e).xw (f e).fl
      (f e).srn (f e).spec) := issueUniformTo_clear h hc he hf

/-- A uniform instruction that traps of itself (R54): nothing is written. -/
theorem issueUniformTo_traps {s : State} {e : Env} {i : Instr} {pc : Env → DWord} {f : Env → URes} {t : Trap} (h : s.env = some e) (hc : e.Clear i)
    (he : (f e).err = some t) :
    issueUniformTo i pc f s = .next ((s.setGrp e.gk (e.seeChorus i e.g)).trapEntry e.gk e.pi t e.p.mask noVa) := by
  have hd : (e.readers i).findSome? (e.deferred i) = none := List.findSome?_eq_none_iff.2 hc.2
  simp [issueUniformTo, h, hc.1, hd, he, State.updGrp_some (State.env_eq_some h).2.2.1]

/-! ### Variable-latency lane instructions -/

theorem marksOf_clear {ts : List Nat} {f : Nat → TRes} (h : ∀ t ∈ ts, (f t).err = none) (id : Nat) (cls : OpClass) :
    marksOf id cls (ts.map fun t => (t, f t)) = marksOf id cls (ts.map fun t => (t, { vw := (f t).vw, fl := (f t).fl })) := by
  simp only [marksOf, filter_clear h, filter_clear (f := fun t => { vw := (f t).vw, fl := (f t).fl }) fun _ _ => rfl, List.flatMap_map,
    List.filter_map, List.map_map, Function.comp_def]

/-- A variable-latency lane instruction that issues without a trap (R32). -/
theorem issueVariable_clear {s : State} {e : Env} {i : Instr} {f : Env → Nat → TRes} (h : s.env = some e) (hc : e.Clear i)
    (hr : ∀ stl d a t, i ≠ .rdlane stl d a t)
    (hf : ∀ t ∈ threadsOf e.p.mask, (f e t).err = none ∧ (f e t).fl &&& e.g.enables = 0) :
    issueVariable i .other f s = .next (e.variableDone i (fun t => (f e t).vw) (fun t => (f e t).fl)) := by
  have hd : ∀ t ∈ threadsOf e.p.mask, e.deferred i t = none := by
    have := hc.2; rwa [Env.mem_readers (rdlaneMask_of hr _)] at this
  obtain ⟨h1, h2, h3, h4, h5⟩ := State.env_eq_some h
  have h0 : ∀ t ∈ threadsOf e.p.mask, (f e t).err = none := fun t ht => (hf t ht).1
  have hst : ((threadsOf e.p.mask).map fun t => (t, f e t)).filter (fun r => !r.2.stops) = (threadsOf e.p.mask).map fun t => (t, f e t) :=
    List.filter_eq_self.2 fun r hr => by obtain ⟨t, ht, rfl⟩ := List.mem_map.1 hr; simp [TRes.stops, h0 t ht]
  have hfl : fpexcMarks s.seq .other ((threadsOf e.p.mask).map fun t => (t, f e t)) = [] := by
    have : ((threadsOf e.p.mask).map fun t => (t, f e t)).filter (fun r => r.2.err.isSome && !r.2.stops) = [] :=
      List.filter_eq_nil_iff.2 fun r hr => by obtain ⟨t, ht, rfl⟩ := List.mem_map.1 hr; simp [h0 t ht]
    simp [fpexcMarks, this]
  have hlk : ∀ l : List (Nat × TRes), l.filterMap (fun _ => (none : Option Look)) = [] := fun l => by induction l <;> simp_all
  unfold issueVariable issueLookup
  simp only [h, hc.1, Env.laneResults_clear hd hf, failsOf_clear h0, filter_clear h0, hst, hfl, hlk, flagsOf_clear h0, List.append_nil, Env.seeFails_nil]
  rw [State.updGrp_some h3]
  simp only [Env.finish, Env.finishAs, Env.variableDone, Env.goesOn, h1]
  rw [State.updPath_some (g := { e.seeChorus i e.g with pend := e.g.pend ++ marksOf s.seq .other ((threadsOf e.p.mask).map fun t => (t, f e t)) })]
  · rw [marksOf_clear h0, Grp.path_of_paths (h := e.g) (by simp [Env.seeChorus_paths]), ← h5]
    simp only [State.setGrp, SMap.put_put, List.map_eq_nil_iff, List.isEmpty_iff, List.map_map, Function.comp_def, List.map_id',
      List.flatMap_map]
  · simp [State.grp, State.setGrp, Env.seeChorus_pend]

/-! ### Instructions with an effect of their own -/

theorem issueWith_clear {s : State} {e : Env} {i : Instr} {body : Env → Outcome State Fault Refusal} (h : s.env = some e)
    (hc : e.issueTrap i = none) : issueWith i body s = body e := by simp [issueWith, h, hc]

/-- An instruction whose effect stands in `s1` goes on at the next one. -/
theorem issueEffect_clear {s s1 : State} {e : Env} {i : Instr} {body : Env → Except Trap State} (h : s.env = some e)
    (hc : e.issueTrap i = none) (hb : body e = .ok s1) : issueEffect i body s = .next (s1.updPath e.gk e.pi (e.advance i (e.nextPc i))) := by
  simp [issueEffect, issueWith, h, hc, hb, Env.finish, Env.finishAs]

end Sys2Proof.Machine
end

