-- ==== Sys2Proof/Laws/PerInstr.lean ====
section
/-! SUPPORT. Statements about each instruction as syntax, one lemma per constructor. -/
namespace Sys2Proof

/-- Family Words (R36, R43): an instruction of an assigned opcode has a second word exactly where its first word announces one. -/
def Laws.Words.Statement (i : Instr) : Prop :=
  ∀ f, i.fields = some f → (∀ w, i ≠ .unassignedOpcode w) → twoWords f.toWord = i.ext.isSome

/-- A first word of known set and opcode announces a second word as its opcode says. -/
theorem Laws.Words.of_fields {i : Instr} {s : BitVec 1} {o : BitVec 7} (h : ∀ f, i.fields = some f → f.set = s ∧ f.op = o)
    (hx : (if s = 1 then decide (0x60 ≤ o.toNat ∧ o.toNat ≤ 0x6C) else decide (0x60 ≤ o.toNat ∧ o.toNat ≤ 0x7E)) = i.ext.isSome) :
    Laws.Words.Statement i := by
  intro f hf _
  rw [twoWords_toWord, (h f hf).1, (h f hf).2, hx]

theorem Laws.Words.iadd (stl : BitVec 3) (d : BitVec 7) (a : BitVec 7) (b : BitVec 7) : Laws.Words.Statement (.iadd stl d a b) := Laws.Words.of_fields (s := 0) (o := 0x00) (fun _ h => by cases h; exact ⟨rfl, rfl⟩) rfl
theorem Laws.Words.isub (stl : BitVec 3) (d : BitVec 7) (a : BitVec 7) (b : BitVec 7) : Laws.Words.Statement (.isub stl d a b) := Laws.Words.of_fields (s := 0) (o := 0x01) (fun _ h => by cases h; exact ⟨rfl, rfl⟩) rfl
theorem Laws.Words.iaddc (stl : BitVec 3) (d : BitVec 7) (a : BitVec 7) (b : BitVec 7) : Laws.Words.Statement (.iaddc stl d a b) := Laws.Words.of_fields (s := 0) (o := 0x02) (fun _ h => by cases h; exact ⟨rfl, rfl⟩) rfl
theorem Laws.Words.isubb (stl : BitVec 3) (d : BitVec 7) (a : BitVec 7) (b : BitVec 7) : Laws.Words.Statement (.isubb stl d a b) := Laws.Words.of_fields (s := 0) (o := 0x03) (fun _ h => by cases h; exact ⟨rfl, rfl⟩) rfl
theorem Laws.Words.imul (stl : BitVec 3) (d : BitVec 7) (a : BitVec 7) (b : BitVec 7) : Laws.Words.Statement (.imul stl d a b) := Laws.Words.of_fields (s := 0) (o := 0x04) (fun _ h => by cases h; exact ⟨rfl, rfl⟩) rfl
theorem Laws.Words.imulh (stl : BitVec 3) (d : BitVec 7) (a : BitVec 7) (b : BitVec 7) : Laws.Words.Statement (.imulh stl d a b) := Laws.Words.of_fields (s := 0) (o := 0x05) (fun _ h => by cases h; exact ⟨rfl, rfl⟩) rfl
theorem Laws.Words.imulhu (stl : BitVec 3) (d : BitVec 7) (a : BitVec 7) (b : BitVec 7) : Laws.Words.Statement (.imulhu stl d a b) := Laws.Words.of_fields (s := 0) (o := 0x06) (fun _ h => by cases h; exact ⟨rfl, rfl⟩) rfl
theorem Laws.Words.imad (stl : BitVec 3) (d : BitVec 7) (a : BitVec 7) (b : BitVec 7) : Laws.Words.Statement (.imad stl d a b) := Laws.Words.of_fields (s := 0) (o := 0x07) (fun _ h => by cases h; exact ⟨rfl, rfl⟩) rfl
theorem Laws.Words.imin (stl : BitVec 3) (d : BitVec 7) (a : BitVec 7) (b : BitVec 7) : Laws.Words.Statement (.imin stl d a b) := Laws.Words.of_fields (s := 0) (o := 0x08) (fun _ h => by cases h; exact ⟨rfl, rfl⟩) rfl
theorem Laws.Words.imax (stl : BitVec 3) (d : BitVec 7) (a : BitVec 7) (b : BitVec 7) : Laws.Words.Statement (.imax stl d a b) := Laws.Words.of_fields (s := 0) (o := 0x09) (fun _ h => by cases h; exact ⟨rfl, rfl⟩) rfl
theorem Laws.Words.iminu (stl : BitVec 3) (d : BitVec 7) (a : BitVec 7) (b : BitVec 7) : Laws.Words.Statement (.iminu stl d a b) := Laws.Words.of_fields (s := 0) (o := 0x0A) (fun _ h => by cases h; exact ⟨rfl, rfl⟩) rfl
theorem Laws.Words.imaxu (stl : BitVec 3) (d : BitVec 7) (a : BitVec 7) (b : BitVec 7) : Laws.Words.Statement (.imaxu stl d a b) := Laws.Words.of_fields (s := 0) (o := 0x0B) (fun _ h => by cases h; exact ⟨rfl, rfl⟩) rfl
theorem Laws.Words.and (stl : BitVec 3) (d : BitVec 7) (a : BitVec 7) (b : BitVec 7) : Laws.Words.Statement (.and stl d a b) := Laws.Words.of_fields (s := 0) (o := 0x0C) (fun _ h => by cases h; exact ⟨rfl, rfl⟩) rfl
theorem Laws.Words.or (stl : BitVec 3) (d : BitVec 7) (a : BitVec 7) (b : BitVec 7) : Laws.Words.Statement (.or stl d a b) := Laws.Words.of_fields (s := 0) (o := 0x0D) (fun _ h => by cases h; exact ⟨rfl, rfl⟩) rfl
theorem Laws.Words.xor (stl : BitVec 3) (d : BitVec 7) (a : BitVec 7) (b : BitVec 7) : Laws.Words.Statement (.xor stl d a b) := Laws.Words.of_fields (s := 0) (o := 0x0E) (fun _ h => by cases h; exact ⟨rfl, rfl⟩) rfl
theorem Laws.Words.andn (stl : BitVec 3) (d : BitVec 7) (a : BitVec 7) (b : BitVec 7) : Laws.Words.Statement (.andn stl d a b) := Laws.Words.of_fields (s := 0) (o := 0x0F) (fun _ h => by cases h; exact ⟨rfl, rfl⟩) rfl
theorem Laws.Words.shl (stl : BitVec 3) (d : BitVec 7) (a : BitVec 7) (b : BitVec 7) : Laws.Words.Statement (.shl stl d a b) := Laws.Words.of_fields (s := 0) (o := 0x10) (fun _ h => by cases h; exact ⟨rfl, rfl⟩) rfl
theorem Laws.Words.shr (stl : BitVec 3) (d : BitVec 7) (a : BitVec 7) (b : BitVec 7) : Laws.Words.Statement (.shr stl d a b) := Laws.Words.of_fields (s := 0) (o := 0x11) (fun _ h => by cases h; exact ⟨rfl, rfl⟩) rfl
theorem Laws.Words.sar (stl : BitVec 3) (d : BitVec 7) (a : BitVec 7) (b : BitVec 7) : Laws.Words.Statement (.sar stl d a b) := Laws.Words.of_fields (s := 0) (o := 0x12) (fun _ h => by cases h; exact ⟨rfl, rfl⟩) rfl
theorem Laws.Words.rotl (stl : BitVec 3) (d : BitVec 7) (a : BitVec 7) (b : BitVec 7) : Laws.Words.Statement (.rotl stl d a b) := Laws.Words.of_fields (s := 0) (o := 0x13) (fun _ h => by cases h; exact ⟨rfl, rfl⟩) rfl
theorem Laws.Words.popc (stl : BitVec 3) (d : BitVec 7) (a : BitVec 7) : Laws.Words.Statement (.popc stl d a) := Laws.Words.of_fields (s := 0) (o := 0x14) (fun _ h => by cases h; exact ⟨rfl, rfl⟩) rfl
theorem Laws.Words.clz (stl : BitVec 3) (d : BitVec 7) (a : BitVec 7) : Laws.Words.Statement (.clz stl d a) := Laws.Words.of_fields (s := 0) (o := 0x15) (fun _ h => by cases h; exact ⟨rfl, rfl⟩) rfl
theorem Laws.Words.brev (stl : BitVec 3) (d : BitVec 7) (a : BitVec 7) : Laws.Words.Statement (.brev stl d a) := Laws.Words.of_fields (s := 0) (o := 0x16) (fun _ h => by cases h; exact ⟨rfl, rfl⟩) rfl
theorem Laws.Words.bfe (stl : BitVec 3) (d : BitVec 7) (a : BitVec 7) (b : BitVec 7) : Laws.Words.Statement (.bfe stl d a b) := Laws.Words.of_fields (s := 0) (o := 0x17) (fun _ h => by cases h; exact ⟨rfl, rfl⟩) rfl
theorem Laws.Words.bfi (stl : BitVec 3) (d : BitVec 7) (a : BitVec 7) (b : BitVec 7) : Laws.Words.Statement (.bfi stl d a b) := Laws.Words.of_fields (s := 0) (o := 0x18) (fun _ h => by cases h; exact ⟨rfl, rfl⟩) rfl
theorem Laws.Words.icmp (stl : BitVec 3) (c : BitVec 4) (p : BitVec 3) (a : BitVec 7) (b : BitVec 7) : Laws.Words.Statement (.icmp stl c p a b) := Laws.Words.of_fields (s := 0) (o := 0x19) (fun _ h => by cases h; exact ⟨rfl, rfl⟩) rfl
theorem Laws.Words.fcmp (stl : BitVec 3) (c : BitVec 4) (p : BitVec 3) (a : BitVec 7) (b : BitVec 7) : Laws.Words.Statement (.fcmp stl c p a b) := Laws.Words.of_fields (s := 0) (o := 0x1A) (fun _ h => by cases h; exact ⟨rfl, rfl⟩) rfl
theorem Laws.Words.cmov (stl : BitVec 3) (d : BitVec 7) (k : BitVec 1) (n : BitVec 1) (p : BitVec 3) (b : BitVec 7) : Laws.Words.Statement (.cmov stl d k n p b) := Laws.Words.of_fields (s := 0) (o := 0x1B) (fun _ h => by cases h; exact ⟨rfl, rfl⟩) rfl
theorem Laws.Words.mov (stl : BitVec 3) (d : BitVec 7) (a : BitVec 7) : Laws.Words.Statement (.mov stl d a) := Laws.Words.of_fields (s := 0) (o := 0x1C) (fun _ h => by cases h; exact ⟨rfl, rfl⟩) rfl
theorem Laws.Words.movi (stl : BitVec 3) (d : BitVec 7) (imm : BitVec 14) : Laws.Words.Statement (.movi stl d imm) := Laws.Words.of_fields (s := 0) (o := 0x1D) (fun _ h => by cases h; exact ⟨rfl, rfl⟩) rfl
theorem Laws.Words.dcmp (stl : BitVec 3) (c : BitVec 4) (p : BitVec 3) (a : BitVec 7) (b : BitVec 7) : Laws.Words.Statement (.dcmp stl c p a b) := Laws.Words.of_fields (s := 0) (o := 0x1E) (fun _ h => by cases h; exact ⟨rfl, rfl⟩) rfl
theorem Laws.Words.movu (stl : BitVec 3) (d : BitVec 7) (a : BitVec 7) : Laws.Words.Statement (.movu stl d a) := Laws.Words.of_fields (s := 0) (o := 0x1F) (fun _ h => by cases h; exact ⟨rfl, rfl⟩) rfl
theorem Laws.Words.movuX (stl : BitVec 3) (d : BitVec 7) (a : BitVec 7) : Laws.Words.Statement (.movuX stl d a) := Laws.Words.of_fields (s := 0) (o := 0x1F) (fun _ h => by cases h; exact ⟨rfl, rfl⟩) rfl
theorem Laws.Words.fadd (stl : BitVec 3) (d : BitVec 7) (a : BitVec 7) (b : BitVec 7) : Laws.Words.Statement (.fadd stl d a b) := Laws.Words.of_fields (s := 0) (o := 0x20) (fun _ h => by cases h; exact ⟨rfl, rfl⟩) rfl
theorem Laws.Words.fsub (stl : BitVec 3) (d : BitVec 7) (a : BitVec 7) (b : BitVec 7) : Laws.Words.Statement (.fsub stl d a b) := Laws.Words.of_fields (s := 0) (o := 0x21) (fun _ h => by cases h; exact ⟨rfl, rfl⟩) rfl
theorem Laws.Words.fmul (stl : BitVec 3) (d : BitVec 7) (a : BitVec 7) (b : BitVec 7) : Laws.Words.Statement (.fmul stl d a b) := Laws.Words.of_fields (s := 0) (o := 0x22) (fun _ h => by cases h; exact ⟨rfl, rfl⟩) rfl
theorem Laws.Words.ffma (stl : BitVec 3) (d : BitVec 7) (a : BitVec 7) (b : BitVec 7) : Laws.Words.Statement (.ffma stl d a b) := Laws.Words.of_fields (s := 0) (o := 0x23) (fun _ h => by cases h; exact ⟨rfl, rfl⟩) rfl
theorem Laws.Words.fmin (stl : BitVec 3) (d : BitVec 7) (a : BitVec 7) (b : BitVec 7) : Laws.Words.Statement (.fmin stl d a b) := Laws.Words.of_fields (s := 0) (o := 0x24) (fun _ h => by cases h; exact ⟨rfl, rfl⟩) rfl
theorem Laws.Words.fmax (stl : BitVec 3) (d : BitVec 7) (a : BitVec 7) (b : BitVec 7) : Laws.Words.Statement (.fmax stl d a b) := Laws.Words.of_fields (s := 0) (o := 0x25) (fun _ h => by cases h; exact ⟨rfl, rfl⟩) rfl
theorem Laws.Words.fcpys (stl : BitVec 3) (d : BitVec 7) (a : BitVec 7) (b : BitVec 7) : Laws.Words.Statement (.fcpys stl d a b) := Laws.Words.of_fields (s := 0) (o := 0x26) (fun _ h => by cases h; exact ⟨rfl, rfl⟩) rfl
theorem Laws.Words.fcvt (stl : BitVec 3) (d : BitVec 7) (a : BitVec 7) (c : BitVec 4) (m : BitVec 3) : Laws.Words.Statement (.fcvt stl d a c m) := Laws.Words.of_fields (s := 0) (o := 0x27) (fun _ h => by cases h; exact ⟨rfl, rfl⟩) rfl
theorem Laws.Words.frnd (stl : BitVec 3) (d : BitVec 7) (a : BitVec 7) (m : BitVec 3) : Laws.Words.Statement (.frnd stl d a m) := Laws.Words.of_fields (s := 0) (o := 0x28) (fun _ h => by cases h; exact ⟨rfl, rfl⟩) rfl
theorem Laws.Words.fclass (stl : BitVec 3) (d : BitVec 7) (a : BitVec 7) : Laws.Words.Statement (.fclass stl d a) := Laws.Words.of_fields (s := 0) (o := 0x29) (fun _ h => by cases h; exact ⟨rfl, rfl⟩) rfl
theorem Laws.Words.dadd (stl : BitVec 3) (d : BitVec 7) (a : BitVec 7) (b : BitVec 7) : Laws.Words.Statement (.dadd stl d a b) := Laws.Words.of_fields (s := 0) (o := 0x2A) (fun _ h => by cases h; exact ⟨rfl, rfl⟩) rfl
theorem Laws.Words.dmul (stl : BitVec 3) (d : BitVec 7) (a : BitVec 7) (b : BitVec 7) : Laws.Words.Statement (.dmul stl d a b) := Laws.Words.of_fields (s := 0) (o := 0x2B) (fun _ h => by cases h; exact ⟨rfl, rfl⟩) rfl
theorem Laws.Words.dfma (stl : BitVec 3) (d : BitVec 7) (a : BitVec 7) (b : BitVec 7) : Laws.Words.Statement (.dfma stl d a b) := Laws.Words.of_fields (s := 0) (o := 0x2C) (fun _ h => by cases h; exact ⟨rfl, rfl⟩) rfl
theorem Laws.Words.dmin (stl : BitVec 3) (d : BitVec 7) (a : BitVec 7) (b : BitVec 7) : Laws.Words.Statement (.dmin stl d a b) := Laws.Words.of_fields (s := 0) (o := 0x2D) (fun _ h => by cases h; exact ⟨rfl, rfl⟩) rfl
theorem Laws.Words.dmax (stl : BitVec 3) (d : BitVec 7) (a : BitVec 7) (b : BitVec 7) : Laws.Words.Statement (.dmax stl d a b) := Laws.Words.of_fields (s := 0) (o := 0x2E) (fun _ h => by cases h; exact ⟨rfl, rfl⟩) rfl
theorem Laws.Words.dcvt (stl : BitVec 3) (d : BitVec 7) (a : BitVec 7) (c : BitVec 4) (m : BitVec 3) : Laws.Words.Statement (.dcvt stl d a c m) := Laws.Words.of_fields (s := 0) (o := 0x2F) (fun _ h => by cases h; exact ⟨rfl, rfl⟩) rfl
theorem Laws.Words.rcp (stl : BitVec 3) (d : BitVec 7) (a : BitVec 7) : Laws.Words.Statement (.rcp stl d a) := Laws.Words.of_fields (s := 0) (o := 0x30) (fun _ h => by cases h; exact ⟨rfl, rfl⟩) rfl
theorem Laws.Words.rsq (stl : BitVec 3) (d : BitVec 7) (a : BitVec 7) : Laws.Words.Statement (.rsq stl d a) := Laws.Words.of_fields (s := 0) (o := 0x31) (fun _ h => by cases h; exact ⟨rfl, rfl⟩) rfl
theorem Laws.Words.sqrt (stl : BitVec 3) (d : BitVec 7) (a : BitVec 7) : Laws.Words.Statement (.sqrt stl d a) := Laws.Words.of_fields (s := 0) (o := 0x32) (fun _ h => by cases h; exact ⟨rfl, rfl⟩) rfl
theorem Laws.Words.exp2 (stl : BitVec 3) (d : BitVec 7) (a : BitVec 7) : Laws.Words.Statement (.exp2 stl d a) := Laws.Words.of_fields (s := 0) (o := 0x33) (fun _ h => by cases h; exact ⟨rfl, rfl⟩) rfl
theorem Laws.Words.log2 (stl : BitVec 3) (d : BitVec 7) (a : BitVec 7) : Laws.Words.Statement (.log2 stl d a) := Laws.Words.of_fields (s := 0) (o := 0x34) (fun _ h => by cases h; exact ⟨rfl, rfl⟩) rfl
theorem Laws.Words.sinpi (stl : BitVec 3) (d : BitVec 7) (a : BitVec 7) : Laws.Words.Statement (.sinpi stl d a) := Laws.Words.of_fields (s := 0) (o := 0x35) (fun _ h => by cases h; exact ⟨rfl, rfl⟩) rfl
theorem Laws.Words.cospi (stl : BitVec 3) (d : BitVec 7) (a : BitVec 7) : Laws.Words.Statement (.cospi stl d a) := Laws.Words.of_fields (s := 0) (o := 0x36) (fun _ h => by cases h; exact ⟨rfl, rfl⟩) rfl
theorem Laws.Words.tanh (stl : BitVec 3) (d : BitVec 7) (a : BitVec 7) : Laws.Words.Statement (.tanh stl d a) := Laws.Words.of_fields (s := 0) (o := 0x37) (fun _ h => by cases h; exact ⟨rfl, rfl⟩) rfl
theorem Laws.Words.sigm (stl : BitVec 3) (d : BitVec 7) (a : BitVec 7) : Laws.Words.Statement (.sigm stl d a) := Laws.Words.of_fields (s := 0) (o := 0x38) (fun _ h => by cases h; exact ⟨rfl, rfl⟩) rfl
theorem Laws.Words.erf (stl : BitVec 3) (d : BitVec 7) (a : BitVec 7) : Laws.Words.Statement (.erf stl d a) := Laws.Words.of_fields (s := 0) (o := 0x39) (fun _ h => by cases h; exact ⟨rfl, rfl⟩) rfl
theorem Laws.Words.gelu (stl : BitVec 3) (d : BitVec 7) (a : BitVec 7) : Laws.Words.Statement (.gelu stl d a) := Laws.Words.of_fields (s := 0) (o := 0x3A) (fun _ h => by cases h; exact ⟨rfl, rfl⟩) rfl
theorem Laws.Words.silu (stl : BitVec 3) (d : BitVec 7) (a : BitVec 7) : Laws.Words.Statement (.silu stl d a) := Laws.Words.of_fields (s := 0) (o := 0x3B) (fun _ h => by cases h; exact ⟨rfl, rfl⟩) rfl
theorem Laws.Words.zadd (stl : BitVec 3) (d : BitVec 7) (a : BitVec 7) (b : BitVec 7) : Laws.Words.Statement (.zadd stl d a b) := Laws.Words.of_fields (s := 0) (o := 0x3C) (fun _ h => by cases h; exact ⟨rfl, rfl⟩) rfl
theorem Laws.Words.zmul (stl : BitVec 3) (d : BitVec 7) (a : BitVec 7) (b : BitVec 7) : Laws.Words.Statement (.zmul stl d a b) := Laws.Words.of_fields (s := 0) (o := 0x3D) (fun _ h => by cases h; exact ⟨rfl, rfl⟩) rfl
theorem Laws.Words.zfma (stl : BitVec 3) (d : BitVec 7) (a : BitVec 7) (b : BitVec 7) : Laws.Words.Statement (.zfma stl d a b) := Laws.Words.of_fields (s := 0) (o := 0x3E) (fun _ h => by cases h; exact ⟨rfl, rfl⟩) rfl
theorem Laws.Words.zop (stl : BitVec 3) (d : BitVec 7) (a : BitVec 7) (o : BitVec 7) : Laws.Words.Statement (.zop stl d a o) := Laws.Words.of_fields (s := 0) (o := 0x3F) (fun _ h => by cases h; exact ⟨rfl, rfl⟩) rfl
theorem Laws.Words.wadd (stl : BitVec 3) (d : BitVec 7) (a : BitVec 7) (b : BitVec 7) : Laws.Words.Statement (.wadd stl d a b) := Laws.Words.of_fields (s := 0) (o := 0x40) (fun _ h => by cases h; exact ⟨rfl, rfl⟩) rfl
theorem Laws.Words.wsub (stl : BitVec 3) (d : BitVec 7) (a : BitVec 7) (b : BitVec 7) : Laws.Words.Statement (.wsub stl d a b) := Laws.Words.of_fields (s := 0) (o := 0x41) (fun _ h => by cases h; exact ⟨rfl, rfl⟩) rfl
theorem Laws.Words.wmul (stl : BitVec 3) (d : BitVec 7) (a : BitVec 7) (b : BitVec 7) : Laws.Words.Statement (.wmul stl d a b) := Laws.Words.of_fields (s := 0) (o := 0x42) (fun _ h => by cases h; exact ⟨rfl, rfl⟩) rfl
theorem Laws.Words.wfma (stl : BitVec 3) (d : BitVec 7) (a : BitVec 7) (b : BitVec 7) : Laws.Words.Statement (.wfma stl d a b) := Laws.Words.of_fields (s := 0) (o := 0x43) (fun _ h => by cases h; exact ⟨rfl, rfl⟩) rfl
theorem Laws.Words.wmin (stl : BitVec 3) (d : BitVec 7) (a : BitVec 7) (b : BitVec 7) : Laws.Words.Statement (.wmin stl d a b) := Laws.Words.of_fields (s := 0) (o := 0x44) (fun _ h => by cases h; exact ⟨rfl, rfl⟩) rfl
theorem Laws.Words.wmax (stl : BitVec 3) (d : BitVec 7) (a : BitVec 7) (b : BitVec 7) : Laws.Words.Statement (.wmax stl d a b) := Laws.Words.of_fields (s := 0) (o := 0x45) (fun _ h => by cases h; exact ⟨rfl, rfl⟩) rfl
theorem Laws.Words.wscl (stl : BitVec 3) (d : BitVec 7) (a : BitVec 7) (b : BitVec 7) : Laws.Words.Statement (.wscl stl d a b) := Laws.Words.of_fields (s := 0) (o := 0x46) (fun _ h => by cases h; exact ⟨rfl, rfl⟩) rfl
theorem Laws.Words.wbcst (stl : BitVec 3) (d : BitVec 7) (a : BitVec 7) : Laws.Words.Statement (.wbcst stl d a) := Laws.Words.of_fields (s := 0) (o := 0x47) (fun _ h => by cases h; exact ⟨rfl, rfl⟩) rfl
theorem Laws.Words.wsum (stl : BitVec 3) (d : BitVec 7) (a : BitVec 7) : Laws.Words.Statement (.wsum stl d a) := Laws.Words.of_fields (s := 0) (o := 0x48) (fun _ h => by cases h; exact ⟨rfl, rfl⟩) rfl
theorem Laws.Words.wexp (stl : BitVec 3) (d : BitVec 7) (a : BitVec 7) : Laws.Words.Statement (.wexp stl d a) := Laws.Words.of_fields (s := 0) (o := 0x49) (fun _ h => by cases h; exact ⟨rfl, rfl⟩) rfl
theorem Laws.Words.whero (stl : BitVec 3) (d : BitVec 7) (a : BitVec 7) : Laws.Words.Statement (.whero stl d a) := Laws.Words.of_fields (s := 0) (o := 0x4A) (fun _ h => by cases h; exact ⟨rfl, rfl⟩) rfl
theorem Laws.Words.wlut (stl : BitVec 3) (d : BitVec 7) (a : BitVec 7) (b : BitVec 7) : Laws.Words.Statement (.wlut stl d a b) := Laws.Words.of_fields (s := 0) (o := 0x4B) (fun _ h => by cases h; exact ⟨rfl, rfl⟩) rfl
theorem Laws.Words.wcmf (stl : BitVec 3) (d : BitVec 7) (a : BitVec 7) (b : BitVec 7) : Laws.Words.Statement (.wcmf stl d a b) := Laws.Words.of_fields (s := 0) (o := 0x4C) (fun _ h => by cases h; exact ⟨rfl, rfl⟩) rfl
theorem Laws.Words.wrots (stl : BitVec 3) (d : BitVec 7) (a : BitVec 7) (b : BitVec 7) : Laws.Words.Statement (.wrots stl d a b) := Laws.Words.of_fields (s := 0) (o := 0x4D) (fun _ h => by cases h; exact ⟨rfl, rfl⟩) rfl
theorem Laws.Words.wmuel (stl : BitVec 3) (d : BitVec 7) (a : BitVec 7) (b : BitVec 7) : Laws.Words.Statement (.wmuel stl d a b) := Laws.Words.of_fields (s := 0) (o := 0x4E) (fun _ h => by cases h; exact ⟨rfl, rfl⟩) rfl
theorem Laws.Words.wfres (stl : BitVec 3) (d : BitVec 7) (a : BitVec 7) (b : BitVec 7) : Laws.Words.Statement (.wfres stl d a b) := Laws.Words.of_fields (s := 0) (o := 0x4F) (fun _ h => by cases h; exact ⟨rfl, rfl⟩) rfl
theorem Laws.Words.vote (stl : BitVec 3) (d : BitVec 7) (k : BitVec 1) (n : BitVec 1) (p : BitVec 3) (m : BitVec 7) : Laws.Words.Statement (.vote stl d k n p m) := Laws.Words.of_fields (s := 0) (o := 0x50) (fun _ h => by cases h; exact ⟨rfl, rfl⟩) rfl
theorem Laws.Words.shfl (stl : BitVec 3) (d : BitVec 7) (a : BitVec 7) (m : BitVec 2) (c : BitVec 5) : Laws.Words.Statement (.shfl stl d a m c) := Laws.Words.of_fields (s := 0) (o := 0x51) (fun _ h => by cases h; exact ⟨rfl, rfl⟩) rfl
theorem Laws.Words.pushl (stl : BitVec 3) (d : BitVec 7) (a : BitVec 7) (b : BitVec 7) : Laws.Words.Statement (.pushl stl d a b) := Laws.Words.of_fields (s := 0) (o := 0x52) (fun _ h => by cases h; exact ⟨rfl, rfl⟩) rfl
theorem Laws.Words.tred (stl : BitVec 3) (d : BitVec 7) (a : BitVec 7) (o : BitVec 7) : Laws.Words.Statement (.tred stl d a o) := Laws.Words.of_fields (s := 0) (o := 0x53) (fun _ h => by cases h; exact ⟨rfl, rfl⟩) rfl
theorem Laws.Words.brc (stl : BitVec 3) (off : BitVec 14) (k : BitVec 1) (n : BitVec 1) (p : BitVec 3) : Laws.Words.Statement (.brc stl off k n p) := Laws.Words.of_fields (s := 0) (o := 0x54) (fun _ h => by cases h; exact ⟨rfl, rfl⟩) rfl
theorem Laws.Words.brx (stl : BitVec 3) (a : BitVec 7) : Laws.Words.Statement (.brx stl a) := Laws.Words.of_fields (s := 0) (o := 0x55) (fun _ h => by cases h; exact ⟨rfl, rfl⟩) rfl
theorem Laws.Words.callx (stl : BitVec 3) (d : BitVec 7) (a : BitVec 7) : Laws.Words.Statement (.callx stl d a) := Laws.Words.of_fields (s := 0) (o := 0x56) (fun _ h => by cases h; exact ⟨rfl, rfl⟩) rfl
theorem Laws.Words.ret (stl : BitVec 3) (a : BitVec 7) : Laws.Words.Statement (.ret stl a) := Laws.Words.of_fields (s := 0) (o := 0x57) (fun _ h => by cases h; exact ⟨rfl, rfl⟩) rfl
theorem Laws.Words.exit (stl : BitVec 3) : Laws.Words.Statement (.exit stl) := Laws.Words.of_fields (s := 0) (o := 0x58) (fun _ h => by cases h; exact ⟨rfl, rfl⟩) rfl
theorem Laws.Words.xsend (stl : BitVec 3) (g : BitVec 7) (a : BitVec 7) (c : BitVec 7) : Laws.Words.Statement (.xsend stl g a c) := Laws.Words.of_fields (s := 0) (o := 0x59) (fun _ h => by cases h; exact ⟨rfl, rfl⟩) rfl
theorem Laws.Words.xrecv (stl : BitVec 3) (d : BitVec 7) (g : BitVec 7) (c : BitVec 7) : Laws.Words.Statement (.xrecv stl d g c) := Laws.Words.of_fields (s := 0) (o := 0x5A) (fun _ h => by cases h; exact ⟨rfl, rfl⟩) rfl
theorem Laws.Words.rng (stl : BitVec 3) (d : BitVec 7) (a : BitVec 7) (b : BitVec 7) : Laws.Words.Statement (.rng stl d a b) := Laws.Words.of_fields (s := 0) (o := 0x5B) (fun _ h => by cases h; exact ⟨rfl, rfl⟩) rfl
theorem Laws.Words.sread (stl : BitVec 3) (d : BitVec 7) (n : BitVec 7) : Laws.Words.Statement (.sread stl d n) := Laws.Words.of_fields (s := 0) (o := 0x5C) (fun _ h => by cases h; exact ⟨rfl, rfl⟩) rfl
theorem Laws.Words.waitr (stl : BitVec 3) (q : BitVec 3) : Laws.Words.Statement (.waitr stl q) := Laws.Words.of_fields (s := 0) (o := 0x5D) (fun _ h => by cases h; exact ⟨rfl, rfl⟩) rfl
theorem Laws.Words.join (stl : BitVec 3) : Laws.Words.Statement (.join stl) := Laws.Words.of_fields (s := 0) (o := 0x5E) (fun _ h => by cases h; exact ⟨rfl, rfl⟩) rfl
theorem Laws.Words.trapp (stl : BitVec 3) (code : BitVec 14) (k : BitVec 1) (n : BitVec 1) (p : BitVec 3) : Laws.Words.Statement (.trapp stl code k n p) := Laws.Words.of_fields (s := 0) (o := 0x5F) (fun _ h => by cases h; exact ⟨rfl, rfl⟩) rfl
theorem Laws.Words.ld (stl : BitVec 3) (d : BitVec 7) (a : BitVec 7) (size : BitVec 3) (sign : BitVec 1) (scope : BitVec 3) (subop : BitVec 5) (off : BitVec 20) : Laws.Words.Statement (.ld stl d a size sign scope subop off) := Laws.Words.of_fields (s := 0) (o := 0x60) (fun _ h => by cases h; exact ⟨rfl, rfl⟩) rfl
theorem Laws.Words.st (stl : BitVec 3) (d : BitVec 7) (a : BitVec 7) (size : BitVec 3) (sign : BitVec 1) (scope : BitVec 3) (subop : BitVec 5) (off : BitVec 20) : Laws.Words.Statement (.st stl d a size sign scope subop off) := Laws.Words.of_fields (s := 0) (o := 0x61) (fun _ h => by cases h; exact ⟨rfl, rfl⟩) rfl
theorem Laws.Words.ldw (stl : BitVec 3) (d : BitVec 7) (a : BitVec 7) (size : BitVec 3) (sign : BitVec 1) (scope : BitVec 3) (subop : BitVec 5) (off : BitVec 20) : Laws.Words.Statement (.ldw stl d a size sign scope subop off) := Laws.Words.of_fields (s := 0) (o := 0x62) (fun _ h => by cases h; exact ⟨rfl, rfl⟩) rfl
theorem Laws.Words.stw (stl : BitVec 3) (d : BitVec 7) (a : BitVec 7) (size : BitVec 3) (sign : BitVec 1) (scope : BitVec 3) (subop : BitVec 5) (off : BitVec 20) : Laws.Words.Statement (.stw stl d a size sign scope subop off) := Laws.Words.of_fields (s := 0) (o := 0x63) (fun _ h => by cases h; exact ⟨rfl, rfl⟩) rfl
theorem Laws.Words.ldfe (stl : BitVec 3) (d : BitVec 7) (a : BitVec 7) (size : BitVec 3) (sign : BitVec 1) (scope : BitVec 3) (subop : BitVec 5) (off : BitVec 20) : Laws.Words.Statement (.ldfe stl d a size sign scope subop off) := Laws.Words.of_fields (s := 0) (o := 0x64) (fun _ h => by cases h; exact ⟨rfl, rfl⟩) rfl
theorem Laws.Words.stfe (stl : BitVec 3) (d : BitVec 7) (a : BitVec 7) (size : BitVec 3) (sign : BitVec 1) (scope : BitVec 3) (subop : BitVec 5) (off : BitVec 20) : Laws.Words.Statement (.stfe stl d a size sign scope subop off) := Laws.Words.of_fields (s := 0) (o := 0x65) (fun _ h => by cases h; exact ⟨rfl, rfl⟩) rfl
theorem Laws.Words.atom (stl : BitVec 3) (d : BitVec 7) (a : BitVec 7) (b : BitVec 7) (size : BitVec 3) (sign : BitVec 1) (scope : BitVec 3) (subop : BitVec 5) (off : BitVec 20) : Laws.Words.Statement (.atom stl d a b size sign scope subop off) := Laws.Words.of_fields (s := 0) (o := 0x66) (fun _ h => by cases h; exact ⟨rfl, rfl⟩) rfl
theorem Laws.Words.red (stl : BitVec 3) (a : BitVec 7) (b : BitVec 7) (size : BitVec 3) (sign : BitVec 1) (scope : BitVec 3) (subop : BitVec 5) (off : BitVec 20) : Laws.Words.Statement (.red stl a b size sign scope subop off) := Laws.Words.of_fields (s := 0) (o := 0x67) (fun _ h => by cases h; exact ⟨rfl, rfl⟩) rfl
theorem Laws.Words.atomf (stl : BitVec 3) (d : BitVec 7) (a : BitVec 7) (b : BitVec 7) (size : BitVec 3) (sign : BitVec 1) (scope : BitVec 3) (subop : BitVec 5) (off : BitVec 20) : Laws.Words.Statement (.atomf stl d a b size sign scope subop off) := Laws.Words.of_fields (s := 0) (o := 0x68) (fun _ h => by cases h; exact ⟨rfl, rfl⟩) rfl
theorem Laws.Words.cvtfx (stl : BitVec 3) (d : BitVec 7) (a : BitVec 7) (dir : BitVec 1) (rm : BitVec 3) (fxw : BitVec 2) (frac : BitVec 7) : Laws.Words.Statement (.cvtfx stl d a dir rm fxw frac) := Laws.Words.of_fields (s := 0) (o := 0x69) (fun _ h => by cases h; exact ⟨rfl, rfl⟩) rfl
theorem Laws.Words.atomx (stl : BitVec 3) (a : BitVec 7) (b : BitVec 7) (size : BitVec 3) (sign : BitVec 1) (scope : BitVec 3) (subop : BitVec 5) (off : BitVec 20) : Laws.Words.Statement (.atomx stl a b size sign scope subop off) := Laws.Words.of_fields (s := 0) (o := 0x6A) (fun _ h => by cases h; exact ⟨rfl, rfl⟩) rfl
theorem Laws.Words.ldpoll (stl : BitVec 3) (d : BitVec 7) (a : BitVec 7) (size : BitVec 3) (sign : BitVec 1) (scope : BitVec 3) (subop : BitVec 5) (off : BitVec 20) : Laws.Words.Statement (.ldpoll stl d a size sign scope subop off) := Laws.Words.of_fields (s := 0) (o := 0x6B) (fun _ h => by cases h; exact ⟨rfl, rfl⟩) rfl
theorem Laws.Words.filmadd (stl : BitVec 3) (a : BitVec 7) (b : BitVec 7) (film : BitVec 3) (nch : BitVec 2) : Laws.Words.Statement (.filmadd stl a b film nch) := Laws.Words.of_fields (s := 0) (o := 0x6C) (fun _ h => by cases h; exact ⟨rfl, rfl⟩) rfl
theorem Laws.Words.limm (stl : BitVec 3) (d : BitVec 7) (imm : BitVec 32) : Laws.Words.Statement (.limm stl d imm) := Laws.Words.of_fields (s := 0) (o := 0x6D) (fun _ h => by cases h; exact ⟨rfl, rfl⟩) rfl
theorem Laws.Words.iaddi (stl : BitVec 3) (d : BitVec 7) (a : BitVec 7) (imm : BitVec 32) : Laws.Words.Statement (.iaddi stl d a imm) := Laws.Words.of_fields (s := 0) (o := 0x6E) (fun _ h => by cases h; exact ⟨rfl, rfl⟩) rfl
theorem Laws.Words.fmuli (stl : BitVec 3) (d : BitVec 7) (a : BitVec 7) (imm : BitVec 32) : Laws.Words.Statement (.fmuli stl d a imm) := Laws.Words.of_fields (s := 0) (o := 0x6F) (fun _ h => by cases h; exact ⟨rfl, rfl⟩) rfl
theorem Laws.Words.trace (stl : BitVec 3) (d : BitVec 7) (a : BitVec 7) (b : BitVec 7) (pop : BitVec 1) (flags : BitVec 7) (mask : BitVec 8) : Laws.Words.Statement (.trace stl d a b pop flags mask) := Laws.Words.of_fields (s := 0) (o := 0x70) (fun _ h => by cases h; exact ⟨rfl, rfl⟩) rfl
theorem Laws.Words.spawn (stl : BitVec 3) (k : BitVec 1) (p : BitVec 3) (a : BitVec 7) (b : BitVec 7) (sel : BitVec 4) : Laws.Words.Statement (.spawn stl k p a b sel) := Laws.Words.of_fields (s := 0) (o := 0x71) (fun _ h => by cases h; exact ⟨rfl, rfl⟩) rfl
theorem Laws.Words.hita (stl : BitVec 3) (d : BitVec 7) (sel : BitVec 4) : Laws.Words.Statement (.hita stl d sel) := Laws.Words.of_fields (s := 0) (o := 0x72) (fun _ h => by cases h; exact ⟨rfl, rfl⟩) rfl
theorem Laws.Words.hitc (stl : BitVec 3) (d : BitVec 7) (a : BitVec 7) (sel : BitVec 4) : Laws.Words.Statement (.hitc stl d a sel) := Laws.Words.of_fields (s := 0) (o := 0x73) (fun _ h => by cases h; exact ⟨rfl, rfl⟩) rfl
theorem Laws.Words.tex (stl : BitVec 3) (d : BitVec 7) (a : BitVec 7) (desc : BitVec 8) (samp : BitVec 8) : Laws.Words.Statement (.tex stl d a desc samp) := Laws.Words.of_fields (s := 0) (o := 0x74) (fun _ h => by cases h; exact ⟨rfl, rfl⟩) rfl
theorem Laws.Words.wtex (stl : BitVec 3) (d : BitVec 7) (a : BitVec 7) (b : BitVec 7) (desc : BitVec 8) (samp : BitVec 8) : Laws.Words.Statement (.wtex stl d a b desc samp) := Laws.Words.of_fields (s := 0) (o := 0x75) (fun _ h => by cases h; exact ⟨rfl, rfl⟩) rfl
theorem Laws.Words.neval (stl : BitVec 3) (d : BitVec 7) (a : BitVec 7) (b : BitVec 7) (nin : BitVec 6) (nout : BitVec 6) : Laws.Words.Statement (.neval stl d a b nin nout) := Laws.Words.of_fields (s := 0) (o := 0x76) (fun _ h => by cases h; exact ⟨rfl, rfl⟩) rfl
theorem Laws.Words.mmaq (stl : BitVec 3) (d : BitVec 7) (a : BitVec 7) (b : BitVec 7) (slot : BitVec 4) (km : BitVec 6) (nm : BitVec 4) (win : BitVec 5) : Laws.Words.Statement (.mmaq stl d a b slot km nm win) := Laws.Words.of_fields (s := 0) (o := 0x77) (fun _ h => by cases h; exact ⟨rfl, rfl⟩) rfl
theorem Laws.Words.mrd (stl : BitVec 3) (d : BitVec 7) (b : BitVec 7) (tile : BitVec 4) (col : BitVec 6) (row : BitVec 5) : Laws.Words.Statement (.mrd stl d b tile col row) := Laws.Words.of_fields (s := 0) (o := 0x78) (fun _ h => by cases h; exact ⟨rfl, rfl⟩) rfl
theorem Laws.Words.mwr (stl : BitVec 3) (d : BitVec 7) (b : BitVec 7) (tile : BitVec 4) (col : BitVec 6) (row : BitVec 5) : Laws.Words.Statement (.mwr stl d b tile col row) := Laws.Words.of_fields (s := 0) (o := 0x79) (fun _ h => by cases h; exact ⟨rfl, rfl⟩) rfl
theorem Laws.Words.msync (stl : BitVec 3) (bank : BitVec 1) : Laws.Words.Statement (.msync stl bank) := Laws.Words.of_fields (s := 0) (o := 0x7A) (fun _ h => by cases h; exact ⟨rfl, rfl⟩) rfl
theorem Laws.Words.oprdy (stl : BitVec 3) (bank : BitVec 1) : Laws.Words.Statement (.oprdy stl bank) := Laws.Words.of_fields (s := 0) (o := 0x7B) (fun _ h => by cases h; exact ⟨rfl, rfl⟩) rfl
theorem Laws.Words.tdraw (stl : BitVec 3) (d : BitVec 7) (a : BitVec 7) (b : BitVec 7) (tree : BitVec 6) (strat : BitVec 1) (keyed : BitVec 1) (vchk : BitVec 1) : Laws.Words.Statement (.tdraw stl d a b tree strat keyed vchk) := Laws.Words.of_fields (s := 0) (o := 0x7C) (fun _ h => by cases h; exact ⟨rfl, rfl⟩) rfl
theorem Laws.Words.tupd (stl : BitVec 3) (a : BitVec 7) (tree : BitVec 6) : Laws.Words.Statement (.tupd stl a tree) := Laws.Words.of_fields (s := 0) (o := 0x7D) (fun _ h => by cases h; exact ⟨rfl, rfl⟩) rfl
theorem Laws.Words.tins (stl : BitVec 3) (d : BitVec 7) (a : BitVec 7) (tree : BitVec 6) : Laws.Words.Statement (.tins stl d a tree) := Laws.Words.of_fields (s := 0) (o := 0x7E) (fun _ h => by cases h; exact ⟨rfl, rfl⟩) rfl
theorem Laws.Words.iaddU (stl : BitVec 3) (d : BitVec 7) (a : BitVec 7) (b : BitVec 7) : Laws.Words.Statement (.iaddU stl d a b) := Laws.Words.of_fields (s := 1) (o := 0x00) (fun _ h => by cases h; exact ⟨rfl, rfl⟩) rfl
theorem Laws.Words.isubU (stl : BitVec 3) (d : BitVec 7) (a : BitVec 7) (b : BitVec 7) : Laws.Words.Statement (.isubU stl d a b) := Laws.Words.of_fields (s := 1) (o := 0x01) (fun _ h => by cases h; exact ⟨rfl, rfl⟩) rfl
theorem Laws.Words.iaddcU (stl : BitVec 3) (d : BitVec 7) (a : BitVec 7) (b : BitVec 7) : Laws.Words.Statement (.iaddcU stl d a b) := Laws.Words.of_fields (s := 1) (o := 0x02) (fun _ h => by cases h; exact ⟨rfl, rfl⟩) rfl
theorem Laws.Words.isubbU (stl : BitVec 3) (d : BitVec 7) (a : BitVec 7) (b : BitVec 7) : Laws.Words.Statement (.isubbU stl d a b) := Laws.Words.of_fields (s := 1) (o := 0x03) (fun _ h => by cases h; exact ⟨rfl, rfl⟩) rfl
theorem Laws.Words.imulU (stl : BitVec 3) (d : BitVec 7) (a : BitVec 7) (b : BitVec 7) : Laws.Words.Statement (.imulU stl d a b) := Laws.Words.of_fields (s := 1) (o := 0x04) (fun _ h => by cases h; exact ⟨rfl, rfl⟩) rfl
theorem Laws.Words.imulhU (stl : BitVec 3) (d : BitVec 7) (a : BitVec 7) (b : BitVec 7) : Laws.Words.Statement (.imulhU stl d a b) := Laws.Words.of_fields (s := 1) (o := 0x05) (fun _ h => by cases h; exact ⟨rfl, rfl⟩) rfl
theorem Laws.Words.imulhuU (stl : BitVec 3) (d : BitVec 7) (a : BitVec 7) (b : BitVec 7) : Laws.Words.Statement (.imulhuU stl d a b) := Laws.Words.of_fields (s := 1) (o := 0x06) (fun _ h => by cases h; exact ⟨rfl, rfl⟩) rfl
theorem Laws.Words.imadU (stl : BitVec 3) (d : BitVec 7) (a : BitVec 7) (b : BitVec 7) : Laws.Words.Statement (.imadU stl d a b) := Laws.Words.of_fields (s := 1) (o := 0x07) (fun _ h => by cases h; exact ⟨rfl, rfl⟩) rfl
theorem Laws.Words.iminU (stl : BitVec 3) (d : BitVec 7) (a : BitVec 7) (b : BitVec 7) : Laws.Words.Statement (.iminU stl d a b) := Laws.Words.of_fields (s := 1) (o := 0x08) (fun _ h => by cases h; exact ⟨rfl, rfl⟩) rfl
theorem Laws.Words.imaxU (stl : BitVec 3) (d : BitVec 7) (a : BitVec 7) (b : BitVec 7) : Laws.Words.Statement (.imaxU stl d a b) := Laws.Words.of_fields (s := 1) (o := 0x09) (fun _ h => by cases h; exact ⟨rfl, rfl⟩) rfl
theorem Laws.Words.iminuU (stl : BitVec 3) (d : BitVec 7) (a : BitVec 7) (b : BitVec 7) : Laws.Words.Statement (.iminuU stl d a b) := Laws.Words.of_fields (s := 1) (o := 0x0A) (fun _ h => by cases h; exact ⟨rfl, rfl⟩) rfl
theorem Laws.Words.imaxuU (stl : BitVec 3) (d : BitVec 7) (a : BitVec 7) (b : BitVec 7) : Laws.Words.Statement (.imaxuU stl d a b) := Laws.Words.of_fields (s := 1) (o := 0x0B) (fun _ h => by cases h; exact ⟨rfl, rfl⟩) rfl
theorem Laws.Words.andU (stl : BitVec 3) (d : BitVec 7) (a : BitVec 7) (b : BitVec 7) : Laws.Words.Statement (.andU stl d a b) := Laws.Words.of_fields (s := 1) (o := 0x0C) (fun _ h => by cases h; exact ⟨rfl, rfl⟩) rfl
theorem Laws.Words.orU (stl : BitVec 3) (d : BitVec 7) (a : BitVec 7) (b : BitVec 7) : Laws.Words.Statement (.orU stl d a b) := Laws.Words.of_fields (s := 1) (o := 0x0D) (fun _ h => by cases h; exact ⟨rfl, rfl⟩) rfl
theorem Laws.Words.xorU (stl : BitVec 3) (d : BitVec 7) (a : BitVec 7) (b : BitVec 7) : Laws.Words.Statement (.xorU stl d a b) := Laws.Words.of_fields (s := 1) (o := 0x0E) (fun _ h => by cases h; exact ⟨rfl, rfl⟩) rfl
theorem Laws.Words.andnU (stl : BitVec 3) (d : BitVec 7) (a : BitVec 7) (b : BitVec 7) : Laws.Words.Statement (.andnU stl d a b) := Laws.Words.of_fields (s := 1) (o := 0x0F) (fun _ h => by cases h; exact ⟨rfl, rfl⟩) rfl
theorem Laws.Words.shlU (stl : BitVec 3) (d : BitVec 7) (a : BitVec 7) (b : BitVec 7) : Laws.Words.Statement (.shlU stl d a b) := Laws.Words.of_fields (s := 1) (o := 0x10) (fun _ h => by cases h; exact ⟨rfl, rfl⟩) rfl
theorem Laws.Words.shrU (stl : BitVec 3) (d : BitVec 7) (a : BitVec 7) (b : BitVec 7) : Laws.Words.Statement (.shrU stl d a b) := Laws.Words.of_fields (s := 1) (o := 0x11) (fun _ h => by cases h; exact ⟨rfl, rfl⟩) rfl
theorem Laws.Words.sarU (stl : BitVec 3) (d : BitVec 7) (a : BitVec 7) (b : BitVec 7) : Laws.Words.Statement (.sarU stl d a b) := Laws.Words.of_fields (s := 1) (o := 0x12) (fun _ h => by cases h; exact ⟨rfl, rfl⟩) rfl
theorem Laws.Words.rotlU (stl : BitVec 3) (d : BitVec 7) (a : BitVec 7) (b : BitVec 7) : Laws.Words.Statement (.rotlU stl d a b) := Laws.Words.of_fields (s := 1) (o := 0x13) (fun _ h => by cases h; exact ⟨rfl, rfl⟩) rfl
theorem Laws.Words.popcU (stl : BitVec 3) (d : BitVec 7) (a : BitVec 7) : Laws.Words.Statement (.popcU stl d a) := Laws.Words.of_fields (s := 1) (o := 0x14) (fun _ h => by cases h; exact ⟨rfl, rfl⟩) rfl
theorem Laws.Words.clzU (stl : BitVec 3) (d : BitVec 7) (a : BitVec 7) : Laws.Words.Statement (.clzU stl d a) := Laws.Words.of_fields (s := 1) (o := 0x15) (fun _ h => by cases h; exact ⟨rfl, rfl⟩) rfl
theorem Laws.Words.brevU (stl : BitVec 3) (d : BitVec 7) (a : BitVec 7) : Laws.Words.Statement (.brevU stl d a) := Laws.Words.of_fields (s := 1) (o := 0x16) (fun _ h => by cases h; exact ⟨rfl, rfl⟩) rfl
theorem Laws.Words.bfeU (stl : BitVec 3) (d : BitVec 7) (a : BitVec 7) (b : BitVec 7) : Laws.Words.Statement (.bfeU stl d a b) := Laws.Words.of_fields (s := 1) (o := 0x17) (fun _ h => by cases h; exact ⟨rfl, rfl⟩) rfl
theorem Laws.Words.bfiU (stl : BitVec 3) (d : BitVec 7) (a : BitVec 7) (b : BitVec 7) : Laws.Words.Statement (.bfiU stl d a b) := Laws.Words.of_fields (s := 1) (o := 0x18) (fun _ h => by cases h; exact ⟨rfl, rfl⟩) rfl
theorem Laws.Words.icmpU (stl : BitVec 3) (c : BitVec 4) (p : BitVec 3) (a : BitVec 7) (b : BitVec 7) : Laws.Words.Statement (.icmpU stl c p a b) := Laws.Words.of_fields (s := 1) (o := 0x19) (fun _ h => by cases h; exact ⟨rfl, rfl⟩) rfl
theorem Laws.Words.fcmpU (stl : BitVec 3) (c : BitVec 4) (p : BitVec 3) (a : BitVec 7) (b : BitVec 7) : Laws.Words.Statement (.fcmpU stl c p a b) := Laws.Words.of_fields (s := 1) (o := 0x1A) (fun _ h => by cases h; exact ⟨rfl, rfl⟩) rfl
theorem Laws.Words.cmovU (stl : BitVec 3) (d : BitVec 7) (k : BitVec 1) (n : BitVec 1) (p : BitVec 3) (b : BitVec 7) : Laws.Words.Statement (.cmovU stl d k n p b) := Laws.Words.of_fields (s := 1) (o := 0x1B) (fun _ h => by cases h; exact ⟨rfl, rfl⟩) rfl
theorem Laws.Words.movU (stl : BitVec 3) (d : BitVec 7) (a : BitVec 7) : Laws.Words.Statement (.movU stl d a) := Laws.Words.of_fields (s := 1) (o := 0x1C) (fun _ h => by cases h; exact ⟨rfl, rfl⟩) rfl
theorem Laws.Words.moviU (stl : BitVec 3) (d : BitVec 7) (imm : BitVec 14) : Laws.Words.Statement (.moviU stl d imm) := Laws.Words.of_fields (s := 1) (o := 0x1D) (fun _ h => by cases h; exact ⟨rfl, rfl⟩) rfl
theorem Laws.Words.dcmpU (stl : BitVec 3) (c : BitVec 4) (p : BitVec 3) (a : BitVec 7) (b : BitVec 7) : Laws.Words.Statement (.dcmpU stl c p a b) := Laws.Words.of_fields (s := 1) (o := 0x1E) (fun _ h => by cases h; exact ⟨rfl, rfl⟩) rfl
theorem Laws.Words.rdlane (stl : BitVec 3) (d : BitVec 7) (a : BitVec 7) (t : BitVec 7) : Laws.Words.Statement (.rdlane stl d a t) := Laws.Words.of_fields (s := 1) (o := 0x1F) (fun _ h => by cases h; exact ⟨rfl, rfl⟩) rfl
theorem Laws.Words.faddU (stl : BitVec 3) (d : BitVec 7) (a : BitVec 7) (b : BitVec 7) : Laws.Words.Statement (.faddU stl d a b) := Laws.Words.of_fields (s := 1) (o := 0x20) (fun _ h => by cases h; exact ⟨rfl, rfl⟩) rfl
theorem Laws.Words.fsubU (stl : BitVec 3) (d : BitVec 7) (a : BitVec 7) (b : BitVec 7) : Laws.Words.Statement (.fsubU stl d a b) := Laws.Words.of_fields (s := 1) (o := 0x21) (fun _ h => by cases h; exact ⟨rfl, rfl⟩) rfl
theorem Laws.Words.fmulU (stl : BitVec 3) (d : BitVec 7) (a : BitVec 7) (b : BitVec 7) : Laws.Words.Statement (.fmulU stl d a b) := Laws.Words.of_fields (s := 1) (o := 0x22) (fun _ h => by cases h; exact ⟨rfl, rfl⟩) rfl
theorem Laws.Words.ffmaU (stl : BitVec 3) (d : BitVec 7) (a : BitVec 7) (b : BitVec 7) : Laws.Words.Statement (.ffmaU stl d a b) := Laws.Words.of_fields (s := 1) (o := 0x23) (fun _ h => by cases h; exact ⟨rfl, rfl⟩) rfl
theorem Laws.Words.fminU (stl : BitVec 3) (d : BitVec 7) (a : BitVec 7) (b : BitVec 7) : Laws.Words.Statement (.fminU stl d a b) := Laws.Words.of_fields (s := 1) (o := 0x24) (fun _ h => by cases h; exact ⟨rfl, rfl⟩) rfl
theorem Laws.Words.fmaxU (stl : BitVec 3) (d : BitVec 7) (a : BitVec 7) (b : BitVec 7) : Laws.Words.Statement (.fmaxU stl d a b) := Laws.Words.of_fields (s := 1) (o := 0x25) (fun _ h => by cases h; exact ⟨rfl, rfl⟩) rfl
theorem Laws.Words.fcpysU (stl : BitVec 3) (d : BitVec 7) (a : BitVec 7) (b : BitVec 7) : Laws.Words.Statement (.fcpysU stl d a b) := Laws.Words.of_fields (s := 1) (o := 0x26) (fun _ h => by cases h; exact ⟨rfl, rfl⟩) rfl
theorem Laws.Words.fcvtU (stl : BitVec 3) (d : BitVec 7) (a : BitVec 7) (c : BitVec 4) (m : BitVec 3) : Laws.Words.Statement (.fcvtU stl d a c m) := Laws.Words.of_fields (s := 1) (o := 0x27) (fun _ h => by cases h; exact ⟨rfl, rfl⟩) rfl
theorem Laws.Words.frndU (stl : BitVec 3) (d : BitVec 7) (a : BitVec 7) (m : BitVec 3) : Laws.Words.Statement (.frndU stl d a m) := Laws.Words.of_fields (s := 1) (o := 0x28) (fun _ h => by cases h; exact ⟨rfl, rfl⟩) rfl
theorem Laws.Words.fclassU (stl : BitVec 3) (d : BitVec 7) (a : BitVec 7) : Laws.Words.Statement (.fclassU stl d a) := Laws.Words.of_fields (s := 1) (o := 0x29) (fun _ h => by cases h; exact ⟨rfl, rfl⟩) rfl
theorem Laws.Words.daddU (stl : BitVec 3) (d : BitVec 7) (a : BitVec 7) (b : BitVec 7) : Laws.Words.Statement (.daddU stl d a b) := Laws.Words.of_fields (s := 1) (o := 0x2A) (fun _ h => by cases h; exact ⟨rfl, rfl⟩) rfl
theorem Laws.Words.dmulU (stl : BitVec 3) (d : BitVec 7) (a : BitVec 7) (b : BitVec 7) : Laws.Words.Statement (.dmulU stl d a b) := Laws.Words.of_fields (s := 1) (o := 0x2B) (fun _ h => by cases h; exact ⟨rfl, rfl⟩) rfl
theorem Laws.Words.dfmaU (stl : BitVec 3) (d : BitVec 7) (a : BitVec 7) (b : BitVec 7) : Laws.Words.Statement (.dfmaU stl d a b) := Laws.Words.of_fields (s := 1) (o := 0x2C) (fun _ h => by cases h; exact ⟨rfl, rfl⟩) rfl
theorem Laws.Words.dminU (stl : BitVec 3) (d : BitVec 7) (a : BitVec 7) (b : BitVec 7) : Laws.Words.Statement (.dminU stl d a b) := Laws.Words.of_fields (s := 1) (o := 0x2D) (fun _ h => by cases h; exact ⟨rfl, rfl⟩) rfl
theorem Laws.Words.dmaxU (stl : BitVec 3) (d : BitVec 7) (a : BitVec 7) (b : BitVec 7) : Laws.Words.Statement (.dmaxU stl d a b) := Laws.Words.of_fields (s := 1) (o := 0x2E) (fun _ h => by cases h; exact ⟨rfl, rfl⟩) rfl
theorem Laws.Words.dcvtU (stl : BitVec 3) (d : BitVec 7) (a : BitVec 7) (c : BitVec 4) (m : BitVec 3) : Laws.Words.Statement (.dcvtU stl d a c m) := Laws.Words.of_fields (s := 1) (o := 0x2F) (fun _ h => by cases h; exact ⟨rfl, rfl⟩) rfl
theorem Laws.Words.br (stl : BitVec 3) (off : BitVec 21) : Laws.Words.Statement (.br stl off) := Laws.Words.of_fields (s := 1) (o := 0x30) (fun _ h => by cases h; exact ⟨rfl, rfl⟩) rfl
theorem Laws.Words.brq (stl : BitVec 3) (off : BitVec 14) (k : BitVec 1) (n : BitVec 1) (p : BitVec 3) : Laws.Words.Statement (.brq stl off k n p) := Laws.Words.of_fields (s := 1) (o := 0x31) (fun _ h => by cases h; exact ⟨rfl, rfl⟩) rfl
theorem Laws.Words.call (stl : BitVec 3) (off : BitVec 21) : Laws.Words.Statement (.call stl off) := Laws.Words.of_fields (s := 1) (o := 0x32) (fun _ h => by cases h; exact ⟨rfl, rfl⟩) rfl
theorem Laws.Words.jmps (stl : BitVec 3) (a : BitVec 7) : Laws.Words.Statement (.jmps stl a) := Laws.Words.of_fields (s := 1) (o := 0x33) (fun _ h => by cases h; exact ⟨rfl, rfl⟩) rfl
theorem Laws.Words.exitg (stl : BitVec 3) : Laws.Words.Statement (.exitg stl) := Laws.Words.of_fields (s := 1) (o := 0x34) (fun _ h => by cases h; exact ⟨rfl, rfl⟩) rfl
theorem Laws.Words.yield (stl : BitVec 3) : Laws.Words.Statement (.yield stl) := Laws.Words.of_fields (s := 1) (o := 0x35) (fun _ h => by cases h; exact ⟨rfl, rfl⟩) rfl
theorem Laws.Words.nop (stl : BitVec 3) : Laws.Words.Statement (.nop stl) := Laws.Words.of_fields (s := 1) (o := 0x36) (fun _ h => by cases h; exact ⟨rfl, rfl⟩) rfl
theorem Laws.Words.bkpt (stl : BitVec 3) (code : BitVec 14) : Laws.Words.Statement (.bkpt stl code) := Laws.Words.of_fields (s := 1) (o := 0x37) (fun _ h => by cases h; exact ⟨rfl, rfl⟩) rfl
theorem Laws.Words.trap (stl : BitVec 3) (code : BitVec 14) : Laws.Words.Statement (.trap stl code) := Laws.Words.of_fields (s := 1) (o := 0x38) (fun _ h => by cases h; exact ⟨rfl, rfl⟩) rfl
theorem Laws.Words.sreadU (stl : BitVec 3) (d : BitVec 7) (n : BitVec 7) : Laws.Words.Statement (.sreadU stl d n) := Laws.Words.of_fields (s := 1) (o := 0x39) (fun _ h => by cases h; exact ⟨rfl, rfl⟩) rfl
theorem Laws.Words.swrite (stl : BitVec 3) (n : BitVec 7) (a : BitVec 7) : Laws.Words.Statement (.swrite stl n a) := Laws.Words.of_fields (s := 1) (o := 0x3A) (fun _ h => by cases h; exact ⟨rfl, rfl⟩) rfl
theorem Laws.Words.waitblk (stl : BitVec 3) (a : BitVec 7) : Laws.Words.Statement (.waitblk stl a) := Laws.Words.of_fields (s := 1) (o := 0x3B) (fun _ h => by cases h; exact ⟨rfl, rfl⟩) rfl
theorem Laws.Words.racq (stl : BitVec 3) : Laws.Words.Statement (.racq stl) := Laws.Words.of_fields (s := 1) (o := 0x3C) (fun _ h => by cases h; exact ⟨rfl, rfl⟩) rfl
theorem Laws.Words.rrel (stl : BitVec 3) : Laws.Words.Statement (.rrel stl) := Laws.Words.of_fields (s := 1) (o := 0x3D) (fun _ h => by cases h; exact ⟨rfl, rfl⟩) rfl
theorem Laws.Words.lease (stl : BitVec 3) (k : BitVec 1) (p : BitVec 3) (a : BitVec 7) : Laws.Words.Statement (.lease stl k p a) := Laws.Words.of_fields (s := 1) (o := 0x3E) (fun _ h => by cases h; exact ⟨rfl, rfl⟩) rfl
theorem Laws.Words.lrel (stl : BitVec 3) : Laws.Words.Statement (.lrel stl) := Laws.Words.of_fields (s := 1) (o := 0x3F) (fun _ h => by cases h; exact ⟨rfl, rfl⟩) rfl
theorem Laws.Words.bari (stl : BitVec 3) (k : BitVec 7) (a : BitVec 7) (b : BitVec 7) : Laws.Words.Statement (.bari stl k a b) := Laws.Words.of_fields (s := 1) (o := 0x40) (fun _ h => by cases h; exact ⟨rfl, rfl⟩) rfl
theorem Laws.Words.bara (stl : BitVec 3) (d : BitVec 7) (a : BitVec 7) : Laws.Words.Statement (.bara stl d a) := Laws.Words.of_fields (s := 1) (o := 0x41) (fun _ h => by cases h; exact ⟨rfl, rfl⟩) rfl
theorem Laws.Words.barw (stl : BitVec 3) (a : BitVec 7) (b : BitVec 7) : Laws.Words.Statement (.barw stl a b) := Laws.Words.of_fields (s := 1) (o := 0x42) (fun _ h => by cases h; exact ⟨rfl, rfl⟩) rfl
theorem Laws.Words.baraw (stl : BitVec 3) (d : BitVec 7) (a : BitVec 7) : Laws.Words.Statement (.baraw stl d a) := Laws.Words.of_fields (s := 1) (o := 0x43) (fun _ h => by cases h; exact ⟨rfl, rfl⟩) rfl
theorem Laws.Words.nbar (stl : BitVec 3) (v : BitVec 7) (n : BitVec 7) (b : BitVec 7) : Laws.Words.Statement (.nbar stl v n b) := Laws.Words.of_fields (s := 1) (o := 0x44) (fun _ h => by cases h; exact ⟨rfl, rfl⟩) rfl
theorem Laws.Words.hbar (stl : BitVec 3) (c : BitVec 7) : Laws.Words.Statement (.hbar stl c) := Laws.Words.of_fields (s := 1) (o := 0x45) (fun _ h => by cases h; exact ⟨rfl, rfl⟩) rfl
theorem Laws.Words.fence (stl : BitVec 3) (k : BitVec 7) (c : BitVec 7) : Laws.Words.Statement (.fence stl k c) := Laws.Words.of_fields (s := 1) (o := 0x46) (fun _ h => by cases h; exact ⟨rfl, rfl⟩) rfl
theorem Laws.Words.mwait (stl : BitVec 3) (d : BitVec 7) (a : BitVec 7) (b : BitVec 7) : Laws.Words.Statement (.mwait stl d a b) := Laws.Words.of_fields (s := 1) (o := 0x47) (fun _ h => by cases h; exact ⟨rfl, rfl⟩) rfl
theorem Laws.Words.swaitp (stl : BitVec 3) (g : BitVec 7) (a : BitVec 7) (b : BitVec 7) : Laws.Words.Statement (.swaitp stl g a b) := Laws.Words.of_fields (s := 1) (o := 0x48) (fun _ h => by cases h; exact ⟨rfl, rfl⟩) rfl
theorem Laws.Words.ssig (stl : BitVec 3) (g : BitVec 7) (a : BitVec 7) : Laws.Words.Statement (.ssig stl g a) := Laws.Words.of_fields (s := 1) (o := 0x49) (fun _ h => by cases h; exact ⟨rfl, rfl⟩) rfl
theorem Laws.Words.cpy (stl : BitVec 3) (r : BitVec 1) (t : BitVec 1) (c : BitVec 4) (a : BitVec 7) : Laws.Words.Statement (.cpy stl r t c a) := Laws.Words.of_fields (s := 1) (o := 0x4A) (fun _ h => by cases h; exact ⟨rfl, rfl⟩) rfl
theorem Laws.Words.cpym (stl : BitVec 3) (r : BitVec 1) (t : BitVec 1) (c : BitVec 4) (a : BitVec 7) : Laws.Words.Statement (.cpym stl r t c a) := Laws.Words.of_fields (s := 1) (o := 0x4B) (fun _ h => by cases h; exact ⟨rfl, rfl⟩) rfl
theorem Laws.Words.dec (stl : BitVec 3) (r : BitVec 1) (t : BitVec 1) (c : BitVec 4) (a : BitVec 7) : Laws.Words.Statement (.dec stl r t c a) := Laws.Words.of_fields (s := 1) (o := 0x4C) (fun _ h => by cases h; exact ⟨rfl, rfl⟩) rfl
theorem Laws.Words.chain (stl : BitVec 3) (c : BitVec 4) (a : BitVec 7) : Laws.Words.Statement (.chain stl c a) := Laws.Words.of_fields (s := 1) (o := 0x4D) (fun _ h => by cases h; exact ⟨rfl, rfl⟩) rfl
theorem Laws.Words.ewait (stl : BitVec 3) (c : BitVec 7) (a : BitVec 7) : Laws.Words.Statement (.ewait stl c a) := Laws.Words.of_fields (s := 1) (o := 0x4E) (fun _ h => by cases h; exact ⟨rfl, rfl⟩) rfl
theorem Laws.Words.ecnt (stl : BitVec 3) (d : BitVec 7) (c : BitVec 7) (o : BitVec 7) : Laws.Words.Statement (.ecnt stl d c o) := Laws.Words.of_fields (s := 1) (o := 0x4F) (fun _ h => by cases h; exact ⟨rfl, rfl⟩) rfl
theorem Laws.Words.mmas (stl : BitVec 3) (y : BitVec 1) (l : BitVec 1) (k : BitVec 1) (n : BitVec 4) (a : BitVec 7) : Laws.Words.Statement (.mmas stl y l k n a) := Laws.Words.of_fields (s := 1) (o := 0x50) (fun _ h => by cases h; exact ⟨rfl, rfl⟩) rfl
theorem Laws.Words.bld (stl : BitVec 3) (n : BitVec 7) (a : BitVec 7) : Laws.Words.Statement (.bld stl n a) := Laws.Words.of_fields (s := 1) (o := 0x51) (fun _ h => by cases h; exact ⟨rfl, rfl⟩) rfl
theorem Laws.Words.memit (stl : BitVec 3) (k : BitVec 7) (a : BitVec 7) : Laws.Words.Statement (.memit stl k a) := Laws.Words.of_fields (s := 1) (o := 0x52) (fun _ h => by cases h; exact ⟨rfl, rfl⟩) rfl
theorem Laws.Words.tcommit (stl : BitVec 3) (d : BitVec 7) (t : BitVec 7) : Laws.Words.Statement (.tcommit stl d t) := Laws.Words.of_fields (s := 1) (o := 0x53) (fun _ h => by cases h; exact ⟨rfl, rfl⟩) rfl
theorem Laws.Words.tver (stl : BitVec 3) (d : BitVec 7) (t : BitVec 7) (e : BitVec 7) : Laws.Words.Statement (.tver stl d t e) := Laws.Words.of_fields (s := 1) (o := 0x54) (fun _ h => by cases h; exact ⟨rfl, rfl⟩) rfl
theorem Laws.Words.tblld (stl : BitVec 3) (k : BitVec 7) (a : BitVec 7) (c : BitVec 7) : Laws.Words.Statement (.tblld stl k a c) := Laws.Words.of_fields (s := 1) (o := 0x55) (fun _ h => by cases h; exact ⟨rfl, rfl⟩) rfl
theorem Laws.Words.tarm (stl : BitVec 3) (a : BitVec 7) : Laws.Words.Statement (.tarm stl a) := Laws.Words.of_fields (s := 1) (o := 0x56) (fun _ h => by cases h; exact ⟨rfl, rfl⟩) rfl
theorem Laws.Words.tstat (stl : BitVec 3) (d : BitVec 7) (a : BitVec 7) (e : BitVec 7) : Laws.Words.Statement (.tstat stl d a e) := Laws.Words.of_fields (s := 1) (o := 0x57) (fun _ h => by cases h; exact ⟨rfl, rfl⟩) rfl
theorem Laws.Words.treset (stl : BitVec 3) (a : BitVec 7) (b : BitVec 7) : Laws.Words.Statement (.treset stl a b) := Laws.Words.of_fields (s := 1) (o := 0x58) (fun _ h => by cases h; exact ⟨rfl, rfl⟩) rfl
theorem Laws.Words.wcnt (stl : BitVec 3) (d : BitVec 7) (a : BitVec 7) (e : BitVec 7) : Laws.Words.Statement (.wcnt stl d a e) := Laws.Words.of_fields (s := 1) (o := 0x59) (fun _ h => by cases h; exact ⟨rfl, rfl⟩) rfl
theorem Laws.Words.wwait (stl : BitVec 3) (e : BitVec 7) (a : BitVec 7) (b : BitVec 7) : Laws.Words.Statement (.wwait stl e a b) := Laws.Words.of_fields (s := 1) (o := 0x5A) (fun _ h => by cases h; exact ⟨rfl, rfl⟩) rfl
theorem Laws.Words.ffence (stl : BitVec 3) (a : BitVec 7) : Laws.Words.Statement (.ffence stl a) := Laws.Words.of_fields (s := 1) (o := 0x5B) (fun _ h => by cases h; exact ⟨rfl, rfl⟩) rfl
theorem Laws.Words.ldU (stl : BitVec 3) (d : BitVec 7) (a : BitVec 7) (size : BitVec 3) (sign : BitVec 1) (scope : BitVec 3) (subop : BitVec 5) (off : BitVec 20) : Laws.Words.Statement (.ldU stl d a size sign scope subop off) := Laws.Words.of_fields (s := 1) (o := 0x60) (fun _ h => by cases h; exact ⟨rfl, rfl⟩) rfl
theorem Laws.Words.stU (stl : BitVec 3) (d : BitVec 7) (a : BitVec 7) (size : BitVec 3) (sign : BitVec 1) (scope : BitVec 3) (subop : BitVec 5) (off : BitVec 20) : Laws.Words.Statement (.stU stl d a size sign scope subop off) := Laws.Words.of_fields (s := 1) (o := 0x61) (fun _ h => by cases h; exact ⟨rfl, rfl⟩) rfl
theorem Laws.Words.atomU (stl : BitVec 3) (d : BitVec 7) (a : BitVec 7) (b : BitVec 7) (size : BitVec 3) (sign : BitVec 1) (scope : BitVec 3) (subop : BitVec 5) (off : BitVec 20) : Laws.Words.Statement (.atomU stl d a b size sign scope subop off) := Laws.Words.of_fields (s := 1) (o := 0x62) (fun _ h => by cases h; exact ⟨rfl, rfl⟩) rfl
theorem Laws.Words.redU (stl : BitVec 3) (a : BitVec 7) (b : BitVec 7) (size : BitVec 3) (sign : BitVec 1) (scope : BitVec 3) (subop : BitVec 5) (off : BitVec 20) : Laws.Words.Statement (.redU stl a b size sign scope subop off) := Laws.Words.of_fields (s := 1) (o := 0x63) (fun _ h => by cases h; exact ⟨rfl, rfl⟩) rfl
theorem Laws.Words.limmU (stl : BitVec 3) (d : BitVec 7) (imm : BitVec 32) : Laws.Words.Statement (.limmU stl d imm) := Laws.Words.of_fields (s := 1) (o := 0x64) (fun _ h => by cases h; exact ⟨rfl, rfl⟩) rfl
theorem Laws.Words.iaddiU (stl : BitVec 3) (d : BitVec 7) (a : BitVec 7) (imm : BitVec 32) : Laws.Words.Statement (.iaddiU stl d a imm) := Laws.Words.of_fields (s := 1) (o := 0x65) (fun _ h => by cases h; exact ⟨rfl, rfl⟩) rfl
theorem Laws.Words.ldpollU (stl : BitVec 3) (d : BitVec 7) (a : BitVec 7) (size : BitVec 3) (sign : BitVec 1) (scope : BitVec 3) (subop : BitVec 5) (off : BitVec 20) : Laws.Words.Statement (.ldpollU stl d a size sign scope subop off) := Laws.Words.of_fields (s := 1) (o := 0x66) (fun _ h => by cases h; exact ⟨rfl, rfl⟩) rfl
theorem Laws.Words.lea (stl : BitVec 3) (d : BitVec 7) (a : BitVec 7) (off : BitVec 20) : Laws.Words.Statement (.lea stl d a off) := Laws.Words.of_fields (s := 1) (o := 0x67) (fun _ h => by cases h; exact ⟨rfl, rfl⟩) rfl
theorem Laws.Words.put (stl : BitVec 3) (a : BitVec 7) (win : BitVec 8) : Laws.Words.Statement (.put stl a win) := Laws.Words.of_fields (s := 1) (o := 0x68) (fun _ h => by cases h; exact ⟨rfl, rfl⟩) rfl
theorem Laws.Words.putf (stl : BitVec 3) (a : BitVec 7) (win : BitVec 8) : Laws.Words.Statement (.putf stl a win) := Laws.Words.of_fields (s := 1) (o := 0x69) (fun _ h => by cases h; exact ⟨rfl, rfl⟩) rfl
theorem Laws.Words.faar (stl : BitVec 3) (d : BitVec 7) (a : BitVec 7) (win : BitVec 8) : Laws.Words.Statement (.faar stl d a win) := Laws.Words.of_fields (s := 1) (o := 0x6A) (fun _ h => by cases h; exact ⟨rfl, rfl⟩) rfl
theorem Laws.Words.casr (stl : BitVec 3) (d : BitVec 7) (a : BitVec 7) (win : BitVec 8) : Laws.Words.Statement (.casr stl d a win) := Laws.Words.of_fields (s := 1) (o := 0x6B) (fun _ h => by cases h; exact ⟨rfl, rfl⟩) rfl
theorem Laws.Words.tmark (stl : BitVec 3) (mark : BitVec 32) : Laws.Words.Statement (.tmark stl mark) := Laws.Words.of_fields (s := 1) (o := 0x6C) (fun _ h => by cases h; exact ⟨rfl, rfl⟩) rfl
theorem Laws.Words.unassignedOpcode (w : Word) : Laws.Words.Statement (.unassignedOpcode w) := fun _ _ h => absurd rfl (h _)
theorem Laws.Words.stallCountdownExpiry : Laws.Words.Statement (.stallCountdownExpiry) := fun _ h => by cases h
theorem Laws.Words.unitRelease : Laws.Words.Statement (.unitRelease) := fun _ h => by cases h
theorem Laws.Words.starvationPromotion : Laws.Words.Statement (.starvationPromotion) := fun _ h => by cases h
theorem Laws.Words.grantChange : Laws.Words.Statement (.grantChange) := fun _ h => by cases h
theorem Laws.Words.fixedLatencyResult : Laws.Words.Statement (.fixedLatencyResult) := fun _ h => by cases h
theorem Laws.Words.variableResultWrite : Laws.Words.Statement (.variableResultWrite) := fun _ h => by cases h
theorem Laws.Words.pathMerge : Laws.Words.Statement (.pathMerge) := fun _ h => by cases h
theorem Laws.Words.spillReturn : Laws.Words.Statement (.spillReturn) := fun _ h => by cases h
theorem Laws.Words.spillRotation : Laws.Words.Statement (.spillRotation) := fun _ h => by cases h
theorem Laws.Words.hangReport : Laws.Words.Statement (.hangReport) := fun _ h => by cases h
theorem Laws.Words.ldpollBackoffExpiry : Laws.Words.Statement (.ldpollBackoffExpiry) := fun _ h => by cases h
theorem Laws.Words.mwaitWake : Laws.Words.Statement (.mwaitWake) := fun _ h => by cases h
theorem Laws.Words.loadAtHome : Laws.Words.Statement (.loadAtHome) := fun _ h => by cases h
theorem Laws.Words.storePerformed : Laws.Words.Statement (.storePerformed) := fun _ h => by cases h
theorem Laws.Words.atomicAtHome : Laws.Words.Statement (.atomicAtHome) := fun _ h => by cases h
theorem Laws.Words.atomicMerge : Laws.Words.Statement (.atomicMerge) := fun _ h => by cases h
theorem Laws.Words.fullEmptyAtHome : Laws.Words.Statement (.fullEmptyAtHome) := fun _ h => by cases h
theorem Laws.Words.barrierArrival : Laws.Words.Statement (.barrierArrival) := fun _ h => by cases h
theorem Laws.Words.impreciseStoreFault : Laws.Words.Statement (.impreciseStoreFault) := fun _ h => by cases h
theorem Laws.Words.coalescerClose : Laws.Words.Statement (.coalescerClose) := fun _ h => by cases h
theorem Laws.Words.eventRingWrite : Laws.Words.Statement (.eventRingWrite) := fun _ h => by cases h
theorem Laws.Words.msixModerationExpiry : Laws.Words.Statement (.msixModerationExpiry) := fun _ h => by cases h
theorem Laws.Words.bldLoadStart : Laws.Words.Statement (.bldLoadStart) := fun _ h => by cases h
theorem Laws.Words.bldComplete : Laws.Words.Statement (.bldComplete) := fun _ h => by cases h
theorem Laws.Words.aRowFillComplete : Laws.Words.Statement (.aRowFillComplete) := fun _ h => by cases h
theorem Laws.Words.passStart : Laws.Words.Statement (.passStart) := fun _ h => by cases h
theorem Laws.Words.passEnd : Laws.Words.Statement (.passEnd) := fun _ h => by cases h
theorem Laws.Words.mmaqWriteback : Laws.Words.Statement (.mmaqWriteback) := fun _ h => by cases h
theorem Laws.Words.chorusWriteback : Laws.Words.Statement (.chorusWriteback) := fun _ h => by cases h
theorem Laws.Words.memitComplete : Laws.Words.Statement (.memitComplete) := fun _ h => by cases h
theorem Laws.Words.accumPortAccess : Laws.Words.Statement (.accumPortAccess) := fun _ h => by cases h
theorem Laws.Words.slotRestore : Laws.Words.Statement (.slotRestore) := fun _ h => by cases h
theorem Laws.Words.leaseClaimLapse : Laws.Words.Statement (.leaseClaimLapse) := fun _ h => by cases h
theorem Laws.Words.leaseFree : Laws.Words.Statement (.leaseFree) := fun _ h => by cases h
theorem Laws.Words.chorusWindowClose : Laws.Words.Statement (.chorusWindowClose) := fun _ h => by cases h
theorem Laws.Words.chorusTileClose : Laws.Words.Statement (.chorusTileClose) := fun _ h => by cases h
theorem Laws.Words.chorusHandleLoadStart : Laws.Words.Statement (.chorusHandleLoadStart) := fun _ h => by cases h
theorem Laws.Words.chorusHandleLoadEnd : Laws.Words.Statement (.chorusHandleLoadEnd) := fun _ h => by cases h
theorem Laws.Words.copyArrival : Laws.Words.Statement (.copyArrival) := fun _ h => by cases h
theorem Laws.Words.copyComplete : Laws.Words.Statement (.copyComplete) := fun _ h => by cases h
theorem Laws.Words.decChunkDecode : Laws.Words.Statement (.decChunkDecode) := fun _ h => by cases h
theorem Laws.Words.chainComplete : Laws.Words.Statement (.chainComplete) := fun _ h => by cases h
theorem Laws.Words.tblldReload : Laws.Words.Statement (.tblldReload) := fun _ h => by cases h
theorem Laws.Words.traversalReport : Laws.Words.Statement (.traversalReport) := fun _ h => by cases h
theorem Laws.Words.filmOutboxDrain : Laws.Words.Statement (.filmOutboxDrain) := fun _ h => by cases h
theorem Laws.Words.filmRecordApply : Laws.Words.Statement (.filmRecordApply) := fun _ h => by cases h
theorem Laws.Words.treeRequestArrival : Laws.Words.Statement (.treeRequestArrival) := fun _ h => by cases h
theorem Laws.Words.treeStagingEnter : Laws.Words.Statement (.treeStagingEnter) := fun _ h => by cases h
theorem Laws.Words.putDelivery : Laws.Words.Statement (.putDelivery) := fun _ h => by cases h
theorem Laws.Words.putfFlagWrite : Laws.Words.Statement (.putfFlagWrite) := fun _ h => by cases h
theorem Laws.Words.fabricAtomicAtTarget : Laws.Words.Statement (.fabricAtomicAtTarget) := fun _ h => by cases h
theorem Laws.Words.putAck : Laws.Words.Statement (.putAck) := fun _ h => by cases h
theorem Laws.Words.fabricDeliveryTimeout : Laws.Words.Statement (.fabricDeliveryTimeout) := fun _ h => by cases h
theorem Laws.Words.ualinkPortFailure : Laws.Words.Statement (.ualinkPortFailure) := fun _ h => by cases h
theorem Laws.Words.ualinkPortTrained : Laws.Words.Statement (.ualinkPortTrained) := fun _ h => by cases h
theorem Laws.Words.podBarrierArrival : Laws.Words.Statement (.podBarrierArrival) := fun _ h => by cases h
theorem Laws.Words.hbarComplete : Laws.Words.Statement (.hbarComplete) := fun _ h => by cases h
theorem Laws.Words.hostBar4Request : Laws.Words.Statement (.hostBar4Request) := fun _ h => by cases h
theorem Laws.Words.hostAtomicCompletion : Laws.Words.Statement (.hostAtomicCompletion) := fun _ h => by cases h
theorem Laws.Words.armwordFetchadd : Laws.Words.Statement (.armwordFetchadd) := fun _ h => by cases h
theorem Laws.Words.armwordIgnored : Laws.Words.Statement (.armwordIgnored) := fun _ h => by cases h
theorem Laws.Words.triggerEdge : Laws.Words.Statement (.triggerEdge) := fun _ h => by cases h
theorem Laws.Words.triggerBindingWrite : Laws.Words.Statement (.triggerBindingWrite) := fun _ h => by cases h
theorem Laws.Words.dispatchTurn : Laws.Words.Statement (.dispatchTurn) := fun _ h => by cases h
theorem Laws.Words.blockPlacement : Laws.Words.Statement (.blockPlacement) := fun _ h => by cases h
theorem Laws.Words.reservingTimeout : Laws.Words.Statement (.reservingTimeout) := fun _ h => by cases h
theorem Laws.Words.quantumExpiry : Laws.Words.Statement (.quantumExpiry) := fun _ h => by cases h
theorem Laws.Words.groupEvict : Laws.Words.Statement (.groupEvict) := fun _ h => by cases h
theorem Laws.Words.groupReturn : Laws.Words.Statement (.groupReturn) := fun _ h => by cases h
theorem Laws.Words.blockRetire : Laws.Words.Statement (.blockRetire) := fun _ h => by cases h
theorem Laws.Words.taskDone : Laws.Words.Statement (.taskDone) := fun _ h => by cases h
theorem Laws.Words.leapInterval : Laws.Words.Statement (.leapInterval) := fun _ h => by cases h
theorem Laws.Words.leapMove : Laws.Words.Statement (.leapMove) := fun _ h => by cases h
theorem Laws.Words.tlbWalkComplete : Laws.Words.Statement (.tlbWalkComplete) := fun _ h => by cases h
theorem Laws.Words.invalComplete : Laws.Words.Statement (.invalComplete) := fun _ h => by cases h
theorem Laws.Words.destroyComplete : Laws.Words.Statement (.destroyComplete) := fun _ h => by cases h
theorem Laws.Words.wunregComplete : Laws.Words.Statement (.wunregComplete) := fun _ h => by cases h
theorem Laws.Words.scrub : Laws.Words.Statement (.scrub) := fun _ h => by cases h
theorem Laws.Words.errorLogWrite : Laws.Words.Statement (.errorLogWrite) := fun _ h => by cases h
theorem Laws.Words.controlStateError : Laws.Words.Statement (.controlStateError) := fun _ h => by cases h
theorem Laws.Words.packageReset : Laws.Words.Statement (.packageReset) := fun _ h => by cases h
theorem Laws.Words.powerLoss : Laws.Words.Statement (.powerLoss) := fun _ h => by cases h
theorem Laws.Words.bootStage : Laws.Words.Statement (.bootStage) := fun _ h => by cases h
theorem Laws.Words.bootWatchdogExpiry : Laws.Words.Statement (.bootWatchdogExpiry) := fun _ h => by cases h
theorem Laws.Words.arbiterInterval : Laws.Words.Statement (.arbiterInterval) := fun _ h => by cases h
theorem Laws.Words.thermalTrip : Laws.Words.Statement (.thermalTrip) := fun _ h => by cases h
theorem Laws.Words.syncPulse : Laws.Words.Statement (.syncPulse) := fun _ h => by cases h
theorem Laws.Words.orphanRead : Laws.Words.Statement (.orphanRead) := fun _ h => by cases h
theorem Laws.Words.synclostRead : Laws.Words.Statement (.synclostRead) := fun _ h => by cases h
theorem Laws.Words.ignoredArmCountRead : Laws.Words.Statement (.ignoredArmCountRead) := fun _ h => by cases h
theorem Laws.Words.cecntRead : Laws.Words.Statement (.cecntRead) := fun _ h => by cases h
theorem Laws.Words.tokrejRead : Laws.Words.Statement (.tokrejRead) := fun _ h => by cases h
theorem Laws.Words.trdropRead : Laws.Words.Statement (.trdropRead) := fun _ h => by cases h
theorem Laws.Words.registerWrite : Laws.Words.Statement (.registerWrite) := fun _ h => by cases h
theorem Laws.Words.create : Laws.Words.Statement (.create) := fun _ h => by cases h
theorem Laws.Words.destroy : Laws.Words.Statement (.destroy) := fun _ h => by cases h
theorem Laws.Words.inval : Laws.Words.Statement (.inval) := fun _ h => by cases h
theorem Laws.Words.suspend : Laws.Words.Statement (.suspend) := fun _ h => by cases h
theorem Laws.Words.resume : Laws.Words.Statement (.resume) := fun _ h => by cases h
theorem Laws.Words.presume : Laws.Words.Statement (.presume) := fun _ h => by cases h
theorem Laws.Words.pfault : Laws.Words.Statement (.pfault) := fun _ h => by cases h
theorem Laws.Words.cancel : Laws.Words.Statement (.cancel) := fun _ h => by cases h
theorem Laws.Words.tbuild : Laws.Words.Statement (.tbuild) := fun _ h => by cases h
theorem Laws.Words.tdrop : Laws.Words.Statement (.tdrop) := fun _ h => by cases h
theorem Laws.Words.wreg : Laws.Words.Statement (.wreg) := fun _ h => by cases h
theorem Laws.Words.wunreg : Laws.Words.Statement (.wunreg) := fun _ h => by cases h
theorem Laws.Words.attest : Laws.Words.Statement (.attest) := fun _ h => by cases h
theorem Laws.Words.recover : Laws.Words.Statement (.recover) := fun _ h => by cases h
theorem Laws.Words.retry : Laws.Words.Statement (.retry) := fun _ h => by cases h
theorem Laws.Words.verify : Laws.Words.Statement (.verify) := fun _ h => by cases h
theorem Laws.Words.close : Laws.Words.Statement (.close) := fun _ h => by cases h
theorem Laws.Words.halt : Laws.Words.Statement (.halt) := fun _ h => by cases h
theorem Laws.Words.run : Laws.Words.Statement (.run) := fun _ h => by cases h
theorem Laws.Words.regrd : Laws.Words.Statement (.regrd) := fun _ h => by cases h
theorem Laws.Words.regwr : Laws.Words.Statement (.regwr) := fun _ h => by cases h
theorem Laws.Words.snap : Laws.Words.Statement (.snap) := fun _ h => by cases h
theorem Laws.Words.cntclr : Laws.Words.Statement (.cntclr) := fun _ h => by cases h
theorem Laws.Words.syncPulseEnd : Laws.Words.Statement (.syncPulseEnd) := fun _ h => by cases h
theorem Laws.Words.leapForwardAck : Laws.Words.Statement (.leapForwardAck) := fun _ h => by cases h
theorem Laws.Words.tbuildComplete : Laws.Words.Statement (.tbuildComplete) := fun _ h => by cases h
theorem Laws.Words.attestComplete : Laws.Words.Statement (.attestComplete) := fun _ h => by cases h
theorem Laws.Words.recoverComplete : Laws.Words.Statement (.recoverComplete) := fun _ h => by cases h
theorem Laws.Words.suspendComplete : Laws.Words.Statement (.suspendComplete) := fun _ h => by cases h
theorem Laws.Words.testPortInstruction : Laws.Words.Statement (.testPortInstruction) := fun _ h => by cases h

end Sys2Proof
end

