-- ==== Sys2Proof/Tests/Slice0.lean ====
section
/-! SUPPORT. Tests: ill-formed terms that the checks refuse, words written out in the spec, worked examples of the spec, and for the
statements of Certificates/Slice0 states and operands that meet their hypotheses. -/
namespace Sys2Proof.Tests
open Sys2Proof Sys2Proof.Machine Host
-- Evaluated in the kernel one after another: side by side they would hold a thread each while they wait for those before them.
set_option Elab.async false

/-! ### Ill-formed instructions (R34, R39 to R50): each is refused by the check named -/

theorem test_illformed_codes :
    ([.icmp 0 10 0 0 0, .fcmp 0 6 0 0 0, .dcmpU 0 14 0 0 0, .fcvt 0 0 0 0 7, .dcvt 0 0 0 11 0, .frnd 0 0 0 5, .zop 0 0 0 5, .vote 0 8 0 0 0 0
      , .tred 0 0 0 11, .xsend 0 16 0 0, .sread 0 0 0x22, .sreadU 0 0 2, .swrite 0 0x0E 0, .waitr 0 0, .rdlane 0 0 0 96
      , .cvtfx 0 0 0 0 7 0 0, .cvtfx 0 0 0 0 0 0 64, .trace 0 0 0 0 0 32 0, .spawn 0 0 0 0 0 4, .hita 0 0 6, .mmaq 0 0 0 2 0 0 0 0, .mrd 0 0 2 0 0 0
      , .tdraw 0 0 0 1 0 0 0 0, .bari 0 3 0 0, .bari 0 0 0 1, .nbar 0 2 0 0, .hbar 0 1, .fence 0 0 0, .swaitp 0 32 0 0, .ewait 0 16 0, .ecnt 0 0 0 2
      , .memit 0 2 0, .bld 0 16 0, .tcommit 0 0 64, .tver 0 0 0 6, .tblld 0 5 0 0, .tstat 0 0 0 4, .wcnt 0 0 0 3, .wwait 0 2 0 0
      , .unassignedOpcode 0x7F000000] : List Instr).all (fun i => !codesLegal i) = true := by decide +kernel
theorem test_illformed_memory_forms :
    ([.ld 0 0 0 5 0 0 0 0, .ld 0 0 0 0 0 0 1 0, .st 0 0 0 2 1 0 0 0, .ldw 0 0 0 4 0 0 0 0, .stfe 0 0 0 2 0 0 2 0, .atom 0 0 0 0 1 0 0 0 0, .atom 0 0 0 0 2 0 0 10 0
      , .red 0 0 0 2 0 0 8 0, .atomf 0 0 0 0 2 0 0 3 0, .atomx 0 0 0 3 0 0 0 0, .ldpoll 0 0 0 4 0 0 0 0, .ldU 0 0 0 4 0 0 0 0
      , .ld 0 0 0 2 0 6 0 0] : List Instr).all (fun i => !codesLegal i) = true := by decide +kernel
theorem test_illformed_operands :
    ([.wadd 0 32 0 0, .daddU 0 1 0 0, .movU 0 64 0, .cmov 0 0 1 0 1 0, .cmovU 0 0 1 0 1 0, .movuX 0 4 0, .ld 0 1 0 4 0 0 0 0] : List Instr).all
      (fun i => !(operands i).all Opnd.legal) = true := by decide +kernel
theorem test_wellformed_needs_both_checks : ¬Instr.WellFormed (.icmp 0 10 0 0 0) ∧ ¬Instr.WellFormed (.wadd 0 32 0 0) ∧ Instr.WellFormed (.nop 7) := by decide +kernel

/-! ### Words of the spec -/

/-- R41, R98 and the examples of chapters 4 to 6: one word each. -/
theorem test_decode_lane_words :
    decode 0x192D8000 0 = .ok (.icmp 1 6 6 0 0) ∧ decode 0x02210002 0 = .ok (.iaddc 1 4 0 2) ∧ decode 0x4A404000 0 = .ok (.whero 2 1 0)
    ∧ decode 0x4B008081 0 = .ok (.wlut 0 2 1 1) ∧ decode 0x5260C082 0 = .ok (.pushl 3 3 1 2) ∧ decode 0x53010180 0 = .ok (.tred 0 4 3 0) := by decide +kernel
/-- Examples of chapters 6 to 8, 10, 14, 20, 21: two words. -/
theorem test_decode_extended_words :
    decode 0x77030401 0x30C40000 = .ok (.mmaq 0 12 8 1 3 3 1 0) ∧ decode 0x64024080 0x42100000 = .ok (.ldfe 0 9 1 2 0 1 1 0)
    ∧ decode 0x65020080 0x42100000 = .ok (.stfe 0 8 1 2 0 1 1 0) ∧ decode 0x6D008000 0xFFF00100 = .ok (.limm 0 2 0xFFF00100)
    ∧ decode 0x7C050800 0x14000000 = .ok (.tdraw 0 20 16 0 5 0 0 0) ∧ decode 0x7C050813 0x0A800000 = .ok (.tdraw 0 20 16 19 2 1 0 1)
    ∧ decode 0xE702_8000 0xC0 = .ok (.lea 0 10 0 192) ∧ decode 0xEA050500 0x01000000 = .ok (.faar 0 20 10 1)
    ∧ decode 0xE9000F00 0x01000000 = .ok (.putf 0 30 1) ∧ decode 0x7B000000 0x80000000 = .ok (.oprdy 0 1) := by decide +kernel
/-- Examples of chapters 4, 6, 8, 14, 17, 21: uniform words. -/
theorem test_decode_uniform_words :
    decode 0x9D210004 0 = .ok (.moviU 1 4 4) ∧ decode 0xBA068200 0 = .ok (.swrite 0 0x1A 4) ∧ decode 0xCD000400 0 = .ok (.chain 0 0 8)
    ∧ decode 0xCE000600 0 = .ok (.ewait 0 0 12) ∧ decode 0xCE004280 0 = .ok (.ewait 0 1 5) ∧ decode 0xDB001380 0 = .ok (.ffence 0 39)
    ∧ decode 0xB4000000 0 = .ok (.exitg 0) := by decide +kernel
/-- R40, R50: a field an instruction does not use must be zero, and an unassigned opcode is no other instruction. -/
theorem test_decode_refuses :
    decode 0xB6000001 0 = .error (.reservedField "NOP" (.nop 0)) ∧ decode 0x7F000000 0 = .ok (.unassignedOpcode 0x7F000000)
    ∧ decode 0xEF000000 0 = .ok (.unassignedOpcode 0xEF000000) := by decide +kernel
/-- The bits of the opcode table are laid out as the hardware stores the words (R36). -/
theorem test_table_word : decodeTableWord 64 0x40000040_60010300 = some (.ld 0 4 6 2 0 0 0 0x40) ∧ decodeTableWord 32 0xB6000000 = some (.nop 0) := by decide +kernel

/-! ### States that meet the hypotheses of the statements -/

/-- A group that issues from the placed program's first word: threads 0 and 95 in path 0. -/
def grp0 : Grp :=
  let g := Grp.start 0 0 0 0 (BitVec.ofNat 64 placedCode) 0 0
  { g with alive := 1 ||| 1 <<< 95, paths := { g.path 0 with mask := 1 ||| 1 <<< 95 } :: List.replicate 7 Path.free }
/-- The group with words in a vector register's two threads. -/
def grpV (l : List (Nat × Word)) : Grp := { grp0 with v := l.flatMap fun (r : Nat × Word) => [(128 * r.1, ⟨r.2, false⟩), (128 * r.1 + 95, ⟨r.2, false⟩)] }
/-- The group with words in uniform registers. -/
def grpS (l : List (Nat × RegVal)) : Grp := { grp0 with s := l }
/-- The machine with this group and block, path 0 of which is at issue. -/
def at0 (g : Grp) (b : Blk) : State :=
  { State.reset.withFetchWord 32 0xB6000000 with issuer := some (0, 0), groups := [(0, g)], blocks := [(0, b)] }
/-- The same with nothing unusual in it. -/
def st0 : State := at0 grp0 Blk.placed'

/-- The checks of Env.Clear, to be evaluated. -/
def clearB (e : Env) (i : Instr) : Bool := (e.issueTrap i).isNone && (e.readers i).all (fun t => (e.deferred i t).isNone)
theorem clear_of_clearB {e : Env} {i : Instr} (h : clearB e i = true) : e.Clear i := by
  simp only [clearB, Bool.and_eq_true, Option.isNone_iff_eq_none, List.all_eq_true] at h
  exact h
/-- The state has a path at issue, of which P holds. -/
theorem reaches {s : State} {P : Env → Prop} [DecidablePred P] (h : (s.env.any fun e => decide (P e)) = true) : ∃ e, s.env = some e ∧ P e := by
  cases hs : s.env with
  | none => simp [hs] at h
  | some e => exact ⟨e, rfl, by simpa [hs] using h⟩
/-- The instruction issues clear in the state, and P holds of what it reads. -/
theorem meets {s : State} {i : Instr} {P : Env → Prop} [DecidablePred P] (h : (s.env.any fun e => clearB e i && decide (P e)) = true) :
    ∃ e, s.env = some e ∧ e.Clear i ∧ P e := by
  cases hs : s.env with
  | none => simp [hs] at h
  | some e =>
    simp only [hs, Option.any_some, Bool.and_eq_true, decide_eq_true_eq] at h
    exact ⟨e, rfl, clear_of_clearB h.1, h.2⟩
/-- Every instruction of a list issues clear in the state. -/
theorem clear_all {s : State} {l : List Instr} (h : (s.env.any fun e => l.all (clearB e)) = true) : ∃ e, s.env = some e ∧ ∀ i ∈ l, e.Clear i := by
  cases hs : s.env with
  | none => simp [hs] at h
  | some e =>
    simp only [hs, Option.any_some, List.all_eq_true] at h
    exact ⟨e, rfl, fun i hi => clear_of_clearB (h i hi)⟩
/-- The same, and P holds of what they read. -/
theorem meets_all {s : State} {l : List Instr} {P : Env → Prop} [DecidablePred P] (h : (s.env.any fun e => decide (P e) && l.all (clearB e)) = true) :
    ∃ e, s.env = some e ∧ P e ∧ ∀ i ∈ l, e.Clear i := by
  cases hs : s.env with
  | none => simp [hs] at h
  | some e =>
    simp only [hs, Option.any_some, Bool.and_eq_true, decide_eq_true_eq, List.all_eq_true] at h
    exact ⟨e, rfl, h.1, fun i hi => clear_of_clearB (h.2 i hi)⟩
/-- An option holds a value, of which P holds. -/
theorem some_of {α : Type} {o : Option α} {P : α → Prop} [DecidablePred P] (h : (o.any fun x => decide (P x)) = true) : ∃ x, o = some x ∧ P x := by
  cases o with
  | none => simp at h
  | some x => exact ⟨x, rfl, by simpa using h⟩
/-- The state an instruction leads to. -/
def after (i : Instr) (s : State) : State := match exec i s with | .next t => t | _ => s

theorem witness_DecodeEncode :
    encode (.iadd 7 127 0 127) = some (0x00FFC07F, none) ∧ encode (.limm 0 127 0xFFFFFFFF) = some (0x6D1FC000, some 0xFFFFFFFF) ∧ encode .packageReset = none := by
  decide +kernel
theorem witness_EncodeDecode : decode 0x00FFC07F 0 = .ok (.iadd 7 127 0 127) ∧ decode 0x6D1FC000 0xFFFFFFFF = .ok (.limm 0 127 0xFFFFFFFF) := by decide +kernel
theorem witness_IntegerLaneResults : ∃ e, st0.env = some e ∧ ∀ i ∈ ([.iadd 0 0 3 63, .isub 7 63 0 3, .imul 0 0 0 0, .imulh 0 1 2 3, .imulhu 0 1 2 3, .imad 0 1 2 3
    , .imin 0 1 2 3, .imax 0 1 2 3, .iminu 0 1 2 3, .imaxu 0 1 2 3, .and 0 1 2 3, .or 0 1 2 3, .xor 0 1 2 3, .andn 0 1 2 3, .shl 0 1 2 3, .shr 0 1 2 3, .sar 0 1 2 3
    , .rotl 0 1 2 3, .popc 0 1 2, .clz 0 1 2, .brev 0 1 2, .mov 0 1 64, .limm 0 127 0xFFFFFFFF, .iaddi 0 1 2 0xFFFFFFFF] : List Instr), e.Clear i :=
  clear_all (by decide +kernel)
theorem witness_IntegerUniformResults : ∃ e, st0.env = some e ∧ ∀ i ∈ ([.iaddU 0 0 3 63, .isubU 7 63 0 3, .imulU 0 0 0 0, .imulhU 0 1 2 3, .imulhuU 0 1 2 3, .imadU 0 1 2 3
    , .iminU 0 1 2 3, .imaxU 0 1 2 3, .iminuU 0 1 2 3, .imaxuU 0 1 2 3, .andU 0 1 2 3, .orU 0 1 2 3, .xorU 0 1 2 3, .andnU 0 1 2 3, .shlU 0 1 2 3, .shrU 0 1 2 3
    , .sarU 0 1 2 3, .rotlU 0 1 2 3, .popcU 0 1 2, .clzU 0 1 2, .brevU 0 1 2, .movU 0 1 62, .limmU 0 63 0xFFFFFFFF, .iaddiU 0 1 2 0xFFFFFFFF] : List Instr), e.Clear i :=
  clear_all (by decide +kernel)
/-- R99: no field past bit 31 or of length 0; a field of the last bit, plain and sign-extended. -/
theorem witness_BitFieldResults :
    bitExtract 0xFFFFFFFF 0x00000120 = 0 ∧ bitExtract 0xFFFFFFFF 0x0001001F = 0 ∧ bitExtract 0x80000000 0xFFFEFF1F = 1 ∧ bitExtract 0x80000000 0x0001FF1F = 0xFFFFFFFF
    ∧ bitInsert 0xFF 0x0000041C 0 = 0xF0000000
    ∧ ∃ e, st0.env = some e ∧ ∀ i ∈ ([.bfe 0 0 63 1, .bfi 0 0 63 1, .bfeU 0 0 63 1, .bfiU 0 0 63 1] : List Instr), e.Clear i :=
  ⟨by decide +kernel, by decide +kernel, by decide +kernel, by decide +kernel, by decide +kernel, clear_all (by decide +kernel)⟩
theorem witness_CarryResults :
    (∃ e, st0.env = some e ∧ e.Clear (.iaddc 0 1 2 3) ∧ ∀ t ∈ threadsOf e.p.mask, (e.vec 2 t).poison = false ∧ (e.vec 3 t).poison = false)
    ∧ (∃ e, st0.env = some e ∧ e.Clear (.isubb 0 1 2 3) ∧ ∀ t ∈ threadsOf e.p.mask, (e.vec 2 t).poison = false ∧ (e.vec 3 t).poison = false)
    ∧ (∃ e, st0.env = some e ∧ e.Clear (.iaddcU 0 1 2 3) ∧ (e.uni 2).poison = false ∧ (e.uni 3).poison = false)
    ∧ (∃ e, st0.env = some e ∧ e.Clear (.isubbU 0 1 2 3) ∧ (e.uni 2).poison = false ∧ (e.uni 3).poison = false) :=
  ⟨meets (by decide +kernel), meets (by decide +kernel), meets (by decide +kernel), meets (by decide +kernel)⟩
/-- A poisoned register in both threads. -/
def stPoison : State := at0 { grp0 with v := [(256, ⟨1, true⟩), (351, ⟨0, true⟩)], s := [(2, ⟨1, true⟩)] } Blk.placed'
theorem witness_poisoned_sources : ∀ i ∈ ([.iaddc 0 1 2 3, .isubb 0 1 3 2, .icmp 0 0 0 2 3, .fcmp 0 0 0 2 3] : List Instr),
    ∃ e, stPoison.env = some e ∧ e.Clear i ∧ e.p.mask ≠ 0 ∧ ∀ u ∈ threadsOf e.p.mask, (e.vec 2 u).poison = true := by
  intro i hi
  simp only [List.mem_cons, List.not_mem_nil, or_false] at hi
  obtain rfl | rfl | rfl | rfl := hi <;> exact meets (by decide +kernel)
theorem witness_CompareAndMoveResults :
    (∃ e, st0.env = some e ∧ e.Clear (.icmp 0 9 7 2 3) ∧ ∀ t ∈ threadsOf e.p.mask, (e.vec 2 t).poison = false ∧ (e.vec 3 t).poison = false)
    ∧ (∃ e, st0.env = some e ∧ e.Clear (.icmpU 0 0 0 2 3) ∧ (e.uni 2).poison = false ∧ (e.uni 3).poison = false)
    ∧ (∃ e, st0.env = some e ∧ e.Clear (.movuX 0 3 0) ∧ (e.uni 0).poison = false)
    ∧ (∃ e, stPoison.env = some e ∧ (e.uni 2).poison = true ∧ ∀ i ∈ ([.icmpU 0 0 0 2 3, .icmpU 0 0 0 3 2, .movuX 0 3 2] : List Instr), e.Clear i)
    ∧ ∃ e, st0.env = some e ∧ ∀ i ∈ ([.cmov 0 1 0 0 7 2, .cmov 0 1 1 0 0 2, .cmovU 0 1 0 0 7 2, .movi 0 1 0x3FFF, .moviU 0 63 0x2000, .movu 0 1 63, .rdlane 0 1 2 0
      , .rdlane 0 1 2 95, .lea 0 62 0 0xFFFFF, .lea 0 0 62 0] : List Instr), e.Clear i :=
  ⟨meets (by decide +kernel), meets (by decide +kernel), meets (by decide +kernel), meets_all (by decide +kernel), clear_all (by decide +kernel)⟩

/-- FP32 1.0 in v1, 2.5 in v2, the FP64 pair 1.0 in v4:v5; the same in s. -/
def stFloat : State := at0 { grpV [(1, 0x3F800000), (2, 0x40200000), (5, 0x3FF00000)] with s := [(1, ⟨0x3F800000, false⟩), (2, ⟨0x40200000, false⟩), (5, ⟨0x3FF00000, false⟩)] } Blk.placed'
theorem witness_FloatLaneResults :
    (∃ e, stFloat.env = some e ∧ e.Clear (.fadd 0 3 1 2) ∧ ∀ t ∈ threadsOf e.p.mask, (fAdd .fp32 (arithMode e.g) (e.vec 1 t).val.toNat (e.vec 2 t).val.toNat).2 &&& e.g.enables = 0)
    ∧ (∃ e, stFloat.env = some e ∧ e.Clear (.dfma 0 4 2 2) ∧ ∀ t ∈ threadsOf e.p.mask,
        (fFma .fp64 (arithMode e.g) (e.pair 2 t).1.toNat (e.pair 2 t).1.toNat (e.pair 4 t).1.toNat).2 &&& e.g.enables = 0)
    ∧ ∃ e, stFloat.env = some e ∧ e.g.enables = 0 ∧ ∀ i ∈ ([.fsub 0 3 1 2, .fmul 0 3 1 2, .ffma 0 3 1 2, .fmin 0 3 1 2, .fmax 0 3 1 2, .fcpys 0 3 1 2, .fmuli 0 3 1 0x3F000000
      , .dadd 0 3 2 2, .dmul 0 3 2 2, .dmin 0 3 2 2, .dmax 0 3 2 2] : List Instr), e.Clear i :=
  ⟨meets (by decide +kernel), meets (by decide +kernel), meets_all (by decide +kernel)⟩
theorem witness_FloatUniformResults :
    (∃ e, stFloat.env = some e ∧ e.Clear (.faddU 0 3 1 2) ∧ (fAdd .fp32 (arithMode e.g) (e.uni 1).val.toNat (e.uni 2).val.toNat).2 &&& e.g.enables = 0)
    ∧ ∃ e, stFloat.env = some e ∧ e.g.enables = 0 ∧ ∀ i ∈ ([.fsubU 0 3 1 2, .fmulU 0 3 1 2, .ffmaU 0 3 1 2, .fminU 0 3 1 2, .fmaxU 0 3 1 2, .fcpysU 0 3 1 2
      , .daddU 0 6 4 4, .dmulU 0 6 4 4, .dfmaU 0 6 4 4, .dminU 0 6 4 4, .dmaxU 0 6 4 4] : List Instr), e.Clear i :=
  ⟨meets (by decide +kernel), meets_all (by decide +kernel)⟩
theorem witness_FloatComparesAndConversions :
    (∃ e, stFloat.env = some e ∧ e.Clear (.fcmp 0 2 0 1 2) ∧ ∀ u ∈ threadsOf e.p.mask, (e.vec 1 u).poison = false ∧ (e.vec 2 u).poison = false
        ∧ (fCmp .fp32 2 (e.vec 1 u).val.toNat (e.vec 2 u).val.toNat).2 &&& e.g.enables = 0)
    ∧ (∃ e, stFloat.env = some e ∧ e.Clear (.dcmp 0 13 0 2 2) ∧ ∀ u ∈ threadsOf e.p.mask, (e.pair 2 u).2 = false
        ∧ (fCmp .fp64 13 (e.pair 2 u).1.toNat (e.pair 2 u).1.toNat).2 &&& e.g.enables = 0)
    ∧ (∃ e, stFloat.env = some e ∧ e.Clear (.fcmpU 0 0 0 1 2) ∧ (e.uni 1).poison = false ∧ (e.uni 2).poison = false
        ∧ (fCmp .fp32 0 (e.uni 1).val.toNat (e.uni 2).val.toNat).2 &&& e.g.enables = 0)
    ∧ (∃ e, stFloat.env = some e ∧ e.Clear (.dcmpU 0 0 0 4 4) ∧ (e.upair 4).2 = false ∧ (fCmp .fp64 0 (e.upair 4).1.toNat (e.upair 4).1.toNat).2 &&& e.g.enables = 0)
    ∧ (∃ e, stPoison.env = some e ∧ e.Clear (.dcmp 0 0 0 1 1) ∧ e.p.mask ≠ 0 ∧ ∀ u ∈ threadsOf e.p.mask, (e.pair 1 u).2 = true)
    ∧ (∃ e, stFloat.env = some e ∧ e.g.enables = 0 ∧ ∀ i ∈ ([.fcvt 0 3 1 0 0, .fcvt 0 3 1 5 5, .fcvtU 0 3 1 0 5, .frnd 0 3 1 4, .frndU 0 3 1 0, .fclass 0 3 1, .fclassU 0 3 1, .dcvt 0 3 1 0 0
      , .dcvt 0 3 1 0 5, .dcvt 0 4 1 0 0, .dcvtU 0 6 4 0 5, .cvtfx 0 3 1 0 0 0 0, .cvtfx 0 4 1 0 5 1 63, .cvtfx 0 3 1 1 0 0 0, .cvtfx 0 3 2 1 4 1 63] : List Instr), e.Clear i)
    ∧ Fmt.fp32.value 0x3F800000 = .num 1 ∧ Fmt.fp32.value 0x80000000 = .zero true ∧ Fmt.fp32.value 0x7FC00000 = .nan false ∧ Fmt.fp64.value 0x7FF0000000000001 = .nan true :=
  ⟨meets (by decide +kernel), meets (by decide +kernel), meets (by decide +kernel), meets (by decide +kernel), meets (by decide +kernel), meets_all (by decide +kernel)
  , by decide +kernel, by decide +kernel, by decide +kernel, by decide +kernel⟩
theorem witness_SpecialFunctionResults :
    (∃ e, stFloat.env = some e ∧ e.Clear (.rcp 0 3 1) ∧ ∀ t ∈ threadsOf e.p.mask, (SpecFn.rcp.eval (e.vec 1 t).val).2 &&& e.g.enables = 0)
    ∧ ∃ e, stFloat.env = some e ∧ e.g.enables = 0 ∧ ∀ i ∈ ([.rsq 0 3 1, .sqrt 0 3 1, .exp2 0 3 1, .log2 0 3 1, .sinpi 0 3 1, .cospi 0 3 1, .tanh 0 3 1, .sigm 0 3 1, .erf 0 3 1
      , .gelu 0 3 1, .silu 0 3 1] : List Instr), e.Clear i :=
  ⟨meets (by decide +kernel), meets_all (by decide +kernel)⟩
theorem witness_ComplexAndSpectralResults : ∃ e, stFloat.env = some e ∧ e.g.enables = 0 ∧ ∀ i ∈ ([.zadd 0 3 1 2, .zmul 0 3 1 2, .zfma 0 3 1 2, .zop 0 3 1 0, .zop 0 3 1 1, .zop 0 3 1 2
    , .zop 0 3 1 3, .zop 0 3 1 4, .wadd 0 3 1 2, .wsub 0 3 1 2, .wmul 0 3 1 2, .wmin 0 3 1 2, .wmax 0 3 1 2, .wfma 0 3 1 2, .wscl 0 3 1 2, .wbcst 0 3 1, .wsum 0 3 1, .wexp 0 3 1, .whero 0 3 1
    , .wmuel 0 4 0 8, .wfres 0 4 0 8, .wrots 0 4 0 8] : List Instr), e.Clear i := meets_all (by decide +kernel)
theorem witness_CrossLaneResults : ∃ e, stFloat.env = some e ∧ e.g.enables = 0 ∧ ∀ i ∈ ([.vote 0 0 0 0 0 0, .vote 0 16 0 1 7 1, .vote 0 1 0 0 0 2, .vote 0 1 0 0 0 3, .shfl 0 1 2 0 31
    , .shfl 0 1 2 1 0, .shfl 0 1 2 2 31, .shfl 0 1 2 3 1, .pushl 0 1 2 3, .tred 0 1 2 0, .tred 0 1 2 10, .rng 0 1 0 2] : List Instr), e.Clear i := meets_all (by decide +kernel)

theorem witness_UniformTransfers :
    (∃ e, st0.env = some e ∧ e.p.hnd = false ∧ ∀ i ∈ ([.nop 0, .br 0 0x1FFFFF, .brq 0 0x2000 0 0 7, .call 0 1, .yield 0] : List Instr), e.Clear i)
    ∧ (∃ e, stPoison.env = some e ∧ e.Clear (.jmps 0 2) ∧ (e.upair 2).2 = true)
    ∧ (∃ e, (at0 (grpS [(2, ⟨3, false⟩)]) Blk.placed').env = some e ∧ e.Clear (.jmps 0 2) ∧ (e.upair 2).2 = false ∧ (e.upair 2).1.toNat % 4 ≠ 0)
    ∧ (∃ e, (at0 (grpS [(3, ⟨0x01000000, false⟩)]) Blk.placed').env = some e ∧ e.Clear (.jmps 0 2) ∧ (e.upair 2).2 = false ∧ (e.upair 2).1.toNat % 4 = 0 ∧ 2 ^ 56 ≤ (e.upair 2).1.toNat)
    ∧ (∃ e, (at0 (grpS [(2, ⟨0xFFFFFFFC, false⟩), (3, ⟨0x00FFFFFF, false⟩)]) Blk.placed').env = some e ∧ e.Clear (.jmps 0 2) ∧ (e.upair 2).2 = false ∧ (e.upair 2).1.toNat % 4 = 0
        ∧ (e.upair 2).1.toNat < 2 ^ 56 ∧ e.p.hnd = false)
    ∧ ∃ e, (at0 { grp0 with paths := { grp0.path 0 with hnd := true } :: grp0.paths.tail } Blk.placed').env = some e ∧ e.Clear (.jmps 0 2) ∧ (e.upair 2).2 = false
        ∧ (e.upair 2).1.toNat % 4 = 0 ∧ (e.upair 2).1.toNat < 2 ^ 56 ∧ e.p.hnd = true ∧ (∀ k, k < 8 → k ≠ e.pi → (e.g.path k).st = .free) ∧ e.g.spilled = [] ∧ e.pi < 8
        ∧ e.g.paths.length = 8 ∧ e.p.st = .live :=
  ⟨meets_all (by decide +kernel), meets (by decide +kernel), meets (by decide +kernel), meets (by decide +kernel), meets (by decide +kernel), meets (by decide +kernel)⟩
/-- Predicate p0 set in thread 95 alone, p1 in both. -/
def stSplit : State := at0 { grp0 with p := [(0, 1 <<< 95), (1, ~~~0)] } Blk.placed'
theorem witness_LaneBranches :
    (∃ e, stSplit.env = some e ∧ e.Clear (.brc 0 0x2000 0 0 1) ∧ e.p.mask ≠ 0 ∧ ∀ t ∈ threadsOf e.p.mask, e.pred 0 0 1 t = true)
    ∧ (∃ e, stSplit.env = some e ∧ e.Clear (.brc 0 0x1FFF 0 1 1) ∧ e.p.mask ≠ 0 ∧ ∀ t ∈ threadsOf e.p.mask, e.pred 0 1 1 t = false)
    ∧ (∃ e, st0.env = some e ∧ (e.p.mask ≠ 0 ∧ ∀ t ∈ threadsOf e.p.mask, e.pair 4 t = (0, false)) ∧ ∀ i ∈ ([.brx 0 4, .ret 0 4, .callx 0 2 4] : List Instr), e.Clear i)
    ∧ ∃ e, stSplit.env = some e ∧ e.Clear (.brc 0 1 0 0 0) ∧ e.p.st = .live ∧ e.g.freeEntry = some 1 ∧ e.pi < 8 ∧ e.g.paths.length = 8 ∧ threadsOf e.p.mask = 0 :: [95]
        ∧ ∃ t ∈ [95], e.pred 0 0 0 t ≠ e.pred 0 0 0 0 :=
  ⟨meets (by decide +kernel), meets (by decide +kernel), meets_all (by decide +kernel), meets (by decide +kernel)⟩
/-- Thread 0 in path 0, thread 95 in path 7. -/
def stTwo : State := at0 { grp0 with paths := { grp0.path 0 with mask := 1 } :: List.replicate 6 Path.free ++ [{ grp0.path 0 with mask := 1 <<< 95 }] } Blk.placed'
theorem witness_JoinAndExit :
    (∃ e, st0.env = some e ∧ e.Clear (.join 0) ∧ e.g.others e.pi = []) ∧ (∃ e, stTwo.env = some e ∧ e.Clear (.join 0) ∧ e.g.others e.pi ≠ [])
    ∧ (∃ e, stTwo.env = some e ∧ e.Clear (.exit 0) ∧ e.g.alive &&& ~~~e.p.mask ≠ 0 ∧ e.g.paths.all (fun q => match q.wait with | .handler _ _ _ => false | _ => true) = true)
    ∧ ∃ e, st0.env = some e ∧ ∀ i ∈ ([.exitg 0] : List Instr), e.Clear i :=
  ⟨meets (by decide +kernel), meets (by decide +kernel), meets (by decide +kernel), clear_all (by decide +kernel)⟩
theorem witness_IssueChecks :
    (∃ e, (at0 { grp0 with x := [(3, 0x100)] } Blk.placed').env = some e ∧ (Instr.iadd 0 127 0 0).fields ≠ none ∧ e.issueTrap (.iadd 0 127 0 0) = some ⟨0x02, 0⟩)
    ∧ (∃ e, (at0 grp0 { Blk.placed' with roles := [1] }).env = some e ∧ e.b.roles.getD e.g.gix 0 ≠ 0 ∧ e.b.roles.getD e.g.gix 0 ≠ 3)
    ∧ (∃ e, (at0 { grp0 with x := [(0, 0x100)] } { Blk.placed' with regs := 63 }).env = some e ∧ e.b.roles.getD e.g.gix 0 = 0 ∧ e.g.idxOk 64 = false ∧ e.g.idxOk 63 = true
        ∧ allotted e.g e.b (e.g.num 63) = false)
    ∧ (∃ e, (at0 { grp0 with x := [(3, 0xFF)] } { Blk.placed' with regs := 64 }).env = some e ∧ e.b.roles.getD e.g.gix 0 = 0 ∧ e.g.idxOk 127 = true ∧ e.g.idxOk 63 = true
        ∧ allotted e.g e.b (e.g.num 63) = true ∧ e.p.dist = [] ∧ e.g.damaged = [])
    ∧ (∃ e, (at0 { grp0 with paths := [{ grp0.path 0 with dist := [⟨.v 63, 1, 3⟩] }] } { Blk.placed' with check := true }).env = some e ∧ e.b.roles.getD e.g.gix 0 = 0 ∧ e.g.idxOk 63 = true
        ∧ allotted e.g e.b (e.g.num 63) = true ∧ e.b.check = true ∧ ∃ q ∈ e.p.dist, q.reg = .v (e.g.num 63))
    ∧ 10 ≤ (10 : BitVec 4).toNat ∧ 10 ≤ (15 : BitVec 4).toNat :=
  ⟨reaches (by decide +kernel), reaches (by decide +kernel), reaches (by decide +kernel), reaches (by decide +kernel), reaches (by decide +kernel), by decide +kernel⟩
/-- The machine with a handler in context 0. -/
def withHandler (s : State) : State := s.setCtx 0 { s.ctx 0 with desc := (s.ctx 0).desc ||| BitVec.ofNat 1024 (0x2000 * 2 ^ 720) }
theorem witness_TrapEntry : let s := withHandler st0
    s.grp 0 = some grp0 ∧ s.blk grp0.blk = some Blk.placed' ∧ (s.ctx Blk.placed'.ctx).tvec ≠ 0 ∧ (∀ p ∈ grp0.paths, p.hnd = false) ∧ (∀ p ∈ grp0.spilled, p.2.hnd = false)
    ∧ (0xFF : Nat) < 256 ∧ (0xFFFF : Nat) < 2 ^ 16 ∧ 7 < grp0.paths.length := by decide +kernel
/-- Path 0 runs the handler, path 7 does not. -/
def grpHandler : Grp := { grp0 with paths := { grp0.path 0 with hnd := true, mask := 1 } :: List.replicate 6 Path.free ++ [{ grp0.path 0 with mask := 1 <<< 95 }] }
def stHandler : State := withHandler (at0 grpHandler Blk.placed')
theorem witness_TrapQueueAndEscalation :
    (stHandler.grp 0 = some grpHandler ∧ stHandler.blk grpHandler.blk = some Blk.placed' ∧ 7 < grpHandler.paths.length ∧ (stHandler.ctx Blk.placed'.ctx).tvec ≠ 0
      ∧ (grpHandler.path 7).hnd = false ∧ grpHandler.inHandler = true ∧ (grpHandler.path 0).hnd = true)
    ∧ st0.grp 0 = some grp0 ∧ st0.blk grp0.blk = some Blk.placed' ∧ (grp0.path 0).hnd = false ∧ (st0.ctx Blk.placed'.ctx).tvec = 0 := by decide +kernel
theorem witness_SoftwareAndFloatTraps :
    (∃ e, stSplit.env = some e ∧ st0.dev.bkpten = false ∧ ∀ i ∈ ([.trap 0 0x3FFF, .trapp 0 0 0 0 1, .bkpt 0 0] : List Instr), e.Clear i)
    ∧ (∃ e, stSplit.env = some e ∧ e.Clear (.trapp 0 0x3FFF 0 0 1) ∧ e.p.mask ≠ 0 ∧ ∀ t ∈ threadsOf e.p.mask, e.pred 0 0 1 t = true)
    ∧ (∃ e, stSplit.env = some e ∧ e.Clear (.trapp 0 0 0 0 2) ∧ ∀ t ∈ threadsOf e.p.mask, e.pred 0 0 2 t = false)
    ∧ (let s := { st0 with dev := { st0.dev with bkpten := true, opened := 1, ctxopen := 1 } }; ∃ e, s.env = some e ∧ e.Clear (.bkpt 0 0) ∧ s.dev.bkpten = true ∧ s.dev.openFor 0 e.b.ctx = true)
    ∧ ∃ e, (at0 { grpV [(1, 0x7F800001)] with flags := 0x0100 } Blk.placed').env = some e ∧ e.Clear (.fadd 0 3 1 2) ∧ e.p.mask ≠ 0
        ∧ ∀ t ∈ threadsOf e.p.mask, (fAdd .fp32 (arithMode e.g) (e.vec 1 t).val.toNat (e.vec 2 t).val.toNat).2 &&& e.g.enables ≠ 0 :=
  ⟨meets_all (by decide +kernel), meets (by decide +kernel), meets (by decide +kernel), meets (by decide +kernel), meets (by decide +kernel)⟩
/-- A DET block, the second of its task, after one that retired. -/
def stDet (pfx : Nat) (v : RegVal) : State :=
  let s := at0 { grp0 with s := [(2, v)] } { Blk.placed' with det := true, bid := 1 }
  match s.task 0 0 with | some t => s.setTask 0 0 { t with pfx := pfx } | none => s
theorem witness_SpecialRegisters :
    (∃ e, st0.env = some e ∧ (e.b.det = false ∧ (e.uni 2).poison = false) ∧ ∀ i ∈ ([.sread 0 1 0, .sread 0 1 0x15, .sreadU 0 1 0x0A, .sreadU 0 1 0x1D, .sread 0 1 0x16, .sreadU 0 1 0x16
      , .swrite 0 0x0D 2, .swrite 0 0x13 2, .swrite 0 0x1A 2, .swrite 0 0x1B 2] : List Instr), e.Clear i)
    ∧ (∃ e, (stDet 0 ⟨0, false⟩).env = some e ∧ e.b.det = true ∧ ∀ i ∈ ([.sread 0 1 0x09, .sread 0 1 0x14, .sread 0 1 0x15, .sread 0 1 0x16, .sread 0 1 0x18, .sreadU 0 1 0x1C] : List Instr), e.Clear i)
    ∧ (∃ e, stPoison.env = some e ∧ e.Clear (.swrite 0 0x1A 2) ∧ (e.uni 2).poison = true)
    ∧ (grp0.writeSpecial 0x1A 1).partn = 32 ∧ (grp0.writeSpecial 0x1A 2).partn = 2 ∧ (grp0.writeSpecial 0x1A 33).partn = 32 ∧ (grp0.writeSpecial 0x1B 0xFFFF0005).rmode = 0xFFFF0000
    ∧ (grp0.writeSpecial 0x1B 4).rmode = 4 ∧ (grp0.writeSpecial 0x0D 0xFFFFFFFF).flags = 0x3F3F :=
  ⟨meets_all (by decide +kernel), meets_all (by decide +kernel), meets (by decide +kernel), by decide +kernel⟩
theorem witness_WaitBlockAndExtendedSet :
    (∃ e, st0.env = some e ∧ e.Clear (.waitblk 0 2) ∧ e.b.det = false)
    ∧ (∃ e, (stDet 0 ⟨0, true⟩).env = some e ∧ e.Clear (.waitblk 0 2) ∧ e.b.det = true ∧ (e.uni 2).poison = true)
    ∧ (∃ e, (stDet 0 ⟨2, false⟩).env = some e ∧ e.Clear (.waitblk 0 2) ∧ e.b.det = true ∧ (e.uni 2).poison = false ∧ e.b.bid < (e.uni 2).val.toNat)
    ∧ (∃ e, (stDet 1 ⟨1, false⟩).env = some e ∧ e.Clear (.waitblk 0 2) ∧ e.b.det = true ∧ (e.uni 2).poison = false ∧ (e.uni 2).val.toNat ≤ e.b.bid ∧ (e.uni 2).val.toNat ≤ (stDet 1 ⟨1, false⟩).prefixOf e.b)
    ∧ (∃ e, (stDet 0 ⟨1, false⟩).env = some e ∧ e.Clear (.waitblk 0 2) ∧ e.b.det = true ∧ (e.uni 2).poison = false ∧ (e.uni 2).val.toNat ≤ e.b.bid ∧ (stDet 0 ⟨1, false⟩).prefixOf e.b < (e.uni 2).val.toNat)
    ∧ (∃ e, st0.env = some e ∧ e.Clear (.racq 0) ∧ e.pi < e.g.paths.length ∧ e.b.xregs = 0)
    ∧ (∃ e, (at0 grp0 { Blk.placed' with xregs := 1, holder := some 0 }).env = some e ∧ (e.b.xregs ≠ 0 ∧ e.b.holder = some e.g.gix) ∧ ∀ i ∈ ([.racq 0, .rrel 0] : List Instr), e.Clear i)
    ∧ (∃ e, (at0 grp0 { Blk.placed' with xregs := 128, holder := some 1 }).env = some e ∧ (e.b.xregs ≠ 0 ∧ e.b.holder = some 1 ∧ 1 ≠ e.g.gix ∧ e.b.det = false) ∧ ∀ i ∈ ([.racq 0, .rrel 0] : List Instr), e.Clear i)
    ∧ ∃ e, (at0 grp0 { Blk.placed' with xregs := 128 }).env = some e ∧ e.Clear (.racq 0) ∧ e.b.xregs ≠ 0 ∧ e.b.holder = none ∧ e.b.det = false ∧ e.pi < 8
        ∧ ∀ x ∈ [(0, grp0)], ∀ q ∈ x.2.paths ++ x.2.spilled.map (·.2), q.wait ≠ .racq :=
  ⟨meets (by decide +kernel), meets (by decide +kernel), meets (by decide +kernel), meets (by decide +kernel), meets (by decide +kernel), meets (by decide +kernel), meets_all (by decide +kernel)
  , meets_all (by decide +kernel), meets (by decide +kernel)⟩

/-- Addresses in v4:v5 and s4:s5, one for each thread. -/
def stMem (lo lo' hi : Word) : State :=
  at0 { grp0 with v := [(512, ⟨lo, false⟩), (607, ⟨lo', false⟩), (640, ⟨hi, false⟩), (735, ⟨hi, false⟩)], s := [(4, ⟨lo, false⟩), (5, ⟨hi, false⟩)] } Blk.placed'
/-- The block's own slice memory (R52). -/
def stSlice (lo lo' : Word) : State := stMem (0xFFF00000 + lo) (0xFFF00000 + lo') 0x00FFFFFF
def passes {ε α : Type} (x : Except ε α) (ok : α → Bool) : Bool := match x with | .ok a => ok a | .error _ => false

theorem witness_AccessChecksAndTranslation :
    (∃ e, st0.env = some e ∧ e.deferred (.ld 0 0 2 2 0 0 0 0) 0 = none ∧ 0 < 1 ∧ ((1 : DWord).toNat % 4 ≠ 0) ∧ (4 : DWord).toNat % 4 = 0
        ∧ 2 ^ 56 < (BitVec.ofNat 64 (2 ^ 56)).toNat + 1 ∧ (BitVec.ofNat 64 (2 ^ 56 - 4)).toNat + 4 ≤ 2 ^ 56 ∧ (BitVec.ofNat 64 (2 ^ 56 - 4)).toNat / 2 ^ 32 % 2 ^ 24 = 0xFFFFFF
        ∧ (BitVec.ofNat 64 (0xFFFFFF * 2 ^ 32 - 4)).toNat / 2 ^ 32 % 2 ^ 24 ≠ 0xFFFFFF)
    ∧ (st0.tlb = [] ∧ st0.walks = [] ∧ isAperture (2 ^ 30 - 4) = false ∧ (walk st0.mem (2 ^ 30 - 4) walkLevels (st0.ctx 0).ptroot).toOption = some (0x5F, 2 ^ 30) ∧ (2 ^ 30 - 4) % 2 ^ 30 + 4 ≤ 2 ^ 30)
    ∧ 0x5F / 256 % 2 ^ 48 * 256 % 2 ^ 30 = 0 ∧ 0x5F / 32 % 2 = 0 ∧ 0x5F / 4 % 2 = 1 ∧ 0x5F / 8 % 2 = 1 ∧ 0x5F / 64 % 4 ≠ 3
    ∧ (∀ ent ∈ [0x53, 0xDF], let m := st0.mem.writeLE placedTable 8 ent; (walk m 0 walkLevels (st0.ctx 0).ptroot).toOption = some (ent, 2 ^ 30))
    ∧ 0x53 / 4 % 2 = 0 ∧ 0x53 / 8 % 2 = 0 ∧ 0xDF / 64 % 4 = 3 :=
  ⟨reaches (by decide +kernel), by decide +kernel⟩
theorem witness_LoadsIssue :
    (∃ e, (stMem 0x1000 0x3FFFFFE0 0).env = some e ∧ (e.pi < e.g.paths.length ∧ e.p.mask ≠ 0 ∧ ∀ t ∈ e.memThreads false, ∀ i ∈ [(Instr.ld 0 0 2 2 0 0 0 0, 4), (.ldw 0 0 2 5 0 0 0 0, 32), (.ldpoll 0 0 2 2 0 0 0 0, 4)],
        passes (e.memCheck i.1 false (e.ea false 2 0 t) i.2 .read false false t) (fun ps => ps.length == 1) = true)
      ∧ ∀ i ∈ [Instr.ld 0 0 2 2 0 0 0 0, .ldw 0 0 2 5 0 0 0 0, .ldpoll 0 0 2 2 0 0 0 0], e.Clear i)
    ∧ (∃ e, (stMem 0x1001 0 0).env = some e ∧ (∀ t ∈ e.memThreads true, ∀ i ∈ [Instr.ldU 0 0 4 2 0 0 0 0xFFFFF, .ldpollU 0 0 4 2 0 0 0 0xFFFFF],
        passes (e.memCheck i true (e.ea true 4 0xFFFFF t) 4 .read false false t) (fun ps => ps.length == 1) = true) ∧ ∀ i ∈ [Instr.ldU 0 0 4 2 0 0 0 0xFFFFF, .ldpollU 0 0 4 2 0 0 0 0xFFFFF], e.Clear i)
    ∧ ∃ e, (stSlice 0 0x1FF0).env = some e ∧ (∀ t ∈ e.memThreads false, ∀ i ∈ [Instr.ldfe 0 0 2 2 0 0 0 0, .ldfe 0 0 2 2 0 0 1 0],
        passes (e.memCheck i false (e.ea false 2 0 t) 4 .read true true t) (fun ps => ps.length == 1 && passes (e.feCheck (i == .ldfe 0 0 2 2 0 0 1 0) (e.ea false 2 0 t).1.toNat ps) (· == ps)) = true)
      ∧ ∀ i ∈ [Instr.ldfe 0 0 2 2 0 0 0 0, .ldfe 0 0 2 2 0 0 1 0], e.Clear i :=
  ⟨meets_all (by decide +kernel), meets_all (by decide +kernel), meets_all (by decide +kernel)⟩
theorem witness_LoadTrapsAndPolls :
    (∃ e, (stMem 0x40000000 0xFFFFFFFC 0).env = some e ∧ e.Clear (.ld 0 0 2 2 0 0 0 0) ∧ e.p.mask ≠ 0 ∧ ∀ t ∈ threadsOf e.p.mask,
        (match e.memCheck (.ld 0 0 2 2 0 0 0 0) false (e.ea false 2 0 t) 4 .read false false t with | .error x => x.1 == ⟨0x06, 0⟩ | .ok _ => false) = true)
    ∧ ∃ e, (stMem 0x1000 0x1000 0).env = some e ∧ (e.pi < e.g.paths.length ∧ e.p.mask ≠ 0 ∧ (∀ t ∈ e.memThreads false, passes (e.memCheck (.ldpoll 0 0 2 2 0 0 1 0) false (e.ea false 2 0 t) 4 .read false false t)
          (fun _ => true) = true) ∧ ∀ t ∈ e.memThreads true, passes (e.memCheck (.ldpollU 0 0 4 2 0 0 1 0) true (e.ea true 4 0 t) 4 .read false false t) (fun _ => true) = true)
        ∧ ∀ i ∈ [Instr.ldpoll 0 0 2 2 0 0 1 0, .ldpollU 0 0 4 2 0 0 1 0], e.Clear i :=
  ⟨meets (by decide +kernel), meets_all (by decide +kernel)⟩
theorem witness_StoresIssue :
    (∃ e, (stMem 0x1000 0x3FFFFFE0 0).env = some e ∧ (e.pi < e.g.paths.length ∧ e.p.mask ≠ 0 ∧ (∀ t ∈ e.memThreads false, ∀ i ∈ [(Instr.st 0 0 2 2 0 0 0 0, 4, 2), (.stw 0 0 2 5 0 0 0 0, 32, 5)],
          (let x := e.storeCheck i.1 false (e.ea false 2 0 t) i.2.1 t (e.dataRegs false 0 i.2.2 t); x.err.isNone && x.bad.isEmpty) = true)
        ∧ ∀ t ∈ e.memThreads true, (let x := e.storeCheck (.stU 0 0 4 2 0 0 0 0) true (e.ea true 4 0 t) 4 t (e.dataRegs true 0 2 t); x.err.isNone && x.bad.isEmpty) = true)
      ∧ ∀ i ∈ [Instr.st 0 0 2 2 0 0 0 0, .stw 0 0 2 5 0 0 0 0, .stU 0 0 4 2 0 0 0 0], e.Clear i)
    ∧ ∃ e, (stSlice 0 0x1FF0).env = some e ∧ (∀ t ∈ e.memThreads false, ∀ i ∈ [Instr.stfe 0 0 2 2 0 0 0 0, .stfe 0 0 2 2 0 0 1 0],
        passes (e.memCheck i false (e.ea false 2 0 t) 4 .write true true t) (fun ps => passes (e.feCheck (i == .stfe 0 0 2 2 0 0 1 0) (e.ea false 2 0 t).1.toNat ps) (· == ps)) = true)
      ∧ ∀ i ∈ [Instr.stfe 0 0 2 2 0 0 0 0, .stfe 0 0 2 2 0 0 1 0], e.Clear i :=
  ⟨meets_all (by decide +kernel), meets_all (by decide +kernel)⟩
theorem witness_AtomicsIssue :
    (∃ e, (stMem 0x1000 0x3FFFFFE0 0).env = some e ∧ ((e.pi < e.g.paths.length ∧ e.p.mask ≠ 0 ∧ e.b.det = false)
        ∧ (∀ t ∈ e.memThreads false, ∀ i ∈ [(Instr.atom 0 0 2 0 2 0 0 0 0, 0, true, 4), (.atom 0 0 2 0 2 0 0 9 0, 9, true, 4), (.red 0 2 0 2 0 0 7 0, 7, false, 4), (.atomf 0 0 2 0 2 0 0 0 0, 16, true, 4)
            , (.atomx 0 2 0 4 0 0 0 0, 32, false, 16)], passes (e.memCheck i.1 false (e.ea false 2 0 t) i.2.2.2 .atomic true false t) (fun ps => passes (e.atomCheck i.2.1 i.2.2.2 (i.2.2.1 && decide (i.2.1 < 16)) (e.ea false 2 0 t).1.toNat ps) (· == ps)) = true)
        ∧ ∀ t ∈ e.memThreads true, ∀ i ∈ [(Instr.atomU 0 0 4 0 2 0 0 0 0, true), (.redU 0 4 0 2 0 0 0 0, false)],
          passes (e.memCheck i.1 true (e.ea true 4 0 t) 4 .atomic true false t) (fun ps => passes (e.atomCheck 0 4 i.2 (e.ea true 4 0 t).1.toNat ps) (· == ps)) = true)
      ∧ ∀ i ∈ [Instr.atom 0 0 2 0 2 0 0 0 0, .atom 0 0 2 0 2 0 0 9 0, .red 0 2 0 2 0 0 7 0, .atomf 0 0 2 0 2 0 0 0 0, .atomx 0 2 0 4 0 0 0 0, .atomU 0 0 4 0 2 0 0 0 0, .redU 0 4 0 2 0 0 0 0], e.Clear i) :=
  meets_all (by decide +kernel)
theorem witness_WriteThenRead : st0.mem.wf = true ∧ (∃ k, k < 64 ∧ (64 + k) / 64 = 1) ∧ (∀ k, k < 64 → (64 + k) / 64 ≠ 0) ∧ st0.mem.poisoned 64 = false ∧ 64 ≤ 64 * 1 ∧ 64 * 1 + 64 ≤ 64 + 64 := by
  decide +kernel

/-- One thread, with an address in v4:v5 and data in v0 and v2. -/
def stOne (lo hi : Word) : State :=
  at0 { grp0 with alive := 1, paths := { grp0.path 0 with mask := 1 } :: List.replicate 7 Path.free, v := [(0, ⟨7, false⟩), (256, ⟨9, false⟩), (512, ⟨lo, false⟩), (640, ⟨hi, false⟩)] } Blk.placed'
/-- The state in which a request an instruction left is the event's subject. -/
def served (i : Instr) (s : State) (rid : Nat) : State := { after i s with subject := [rid] }
/-- The request's number. -/
def ridOf (i : Instr) (s : State) : Nat := ((after i s).reqs.map (·.rid)).headD 0
theorem witness_StorePerformed : let s := served (.st 0 0 2 2 0 0 0 0) (stOne 0x1000 0) (ridOf (.st 0 0 2 2 0 0 0 0) (stOne 0x1000 0))
    s.Canonical ∧ ∃ r, s.enabled (ridOf (.st 0 0 2 2 0 0 0 0) (stOne 0x1000 0)) = some r ∧ r.kind = .store ∧ r.cause = 0 ∧ r.parts.map (fun x => (x.home, x.len, x.data)) = [(0x1000, 4, 7)]
      ∧ s.inOutbox 0x1000 = false ∧ s.inSpawn 0x1000 = false :=
  ⟨by unfold State.Canonical; decide +kernel, some_of (by decide +kernel)⟩
theorem witness_LoadAtHome : let s := served (.ld 0 0 2 2 0 0 0 0) (stOne 0x1000 0) (ridOf (.ld 0 0 2 2 0 0 0 0) (stOne 0x1000 0))
    (∃ r, s.enabled (ridOf (.ld 0 0 2 2 0 0 0 0) (stOne 0x1000 0)) = some r ∧ r.kind = .load ∧ r.cause = 0 ∧ r.parts.map (fun p => (p.home, p.len, p.off, p.thread)) = [(0x1000, 4, 0, 0)]
      ∧ ((s.loads.find? fun x => x.id == r.op).any fun l => l.left == [(0, 4, 0, false)] && !l.poll) = true)
    ∧ (∀ n ∈ linesOf 0x1000 4, SMap.get 0 s.mem.latent n = 0) ∧ s.mem.anyPoison 0x1000 4 = false ∧ s.inOutbox 0x1000 = false ∧ s.inSpawn 0x1000 = false
    ∧ 0xFF < 2 ^ (8 * 1) ∧ 0xFFFF < 2 ^ (8 * 2) :=
  ⟨some_of (by decide +kernel), by decide +kernel⟩
theorem witness_AtomicsAtHome :
    (∀ i ∈ [Instr.atom 0 0 2 0 2 0 0 0 0, .red 0 2 0 2 0 0 7 0], let s := served i (stOne 0x1000 0) (ridOf i (stOne 0x1000 0))
      s.mem.wf = true ∧ (s.enabled (ridOf i (stOne 0x1000 0))).any (fun r => r.kind == .atomic && r.queued.isNone && r.parts.length == 1 && r.atoms.length == 1
          && r.parts.all (fun p => !isHost p.home && decide (0 < p.len) && (linesOf p.home p.len).all (fun n => SMap.get 0 s.mem.latent n == 0) && !s.mem.anyPoison p.home p.len
            && (List.range p.len).all fun k => !s.inOutbox (p.home + k) && !s.inSpawn (p.home + k))
          && r.atoms.all fun u => !u.poison && u.ret == (i == .atom 0 0 2 0 2 0 0 0 0)) = true)
    ∧ (let a := stOne 0x1000 0
      let g := { a.grp 0 |>.getD grp0 with blk := 1 }
      let s := after (.red 0 2 0 2 0 0 0 0) { after (.red 0 2 0 2 0 0 0 0) { a with groups := a.groups ++ [(1, g)], blocks := a.blocks ++ [(1, { Blk.placed' with core := 1 })] } with issuer := some (1, 0) }
      ∃ x, s.reqs[0]? = some x ∧ x.mergeable = true ∧ s.held x = false ∧ (s.reqs[1]?.any fun y => y.mergeable && (s.enabled y.rid).isSome && x.ctx == y.ctx && x.aop == y.aop
        && (x.parts.map fun p => (p.home, p.len)) == (y.parts.map fun p => (p.home, p.len)) && x.rid != y.rid) = true)
    ∧ (let s := { stOne 0x1000 0 with mem := (stOne 0x1000 0).mem.writeLE placedTable 8 0x7F }
      ∃ r, (after (.atom 0 0 2 0 2 0 0 0 0) s).enabled (ridOf (.atom 0 0 2 0 2 0 0 0 0) s) = some r ∧ r.kind = .atomic ∧ r.onHost = true) := by
  refine ⟨?_, some_of (by decide +kernel), some_of (by decide +kernel)⟩
  decide +kernel
theorem witness_refused_store : let s := after (.st 0 0 2 2 0 0 0 0) (stOne 0x40000000 0)
    (∃ r, s.reqs[0]? = some r ∧ r.kind = .store ∧ r.cause ≠ 0 ∧ (s.grp r.gk).isSome = true ∧ (s.blk r.bk).any (fun b => (s.task b.ctx b.task).isSome) = true ∧ (s.core r.core).coalescer = [])
    ∧ (s.task 0 0).any (fun k => k.ending == 0) = true ∧ s.taskBlocks 0 0 ≠ [] ∧ s.mem.latent = []
    ∧ (let u := { s with groups := [], blocks := [] }; u.taskBlocks 0 0 = [] ∧ (u.task 0 0).any (fun k => !k.kept && k.ending == 0 && k.faultrec == 0
        && passes (u.writeBack 0 0 true { k with ending := 1 } { k with ending := 1, status := 5 }) fun _ => true) = true) :=
  ⟨some_of (by decide +kernel), by decide +kernel⟩
/-- A store of two threads to one line is one request of two parts, of which the second may be performed by itself. -/
theorem witness_StorePerformed_part : let i := Instr.st 0 0 2 2 0 0 0 0
    let a := at0 { grp0 with alive := 3, paths := { grp0.path 0 with mask := 3 } :: List.replicate 7 Path.free, v := [(512, ⟨0x1000, false⟩), (513, ⟨0x1004, false⟩)] } Blk.placed'
    let s : State := { after i a with subject := [ridOf i a, 2 ^ 64 + 1] }
    (s.enabled (ridOf i a)).any (fun r => r.kind == .store && r.cause == 0 && r.parts.length == 2 && decide ((r.parts.map (·.len)).sum < 64)
      && (r.parts[1]?).any fun x => x.home == 0x1004 && (r.parts[0]?).any fun y => decide (y.home + y.len ≤ x.home)) = true ∧ s.mem.wf = true := by decide +kernel
/-- Two atomics of different cores with one place: the second has nothing ahead of it and may join the first. -/
theorem witness_AtomicsAtHome_merge : let a := stOne 0x1000 0
    let g := { a.grp 0 |>.getD grp0 with blk := 1 }
    let s := after (.red 0 2 0 2 0 0 0 0) { after (.red 0 2 0 2 0 0 0 0) { a with groups := a.groups ++ [(1, g)], blocks := a.blocks ++ [(1, { Blk.placed' with core := 1 })] } with issuer := some (1, 0) }
    ∃ x, s.reqs[0]? = some x ∧ (s.reqs[1]?.any fun y => (s.enabled x.rid).isSome && !s.held y && (s.ahead y).isEmpty && (y :: s.joined y.rid).all (fun z => x.core != z.core)
      && s.mayMerge x y) = true := some_of (by decide +kernel)
/-- A full-empty instruction's one request, its granule full or empty. -/
def stTag (i : Instr) (full : Bool) : State :=
  let s := stOne 0xFFF00000 0x00FFFFFF
  let t := after i { s with mem := s.mem.setTag (slicePA 0 0) full }
  { t with subject := [ridOf i s] }
theorem witness_FullEmptyAtHome : ∀ x ∈ [(Instr.ldfe 0 0 2 2 0 0 0 0, true), (.ldfe 0 0 2 2 0 0 1 0, true), (.ldfe 0 0 2 2 0 0 1 0, false), (.stfe 0 0 2 2 0 0 0 0, true), (.stfe 0 0 2 2 0 0 1 0, false)
      , (.stfe 0 0 2 2 0 0 1 0, true)], let s := stTag x.1 x.2
    s.mem.wf = true ∧ (s.reqs.all fun y => y.queued.isNone) = true ∧ s.mem.full (slicePA 0 0) = x.2
      ∧ (s.enabled (s.subject.headD 0)).any (fun r => r.parts.length == 1 && (s.grp r.gk).any (·.resident)
        && (match x.1 with | .ldfe _ _ _ _ _ _ u _ => r.kind == .ldfe (u == 1) | .stfe _ _ _ _ _ _ u _ => r.kind == .stfe (u == 1) | _ => false)
        && r.parts.all fun p => p.home == slicePA 0 0 && p.len == 4 && p.off == 0 && !p.poison && (linesOf p.home p.len).all (fun n => SMap.get 0 s.mem.latent n == 0) && !s.mem.anyPoison p.home p.len
          && (List.range p.len).all (fun k => !s.inOutbox (p.home + k) && !s.inSpawn (p.home + k))
          && (match x.1 with | .ldfe _ _ _ _ _ _ _ _ => (s.loads.find? fun y => y.id == r.op).any (fun l => l.left == [(p.thread, p.len, 0, false)] && !l.poll) | _ => true)) = true := by decide +kernel

/-- A barrier word at the start of the block's slice memory, named by s4:s5; a count in s2. -/
def grpBar (n : Word) : Grp := { grp0 with s := [(2, ⟨n, false⟩), (4, ⟨0xFFF00000, false⟩), (5, ⟨0x00FFFFFF, false⟩)] }
def stBar (word : Nat) (n : Word) (b : Blk) : State :=
  let s := at0 (grpBar n) b
  { s with mem := s.mem.writeLE (slicePA 0 0) 8 word }
/-- A second group of the block, running. -/
def plusGroup (s : State) : State := { s with groups := s.groups ++ [(1, { grp0 with gix := 1 })] }
def barAt (e : Env) : Bool := match e.barHome 4 with | .ok h => h == slicePA 0 0 | .error _ => false
def aloneB (s : State) (e : Env) (w : Wait → Bool) : Bool :=
  (e.g.others e.pi).isEmpty && s.groups.all fun x => (x.2.paths ++ x.2.spilled.map (·.2)).all fun q => !w q.wait
theorem witness_Barriers_words :
    ([0, 0x40000000, 1, 0x3FFFFFFF].all (fun n => (stBar 0 n Blk.placed').mem.wf && (stBar 0 n Blk.placed').env.any fun e => barAt e && e.p.wait == .none
      && clearB e (.bari 0 0 4 0) && clearB e (.bari 0 1 4 2) && clearB e (.bari 0 2 4 2) && (e.uni 2).val == n) = true)
    ∧ (∀ w ∈ [barWord 1 false 2 0 false, barWord 1 true (2 ^ 30 - 1) (2 ^ 30 - 3) false], let s := plusGroup (stBar w 0 Blk.placed'); s.env.any (fun e =>
        barAt e && clearB e (.bara 0 0 4) && clearB e (.baraw 0 0 4) && aloneB s e (onWord (slicePA 0 0)) && !s.mem.anyPoison (slicePA 0 0) 8 && !barBroken w && barKind w == 1
          && decide (barArrived w + 1 < barExpected w) && decide (barExpected w - (barArrived w + 1) ≤ ((s.groupsOf e.g.blk).filter fun x => x.1 != e.gk && x.2.alive != 0).length)) = true)
    ∧ (∀ w ∈ [barWord 1 false 1 0 false, barWord 1 true (2 ^ 30 - 1) (2 ^ 30 - 2) false], let s := stBar w 0 Blk.placed'; s.env.any (fun e =>
        barAt e && clearB e (.bara 0 0 4) && clearB e (.baraw 0 0 4) && aloneB s e (onWord (slicePA 0 0)) && !barBroken w && barKind w == 1 && barArrived w + 1 == barExpected w) = true)
    ∧ (let w := barWord 1 false 1 0 false; let s := plusGroup (stBar w 0 Blk.placed'); s.env.any (fun e => barAt e && clearB e (.barw 0 4 2) && (s.wordTrap (slicePA 0 0) false).isNone
          && aloneB s e (onWord (slicePA 0 0)) && barPhase w == (e.uni 2).val.getLsbD 0
          && decide (barExpected w - barArrived w ≤ ((s.groupsOf e.g.blk).filter fun x => x.1 != e.gk && x.2.alive != 0).length)) = true
        ∧ (stBar w 1 Blk.placed').env.any (fun e => barAt e && clearB e (.barw 0 4 2) && barPhase w != (e.uni 2).val.getLsbD 0) = true)
    ∧ (stBar (barWord 1 false 1 0 true) 0 Blk.placed').env.any (fun e => barAt e && clearB e (.bara 0 0 4) && (e.g.others e.pi).isEmpty && barBroken (e.s.mem.readLE (slicePA 0 0) 8)) = true
    ∧ (at0 { grpBar 0 with paths := stTwo.env.elim [] (·.g.paths) } Blk.placed').env.any (fun e => barAt e && clearB e (.bara 0 0 4) && !(e.g.others e.pi).isEmpty && e.p.wait == .none) = true := by
  decide +kernel
theorem witness_Barriers_named :
    (∀ x ∈ [((0 : Word), (0 : BitVec 7), 0), (17, 15, 0), (1, 0, 0), (16, 15, 15)], let s := stBar 0 x.1 { Blk.placed' with named := if x.2.2 = 0 then [] else [(15, ⟨16, x.2.2, true⟩)] }
      s.env.any (fun e => clearB e (.nbar 0 0 x.2.1 2) && aloneB s e (onNamed x.2.1.toNat) && (e.b.namedBar x.2.1.toNat).arrived == x.2.2 && (e.uni 2).val == x.1) = true)
    ∧ (let s := plusGroup (stBar 0 2 Blk.placed'); s.env.any (fun e => clearB e (.nbar 0 0 0 2) && clearB e (.nbar 0 1 0 2) && aloneB s e (onNamed 0) && (e.b.namedBar 0).arrived == 0
        && decide (2 - (0 + 1) ≤ ((s.groupsOf e.g.blk).filter fun y => y.1 != e.gk && y.2.alive != 0).length)) = true)
    ∧ (stBar 0 3 { Blk.placed' with named := [(0, ⟨2, 1, false⟩)] }).env.any (fun e => clearB e (.nbar 0 0 0 2) && (e.b.namedBar 0).arrived != 0 && (e.uni 2).val.toNat != (e.b.namedBar 0).count) = true
    ∧ (∀ x ∈ [(0, false, (2 : BitVec 7)), (0, true, 3), (2, false, 3), (0, true, 2)], (at0 grp0 { Blk.placed' with clsz := x.1, gang := x.2.1 }).env.any (fun e => clearB e (.hbar 0 x.2.2)) = true) := by
  decide +kernel
/-- An SSIG whose word is poisoned by the time it is at its home, and an STFE whose granule is. -/
theorem witness_poison_at_home :
    (let i := Instr.ssig 0 31 4; let a := stBar 0 0 Blk.placed'; let s := served i a (ridOf i a); let m := { s with mem := { s.mem with poison := SMap.set false [] (slicePA 0 0 / 64) true } }
      (m.enabled (ridOf i a)).any (fun r => r.kind == .atomic && r.parts.length == 1 && r.atoms.all (fun u => u.thread == 128 && (m.grp u.gk).isSome) && r.atoms.length == 1 && (m.joined r.rid).isEmpty
        && r.parts.all fun p => !isHost p.home && m.mem.anyPoison p.home p.len) = true ∧ m.mem.latent = [])
    ∧ (let s := stTag (.stfe 0 0 2 2 0 0 1 0) true; let m := { s with mem := { s.mem with poison := SMap.set false [] (slicePA 0 0 / 64) true } }
      (m.enabled (m.subject.headD 0)).any (fun r => r.kind == .stfe true && !r.out && r.parts.length == 1 && r.parts.all fun p => m.mem.anyPoison p.home p.len) = true)
    ∧ (let s := stTag (.stfe 0 0 2 2 0 0 1 0) true; (s.groups.all fun x => x.2.alive != 0) = true ∧ (s.enabled (s.subject.headD 0)).any (fun r => !r.out) = true) := by decide +kernel
theorem witness_WaitsAndFences :
    (∀ w ∈ [0, 1], (stBar w 0 Blk.placed').env.any (fun e => clearB e (.mwait 0 0 4 2) && clearB e (.swaitp 0 0 4 2) && clearB e (.ssig 0 31 4)
        && passes (e.memCheck (.mwait 0 0 4 2) true (e.upair 4) 4 .read true false 127) (fun ps => ps.length == 1 && ps.all fun p => !p.host && p.ord != 2 && p.home == slicePA 0 0)
        && passes (e.ringHome (.swaitp 0 0 4 2) 4) (fun p => p.home == slicePA 0 0) && passes (e.ringHome (.ssig 0 31 4) 4) (fun p => p.home == slicePA 0 0)
        && !e.s.readHeld e.gk e.p.mask (slicePA 0 0) 4 1 && e.s.mem.readLE (slicePA 0 0) 4 == w) = true)
    ∧ st0.env.any (fun e => clearB e (.fence 0 1 1) && clearB e (.waitr 0 7) && !e.s.outBefore e.gk e.p.mask e.s.seq (fun x => !x.kind.isFence) && (e.outOps 7).isEmpty) = true
    ∧ (let s := { after (.st 0 0 2 2 0 0 0 0) (stOne 0x1000 0) with issuer := some (0, 0) }
      s.env.any (fun e => clearB e (.fence 0 1 1) && clearB e (.waitr 0 2) && clearB e (.ffence 0 39) && e.s.outBefore e.gk e.p.mask e.s.seq (fun x => !x.kind.isFence) && !(e.outOps 2).isEmpty) = true) := by decide +kernel
/-- A block of two groups with an exchange asked for. -/
def stX (x : List XReq) : State := plusGroup (at0 grp0 { Blk.placed' with gpb := 2, roles := [0, 0], xreqs := x })
theorem witness_Exchanges :
    st0.env.any (fun e => clearB e (.xsend 0 1 2 0) && clearB e (.xrecv 0 2 0 15) && !e.b.det && !decide (1 < e.b.gpb)) = true
    ∧ (stX []).env.any (fun e => clearB e (.xsend 0 1 2 0) && clearB e (.xrecv 0 2 1 15) && decide (1 < e.b.gpb ∧ 1 ≠ e.g.gix) && (e.b.xpeer true e.g.gix 1 0).isNone && (e.b.xpeer false e.g.gix 1 15).isNone
        && (e.s.groupsOf e.g.blk).any fun x => x.2.gix == 1 && x.2.alive != 0) = true
    ∧ (({ stX [] with groups := [(0, grp0), (1, { grp0 with gix := 1, alive := 0 })] } : State).env.any fun e => clearB e (.xsend 0 1 2 0) && clearB e (.xrecv 0 2 1 15) && decide (1 < e.b.gpb ∧ 1 ≠ e.g.gix)
        && (e.b.xpeer true e.g.gix 1 0).isNone && (e.b.xpeer false e.g.gix 1 15).isNone && !(e.s.groupsOf e.g.blk).any fun x => x.2.gix == 1 && x.2.alive != 0) = true
    ∧ (stX [⟨9, 1, false, 1, 0, 0, 1, [], 3, []⟩]).env.any (fun e => clearB e (.xsend 0 1 2 0) && (e.b.xpeer true e.g.gix 1 0).isSome) = true
    ∧ (stX [⟨9, 1, true, 1, 0, 15, 1, [(0, ⟨5, false⟩)], 0, []⟩]).env.any (fun e => clearB e (.xrecv 0 2 1 15) && (e.b.xpeer false e.g.gix 1 15).any fun x => x.gk != e.gk) = true := by decide +kernel
/-- Context 0 with a table area at 2 MiB, entry 0 of a kind holding these bytes. -/
def stTable (off n x : Nat) (g : Grp) : State :=
  let s := at0 g Blk.placed'
  { s.setCtx 0 { s.ctx 0 with tab := BitVec.ofNat 128 (0x200000 * 2 ^ 64) } with mem := ((s.mem.writeLE 0x284000 16 (2 ^ 31)).writeLE (0x200000 + off) n x) }
theorem witness_LookupInstructions :
    (stTable 0x80000 64 (2 ^ 262 + 5 * 2 ^ 268) grp0).env.any (fun e => clearB e (.tex 0 0 4 0 0) && (List.range 4).all (fun k => (threadsOf e.p.mask).all fun t => !(e.v (4 + k) t).poison)
      && (e.s.texOf 0 0 0 [1]).any fun x => (threadsOf e.p.mask).all fun t =>
          let c := (List.range 4).map fun k => (e.v (4 + k) t).val.toNat
          let y := { x.1 with level := texLevel x.1 x.2 (c.getD 3 0) }
          ((List.range x.1.channels).mapM fun m => e.s.lookup (e.g.agent e.b) y (y.taps c) (some [(some m, 1)])).any fun r => r.all fun q => !q.2.1 && !q.2.2) = true
    ∧ (stTable 0x80000 64 (2 * 2 ^ 262) grp0).env.any (fun e => clearB e (.wtex 0 0 4 1 0 0)
      && (e.s.texOf 0 0 0 [2, 3, 4]).any fun x => (threadsOf e.p.mask).all fun t =>
          ((List.range 8).mapM fun j => e.s.wtexSlot (e.g.agent e.b) x.1 (x.1.taps ((List.range 3).map fun k => (e.v (4 + k) t).val.toNat)) (e.span 1 8 j t).val.toNat).any fun r => r.all fun q => !q.2.1 && !q.2.2) = true
    ∧ (let s := stTable 0x40000 64 (0x3F800000 * 2 ^ 32 + 2 ^ 73) grp0; s.env.any (fun e => clearB e (.wlut 0 0 1 2) && clearB e (.wcmf 0 0 1 2)) = true ∧ (s.specTable 0 0).any (fun x => !x.2) = true
      ∧ s.mem.poison = [] ∧ s.mem.latent = [])
    ∧ (2 ≤ [0, 1].length ∧ Fmt.fp32.value 0x80000000 = .zero true ∧ Fmt.fp32.value 0x7F800001 = .nan true) := by decide +kernel

/-- The texel reads of a lookup are mapped; a thread with a poisoned coordinate; a texture number without a descriptor; the lookups of a TEX, which are read later. -/
theorem witness_LookupInstructions_pending :
    (let s := stTable 0x80000 64 (2 ^ 262 + 5 * 2 ^ 268) grp0; (s.texOf 0 0 0 [1]).isSome = true ∧ (s.texOf 0 1 0 [1]).isNone = true
      ∧ (match exec (.tex 0 0 4 0 0) s with
          | .next t => t.results.length == 1 && t.mem.latent.isEmpty && t.results.all fun r => r.gk == 0 && r.looks.map (·.thread) == [0, 95] && !t.uncleared 0 r.mask r.id
            && r.looks.all fun k => k.reads.all (fun x => passes (s.resolve (grp0.agent Blk.placed') .read x.1 x.2) fun _ => true) && decide (k.dest + k.width ≤ 128)
              && (t.lookSlots (grp0.agent Blk.placed') k).any fun ys => ys.length == 1 && ys.all fun y => !y.2
          | _ => false) = true
      ∧ ({ s with groups := [(0, { grp0 with v := [(512, ⟨1, true⟩)] })] } : State).env.any (fun e => clearB e (.tex 0 0 4 0 0) && (e.v 4 0).poison) = true)
    ∧ (let a := stMem 0x1000 0x1000 0; let s := after (.st 0 0 2 2 0 0 0 0) a; (s.reqs.all fun r => s.uncleared 0 r.mask (r.op + 1)) = true) := by decide +kernel
/-- Film 0 of one pixel, unbound, and tree 63 built of one leaf; 1 in v6. -/
def stFilm : State :=
  let s := at0 (grpV [(6, 1)]) Blk.placed'
  s.setCtx 0 { s.ctx 0 with films := [(0, BitVec.ofNat 512 (2 ^ 128 + 2 ^ 96))], trees := [(63, ⟨1, ~~~0, 0, 0, [], []⟩)] }
theorem witness_FilmAndTreeRequests :
    stFilm.env.any (fun e => clearB e (.filmadd 0 4 8 0 0) && clearB e (.filmadd 0 4 8 0 3) && (stFilm.filmDesc e.b.ctx 0).getLsbD 128) = true
    ∧ filmBound (stFilm.filmDesc 0 0) = none ∧ SMap.wf 0 grp0.fseq = true
    ∧ stFilm.env.any (fun e => (threadsOf e.p.mask).all fun t => (e.v 8 t).val.toNat == 0 && !(e.v 8 t).poison && !(e.v 9 t).poison && (List.range 4).all fun k => !(e.v (4 + k) t).poison) = true
    ∧ 0 < ((stFilm.filmDesc 0 0).extractLsb' 96 32).toNat
    ∧ (stFilm.tree 0 63).isSome = true ∧ (stFilm.tree 0 62).isNone = true
    ∧ stFilm.env.any (fun e => clearB e (.tdraw 0 0 4 0 63 0 0 0) && clearB e (.tdraw 0 0 4 9 63 1 0 1) && clearB e (.tupd 0 4 63) && clearB e (.tins 0 0 4 63) && clearB e (.tupd 0 4 62)
        && clearB e (.tcommit 0 0 63) && clearB e (.tver 0 0 63 0) && clearB e (.tver 0 0 63 5)
        && (threadsOf e.p.mask).all fun t => decide ((e.v 5 t).val.toNat < (e.v 6 t).val.toNat) && (stFilm.tree 0 63).any fun tr => decide ((e.v 4 t).val.toNat < tr.leaves)) = true := by decide +kernel
/-- A traversal of both threads: at a candidate, or none. -/
def stRay (c : Option Hit) (kinds : List Nat) (spawn : Nat) : State :=
  at0 { grp0 with travs := match c with | none => [] | some h => [0, 95].map fun t => (t, { Trav.start 0 255 0 0 0 [] [] with cand := some h, due := false }) }
    { Blk.placed' with spawn := spawn, stackKinds := if kinds.isEmpty then [] else [(0, kinds), (95, kinds)] }
def hit0 : Hit := ⟨1, .num 1, .zero false, .zero false, true, 0, 0, ⟨[0, 0, 0], [0, 0, 0], false, 0, 0, false⟩⟩
theorem witness_RayInstructions :
    (stRay none [] 0).env.any (fun e => clearB e (.trace 0 0 16 4 0 0 255) && clearB e (.trace 0 0 16 4 1 31 0) && (threadsOf e.p.mask).all fun t =>
        (SMap.find? e.g.travs t).isNone && (e.pair 4 t) == (0, false) && (List.range 9).all (fun j => !(e.v (16 + j) t).poison) && (SMap.get [] e.b.stackKinds (96 * e.g.gix + t)).isEmpty) = true
    ∧ (stRay (some hit0) [] 0).env.any (fun e => clearB e (.hitc 0 0 16 0) && clearB e (.hita 0 0 0) && clearB e (.hita 0 0 3) && clearB e (.hita 0 0 5) && (threadsOf e.p.mask).all fun t =>
        (SMap.find? e.g.travs t).any fun x => !x.due && x.cand.isSome) = true
    ∧ (∀ ks ∈ [[], [0, 0, 0, 0], [0]], (stRay none ks 4).env.any (fun e => e.p.wait == .none && clearB e (.spawn 0 0 7 16 4 3) && clearB e (.spawn 0 1 0 16 4 0) && (threadsOf e.p.mask).all fun t =>
        SMap.get [] e.b.stackKinds (96 * e.g.gix + t) == ks && (List.range 9).all (fun j => !(e.v (16 + j) t).poison) && (List.range 8).all fun j => !(e.span 4 8 j t).poison) = true)
    ∧ (0 < min 4 4 ∧ ¬4 < min 4 4 ∧ 1 < min 4 4) := by decide +kernel

/-- A traversal whose report is still due: a TRACE abandons it, a HITA of it is answered at the report. -/
theorem witness_RayInstructions_due : let s := at0 { grp0 with travs := [0, 95].map fun t => (t, Trav.start 0 255 0 0 0 [] []) } Blk.placed'
    s.env.any (fun e => clearB e (.trace 0 0 16 4 0 0 255) && (e.issueTrap (.hita 0 0 0)).isNone && (e.issueTrap (.hita 0 0 4)).isNone && (e.issueTrap (.hita 0 0 5)).isNone
      && (threadsOf e.p.mask).all fun t => ((SMap.find? e.g.travs t).any fun x => x.due) && (List.range 9).all (fun j => !(e.v (16 + j) t).poison) && e.pair 4 t == (0, false)) = true := by decide +kernel
/-- Operands of the engines in s16 to s25, records in memory: a format block of unsigned INT8 at 0x4000, a layout of one element at 0x5000. -/
def stEng (ws : List Nat) (b : Blk) (m : Matrix) : State :=
  let s := at0 { grp0 with s := (List.range ws.length).map fun k => (16 + k, ⟨BitVec.ofNat 32 (ws.getD k 0), false⟩) } b
  { s with cores := [(0, { Machine.Core.reset with mx := m })]
           mem := (s.mem.writeLE 0x4000 16 (10 * 2 ^ 60 + 10 * 2 ^ 124)).writeLE 0x5000 32 (1 + 2 ^ 32 + 2 ^ 64 + 2 ^ 128 + 2 ^ 192) }
def mxHeld : Matrix := { Matrix.reset with holder := some 0 }
def slot0 : MSlot := ⟨2, BitVec.ofNat 128 (10 * 2 ^ 60 + 10 * 2 ^ 124), 1, 1, 1, 1, [], [], false, 0⟩
theorem witness_LeasesAndMatrixCommands_leases :
    st0.env.any (fun e => clearB e (.lease 0 0 0 16) && e.b.lease == 0) = true
    ∧ (∀ x ∈ [0, 0xFFFFFFFF], (stEng [x] { Blk.placed' with lease := 2 ^ 24 } Matrix.reset).env.any (fun e => clearB e (.lease 0 0 7 16) && clearB e (.lease 0 1 0 16) && e.b.lease != 0 && !(e.uni 16).poison
        && (e.s.mx 0).holder.isNone && (e.s.mx 0).claim.isNone) = true)
    ∧ (stEng [0] { Blk.placed' with lease := 1 } { Matrix.reset with holder := some 1 }).env.any (fun e => clearB e (.lease 0 0 0 16) && (e.s.mx 0).holder == some 1 && (e.s.mx 0).claim.isNone
        && clearB e (.oprdy 0 0) && clearB e (.mrd 0 0 0 0 0 0) && clearB e (.mwr 0 0 0 15 0 0)) = true
    ∧ (∀ k ∈ [0, 3, 4], (stEng [0] { Blk.placed' with lease := 1 } { mxHeld with bank1 := ⟨[], k⟩ }).env.any (fun e => clearB e (.lrel 0) && clearB e (.oprdy 0 0) && clearB e (.oprdy 0 1) && clearB e (.msync 0 1)
        && (e.s.mx 0).synced 0 1 e.s.seq && e.b.mdones.isEmpty) = true)
    ∧ (let s := after (.bld 0 0 16) (stEng [0x3000, 0, 0x4000, 0, 0x5000, 0, 0, 0] { Blk.placed' with lease := 1 } mxHeld); ({ s with issuer := some (0, 0) } : State).env.any (fun e =>
        clearB e (.msync 0 0) && !(e.s.mx 0).synced 0 0 e.s.seq) = true) := by decide +kernel
theorem witness_LeasesAndMatrixCommands_commands :
    (stEng [0x3000, 0, 0x4000, 0, 0x5000, 0, 0, 0] { Blk.placed' with lease := 1 } mxHeld).env.any (fun e => clearB e (.bld 0 15 16) && e.p.mask != 0
      && (List.range 8).all (fun j => !(e.sreg (16 + j)).poison) && passes (e.readRecord 0x4000 16) (fun f => (halfA (BitVec.ofNat 128 f)).legal false && (halfB (BitVec.ofNat 128 f)).legal true
        && modeOf (halfA (BitVec.ofNat 128 f)) (halfB (BitVec.ofNat 128 f)) != 0)
      && passes (e.readRecord 0x5000 32) fun r => (genElems 0x3000 (BitVec.ofNat 256 r) 8 1).isSome) = true
    ∧ (stEng [0x3000, 0, 0x4000, 0, 0x5000, 0, 0, 0] { Blk.placed' with lease := 1 } { mxHeld with slots := [(15, slot0)] }).env.any (fun e => clearB e (.mmas 0 0 0 1 15 16) && clearB e (.mmas 0 1 1 0 15 16)
      && ((e.s.mx 0).seen 0 15).any (fun x => modeOf (halfA x.fmt) (halfB x.fmt) != 0 && x.k == 1 && x.st != 3 && x.mode != 8 && (halfB x.fmt).spn == 0 && x.n == 1) && !(e.s.mx 0).drain
      && clearB e (.mmaq 0 4 2 0 15 0 0 0) && clearB e (.mmaq 0 4 2 1 15 0 0 0)) = true
    ∧ (stEng [0x3000, 0, 0x5000, 0, 8] { Blk.placed' with lease := 1 } mxHeld).env.any (fun e => clearB e (.memit 0 1 16) && (emitFmt 8).isSome && (e.sreg 20).val == 8
      && passes (e.readRecord 0x5000 32) fun r => (genElems 0x3000 (BitVec.ofNat 256 r) 32 1).isSome) = true
    ∧ (stEng [] { Blk.placed' with lease := 1 } mxHeld).env.any (fun e => clearB e (.mrd 0 0 0 15 63 31) && clearB e (.mrd 0 4 1 0 0 0) && clearB e (.mwr 0 0 0 0 0 0) && clearB e (.mwr 0 4 1 15 31 31)) = true := by
  decide +kernel
/-- One network of one layer, one input and one output, E4M3, in entry 0. -/
def stNet : State :=
  let s := stTable 0 64 (1 + 2 ^ 239 * 1 + 0x4000 * 2 ^ 384 + 0x3000 * 2 ^ 448 + 0x3000 * 2 ^ 320) grp0
  { s.setCtx 0 { s.ctx 0 with tab := BitVec.ofNat 128 (0x200000 * 2 ^ 64 + 2 ^ 51) } with mem := s.mem.writeLE 0x4000 16 (4 * 2 ^ 60 + 8 * 2 ^ 47 + (4 * 2 ^ 60 + 8 * 2 ^ 47) * 2 ^ 64) }
theorem witness_NetworkEvaluations :
    stNet.env.any (fun e => clearB e (.neval 0 0 4 8 0 0) && (threadsOf e.p.mask).all (fun t => !(e.vec 8 t).poison && (e.vec 8 t).val == 0)
      && (e.s.network (e.g.agent e.b) 0).1.any fun x => x.1.k 0 == 1 && x.1.outs == 1) = true
    ∧ (stNet.network ⟨0, 0, 0⟩ 1).1.isNone = true ∧ st0.env.any (fun e => clearB e (.neval 0 0 4 8 0 0) && (e.s.network (e.g.agent e.b) 0).1.isNone) = true := by decide +kernel

/-- One counter at 5. -/
def blkCnt (det : Bool) (ds : List Done) : Blk := { Blk.placed' with counters := [(15, 5)], dones := ds, det := det }
theorem witness_CountersAndEngineCommands_counters :
    stPoison.env.any (fun e => clearB e (.ewait 0 0 2) && (e.uni 2).poison) = true
    ∧ ([5, 6, 0, 0xFFFFFFFF].all (fun n => (at0 (grpS [(2, ⟨n, false⟩)]) (blkCnt false [])).env.any (fun e => clearB e (.ewait 0 15 2) && (e.uni 2) == ⟨n, false⟩ && e.b.dones.isEmpty
        && SMap.get 0 e.b.counters 15 == 5 && clearB e (.ecnt 0 0 15 0) && clearB e (.ecnt 0 63 15 1) && !e.b.det)) = true)
    ∧ (at0 grp0 (blkCnt true [])).env.any (fun e => clearB e (.ecnt 0 0 15 0) && e.b.det) = true := by decide +kernel
/-- A chain of one stage that copies one FP32 element: its one input and its output have the layout at 0x5000. -/
def chain0 : Nat := 0x3000 + 0x3100 * 2 ^ 192 + 0x5000 * 2 ^ 256 + 0x5000 * 2 ^ 448 + (2 ^ 32 + 2 ^ 33) * 2 ^ 768 + 2 ^ 26 * 2 ^ 1024
theorem witness_CountersAndEngineCommands_commands :
    (let s := stEng [0x3000, 0, 0x3100, 0, 0x5000, 0, 0x5000, 0, 0, 1] { Blk.placed' with clsz := 1 } Matrix.reset;
      (copyFmts 0).isSome = true ∧ s.env.any (fun e => clearB e (.cpy 0 0 0 15 16) && (List.range 10).all (fun j => !(e.sreg (16 + j)).poison) && passes (e.readRecord 0x5000 32) fun r =>
        (copyFmts 0).any fun f => (layoutElems 0x3000 r f.1.bits).any (fun l => l.length == 1) && (layoutElems 0x3100 r f.2.bits).any fun l => l.length == 1 && s.apertureOk e.g.blk [24] 0x3100 (l.map fun d => (d.1, 4))) = true)
    ∧ (let s := stEng [0x3000, 0, 0xFFF00000, 0x00FFFFFF, 0x5000, 0, 0x5000, 0, 8, 1] { Blk.placed' with clsz := 1 } Matrix.reset;
      (copyFmts 8).isSome = true ∧ s.env.any (fun e => clearB e (.cpy 0 1 1 0 16) && clearB e (.cpym 0 1 0 0 16) && clearB e (.dec 0 1 0 0 16) && e.b.clsz != 0 && passes (e.readRecord 0x5000 32) fun r =>
        (layoutElems 0x00FFFFFFFFF00000 r 32).any fun l => s.apertureOk e.g.blk [24] 0x00FFFFFFFFF00000 ((l.map fun d => (d.1, 4)) ++ [(0x00FFFFFFFFF00008, 8)])
          && s.apertureOk e.g.blk [0] 0x00FFFFFFFFF00000 ((l.map fun d => (d.1, 4)) ++ [(0x00FFFFFFFFF00008, 8)])) = true)
    ∧ (∀ x ∈ [(0, 1), (255, 1), (0, 256), (0, 0), (0, 257)], (stEng [0x3000, 0, x.1, x.2] Blk.placed' Matrix.reset).env.any (fun e => clearB e (.tblld 0 1 16 3)
        && decide (x.2 = 0 ∨ 256 < x.2 ∨ x.1 + x.2 ≤ (tabKind (e.s.ctx 0) 1).2.1)) = true)
    ∧ (let s := stEng [0x6000, 0] Blk.placed' Matrix.reset;
      let s1 := { s with mem := s.mem.writeLE 0x6000 192 chain0 }
      s1.env.any (fun e => clearB e (.chain 0 7 16) && passes (s1.loadNow (e.g.agent e.b) 0x6000 192) (fun d =>
        let c : Chain := { d := d.1, l := [], orm := 0, rrm := 0, srn := e.g.srSeq 127, key := 0, bid := 0, gix := 0 }
        !d.2 && c.legal && (List.range 4).map c.used == [true, false, false, true] && passes (e.readRecord 0x5000 32) fun r => { c with l := [r, 0, 0, r] }.countOk && c.red == 0)) = true)
    ∧ (stEng [0x6004, 0] Blk.placed' Matrix.reset).env.any (fun e => clearB e (.chain 0 0 16)) = true ∧ stPoison.env.any (fun e => clearB e (.chain 0 0 2) && (e.sreg 2).poison) = true := by decide +kernel
/-- A task in context 0 beside the running one: held, or read from its image where `tk` is none. -/
def stTask (tk : Option Task) (idx : Word) (n : Word) (det : Bool) : State :=
  let s := at0 (grpS [(2, ⟨idx, false⟩), (3, ⟨n, false⟩)]) { Blk.placed' with det := det }
  let s1 := s.setCtx 0 { s.ctx 0 with desc := (s.ctx 0).desc ||| BitVec.ofNat 1024 (2 * 2 ^ 560) }
  match tk with | some k => s1.setTask 0 1 k | none => s1
def task1 (status : Nat) (depcnt : Word) : Option Task := some { Task.placed' with status := status, depcnt := depcnt }
theorem witness_TaskInstructions :
    stPoison.env.any (fun e => clearB e (.tarm 0 2) && (e.uni 2).poison) = true
    ∧ (stTask (task1 1 1) 2 0 false).env.any (fun e => clearB e (.tarm 0 2) && decide ((e.s.ctx e.b.ctx).tcbcnt ≤ (e.uni 2).val.toNat)) = true
    ∧ ([task1 1 1, none].all fun k => [0, 1].all fun (n : Nat) => (stTask k 1 (BitVec.ofNat 32 n) false).env.any fun e => clearB e (.tarm 0 2) && clearB e (.tstat 0 0 2 0) && clearB e (.tstat 0 63 2 3)
        && clearB e (.treset 0 2 3) && !(e.uni 2).poison && !(e.uni 3).poison && decide ((e.uni 2).val.toNat < (e.s.ctx e.b.ctx).tcbcnt) && passes (e.s.tcb 0 1) (fun x => !x.kept)
        && passes (e.s.taskReset 0 1 0 (e.uni 3).val) fun _ => true) = true
    ∧ (stTask (task1 3 1) 1 0 true).env.any (fun e => clearB e (.tstat 0 0 2 0) && e.b.det && clearB e (.treset 0 2 3) && (match e.s.taskReset 0 1 0 (e.uni 3).val with | .error c => c == .task | .ok _ => false)) = true
    ∧ (stTask (task1 1 1) 1 0x80000000 false).env.any (fun e => clearB e (.treset 0 2 3) && (match e.s.taskReset 0 1 0 (e.uni 3).val with | .error c => c == .task | .ok _ => false)) = true
    ∧ st0.env.any (fun e => clearB e (.tmark 0 0xFFFFFFFF) && !e.s.dev.tren) = true
    ∧ ({ st0 with dev := { st0.dev with tren := true, opened := 8, ctxopen := 1, trkinds := 128 } } : State).env.any (fun e => clearB e (.tmark 0 0) && e.s.dev.tren && e.s.dev.openFor 3 0 && e.s.dev.trkinds.testBit 7) = true := by
  decide +kernel
/-- For the clauses on an arm or a reset a held task whose words can be written back, and one whose words cannot. -/
theorem witness_task_states :
    (∀ x ∈ [(1, (2 : Word), 0), (2, 1, 3), (6, 1, 0), (1, 0x80000000, 1)], let k : Task := { Task.placed' with status := x.1, depcnt := x.2.1, overarm := x.2.2 }
      let s := stTask (some k) 1 0 false
      s.mem.latent = [] ∧ s.task 0 1 = some k ∧ passes (s.writeBack 0 1 true k { k with depcnt := k.depcnt - 1, status := 1 }) (fun _ => true) = true)
    ∧ (let s0 := stTask (task1 1 2) 1 0 false; let s := s0.setCtx 0 ((s0.ctx 0).setField 592 64 0x40000000)
      passes (s.tcb 0 1) (fun tk => passes (s.writeBack 0 1 true tk { tk with depcnt := 1 }) fun _ => true) = false) := by decide +kernel
theorem witness_task_signs : (0x80000000 : Word).toInt < 0 ∧ 1 < (2 : Word).toInt ∧ (1 : Word).toInt = 1 ∧ 0 < (0x7FFFFFFF : Word).toInt ∧ (0 : Word).toInt ≤ 0 := by decide
/-- The same of a task no launch holds, its STATUS, DEPCNT and OVERARM in its image. -/
theorem witness_task_images :
    ∀ x ∈ [(0, (2 : Word), 0), (2, 1, 0), (4, 0, 3)], let s0 := stTask none 1 0 false
      let s := { s0 with mem := (s0.mem.writeLE (256 + 48) 4 x.2.1.toNat).writeLE (256 + 64) 4 (x.1 + x.2.2 * 2 ^ 16) }
      passes (s.tcb 0 1) (fun tk => tk.status == x.1 && tk.depcnt == x.2.1 && tk.overarm == x.2.2 && !tk.kept && (s.task 0 1).isNone
        && passes (s.writeBack 0 1 false tk { tk with depcnt := tk.depcnt - 1, overarm := tk.overarm + 1 }) fun _ => true) = true := by decide +kernel
/-- A window of the context, in a pod of two packages. -/
def stFab (ws : List Nat) (fab : List FabOp) (b : Blk) : State :=
  let s := stEng ws b Matrix.reset
  { s with windows := [(255, ⟨0, 0x100000, 4096, true, true, 5, 3, 3⟩)], fab := fab, dev := { s.dev with podcnt := 2, faben := true } }
theorem witness_FabricInstructions :
    (∀ x ∈ [0, 2 ^ 24], (stFab [0x3000, 0, 0, 0, 1, x, 8, 0, 1] [] Blk.placed').env.any (fun e => clearB e (.put 0 16 255) && clearB e (.putf 0 16 255) && (List.range 9).all (fun j => !(e.sreg (16 + j)).poison)
        && (e.s.window 0 255).isSome && decide (1 < 288 ∧ 1 < e.s.dev.podcnt ∧ x ≤ 2 ^ 24)) = true)
    ∧ (stFab [8, 0, 1, 0, 7, 0, 9, 0] [] Blk.placed').env.any (fun e => clearB e (.faar 0 0 16 255) && clearB e (.casr 0 62 16 255) && !e.b.det && decide (8 % 8 = 0)) = true
    ∧ (stFab [0, 0, 0, 0, 2, 0] [] Blk.placed').env.any (fun e => clearB e (.put 0 16 255) && clearB e (.put 0 16 254) && (e.s.window 0 254).isNone && !decide (2 < e.s.dev.podcnt)) = true
    ∧ (∀ x ∈ [3, 4], (stFab [255, 0, x, 0] [] Blk.placed').env.any (fun e => clearB e (.wcnt 0 0 16 0) && clearB e (.wcnt 0 62 16 2) && clearB e (.wwait 0 0 16 18) && clearB e (.wwait 0 1 16 18)
        && (e.s.window 0 (e.uni 16).val.toNat).any (fun y => y.count 1 == 3) && (e.upair 18).1.toNat == x && e.g.fabricFail.isEmpty) = true)
    ∧ (stFab [2 ^ 32 - 1] [] Blk.placed').env.any (fun e => clearB e (.ffence 0 16) && e.s.fab.isEmpty) = true
    ∧ (let s := { after (.put 0 16 255) (stFab [0x3000, 0, 0, 0, 1, 4] [] Blk.placed') with issuer := some (0, 0) }; s.env.any (fun e => clearB e (.ffence 0 20)
        && (e.s.fab.any fun o => o.gk == e.gk && o.pkg == (e.uni 20).val.toNat)) = true) := by decide +kernel

/-! Events: the machine with one of them due. -/

def evAt (s : State) (subject : List Nat) (clock : Nat) : State := { s with subject := subject, clock := clock, issuer := none }
theorem witness_IssueClocks :
    (∃ g, (evAt st0 [0, 0] 0).grp 0 = some g ∧ (g.path 0).ready ≤ 0)
    ∧ (∀ n ∈ [5, 6], SMap.find? (({ evAt st0 [0, 1] 5 with cores := [(0, { Machine.Core.reset with units := [(1, n)] })] } : State).core 0).units 1 = some n) ∧ (5 ≤ 5 ∧ 5 < 6)
    ∧ (2048 ≤ { grp0 with starve := 2048 }.starve ∧ { grp0 with starve := 2047 }.starve < 2048)
    ∧ (16 % 16 = 0 ∧ 15 % 16 ≠ 0 ∧ SMap.wf (16, 16) st0.dev.grants = true) :=
  ⟨some_of (by decide +kernel), by decide +kernel, by decide +kernel, by decide +kernel⟩
/-- All entries LIVE, at different addresses, and one path spilled at clock 0. -/
def grpFull : Grp := { grp0 with paths := (List.range 8).map (fun k => { grp0.path 0 with pc := BitVec.ofNat 64 (placedCode + 4 * k), mask := 1 <<< k }), spilled := [(0, { grp0.path 0 with mask := 1 <<< 95 })] }
/-- A parked path. -/
def grpWait (w : Wait) : Grp := { grp0 with paths := { grp0.path 0 with st := .parked, wait := w } :: List.replicate 7 Path.free }
theorem witness_Paths :
    (stTwo.env.any fun e => e.g.mergePair == some (0, 7) && e.g.paths.length == 8 && e.g.resident) = true ∧ grp0.mergePair = none ∧ grpFull.mergePair = none
    ∧ (∀ w ∈ [0, 1], let g := { grp0 with spilled := [(0, grp0.path 0)], spillRecs := [(0, some w, [])] }; let s := at0 g Blk.placed'
        g.freeEntry = some 1 ∧ (grp0.path 0).st = .live ∧ (grp0.path 0).wait = .none ∧ s.mem.latent = []
        ∧ ((s.frameRead (g.agent Blk.placed') (s.spillVA g Blk.placed' 0) 32).any fun x => x.1 == 0) = true
        ∧ ((at0 g { Blk.placed' with frame := 256 }).frameRead (g.agent Blk.placed') (s.spillVA g { Blk.placed' with frame := 256 } 0) 32).isNone = true)
    ∧ (let s := evAt (at0 { grpFull with spillRecs := [(0, some 0, [])] } Blk.placed') [0] 4096; grpFull.freeEntry = none ∧ 0 + 4096 ≤ s.clock
        ∧ ((grpFull.victim fun _ q => q.st == .parked || q.st == .stopped).or (grpFull.victim fun _ q => q.st == .live)).any (fun i => (s.spillPath 0 (grpFull.path i)).any fun s1 =>
          (s1.frameRead (grpFull.agent Blk.placed') (s.spillVA grpFull Blk.placed' 0) 32).any fun x => x.1 == 0) = true)
    ∧ (let g := { grp0 with spilled := [(0, grp0.path 0)], spillRecs := [(0, none, [])] }; let s := at0 g Blk.placed'
        ((s.frameWrite (g.agent Blk.placed') (s.spillVA g Blk.placed' 0) 32 ((grp0.path 0).record s.clock % 2 ^ 256)).any fun s1 => s1.groups == s.groups) = true)
    ∧ (2 ^ 20 ≤ { grp0 with progress := 2 ^ 20 }.progress ∧ { grp0 with progress := 2 ^ 20 - 1 }.progress < 2 ^ 20)
    ∧ ((grpWait (.mwait 0x1000 1 7 2 63 false)).path 0).st = .parked ∧ ((grpWait (.mwait 0x1000 1 7 2 63 false)).path 0).wait = .mwait 0x1000 1 7 2 63 false
    ∧ (∀ n ∈ [9, 10], (evAt (at0 (grpWait (.ldpoll n 0 ⟨0, 4, false, 0, 0, false, [(0, 0x1000), (95, 0x3FFFFFFC)], [(0, 0), (95, 0)]⟩)) Blk.placed') [0, 0] 9).groups.all (fun x =>
        (match (x.2.path 0).wait with | .ldpoll m _ p => m == n && p.op == 0 && p.eas.all fun y => passes ((at0 grp0 Blk.placed').resolve (x.2.agent Blk.placed') .read y.2 p.bytes) fun _ => true | _ => false)) = true) := by
  decide +kernel
/-- A spilled path that waits, to come back with its record as it was written. -/
theorem witness_Paths_parked : ∀ w ∈ [Wait.join, .mwait 0x1000 1 7 0 63 false, .ldpoll 9 2 ⟨5, 4, false, 0, 0, false, [(0, 0x1000)], [(0, 0)]⟩],
    let q := { grp0.path 0 with st := .parked, wait := w }
    let s0 := at0 { grp0 with spilled := [(0, q)], spillRecs := [(0, none, [])] } Blk.placed'
    let x := q.record 0 % 2 ^ 256
    (s0.blk 0).any (fun b => let va := s0.spillVA grp0 b 0
      let s := { s0 with mem := s0.mem.writeLE va 32 x }
      (s.frameRead (grp0.agent b) va 32).any (fun r => r.1 == x) && s.mem.latent.isEmpty && ({ grp0 with spilled := [(0, q)] } : Grp).freeEntry == some 1) = true := by decide +kernel
theorem witness_ResultsLand :
    (∀ f ∈ [({ ready := 3, mask := 1, vw := [(16383, ⟨1, false⟩)], sw := [(63, ⟨2, true⟩)], pw := [(128 * 7 + 95, true), (0, true)], qw := [(7, true)], xw := [(3, 9)], flags := 1, spec := none } : FixRes)
        , { ready := 3, mask := 1, vw := [], sw := [], pw := [], qw := [], xw := [], flags := 0, spec := some (0x0D, 5) }], ∀ g ∈ [{ grp0 with fixed := [f, { f with ready := 4 }] }],
      g.tidy ∧ g.alive ≠ 0 ∧ f.ready ≤ 3 ∧ 2 < f.ready ∧ f.ready < 4 ∧ (∀ w ∈ f.vw, w.1 < 16384) ∧ f.pw.Pairwise (fun x y => x.1 ≠ y.1))
    ∧ (let s := after (.rcp 0 3 1) stFloat; (s.results[0]?.any fun r => r.gk == 0 && !r.vw.isEmpty && r.vw.all fun w => decide (w.1 < 16384)) = true) := by
  unfold Grp.tidy; decide +kernel
def bldId (s : State) : Nat := ((s.mx 0).cmds.map (·.id)).headD 0
/-- A BLD accepted, and its load begun. -/
def stBld : State := after (.bld 0 15 16) (stEng [0x3000, 0, 0x4000, 0, 0x5000, 0, 0, 0] { Blk.placed' with lease := 1 } mxHeld)
def stLoading : State := after .bldLoadStart (evAt stBld [0, bldId stBld] 0)
/-- No line holds an error not yet found, in the states of the events below. -/
theorem witness_no_latent : ∀ s ∈ [stBld, stLoading, st0], s.mem.latent = [] := by decide +kernel
theorem witness_MatrixEvents_bld :
    (let m := stBld.mx 0; m.cmds.length = 1 ∧ (m.cmds.all fun c => m.cmd c.id == some c && c.kind == .bld && c.st == 0 && (stBld.blk c.bk).isSome && !(m.before c.id).any (·.naming c.bk c.slot)
      && (Matrix.seen { m with cmds := [c] } c.bk c.slot).any fun x => decide (x.units + Matrix.used { m with slots := SMap.del m.slots (16 * c.bk + c.slot) } ≤ 256)) = true)
    ∧ (let m := stLoading.mx 0; m.cmds.length = 1 ∧ (m.cmds.all fun c => c.st == 1 && (SMap.find? m.slots (16 * c.bk + c.slot)).any fun x => passes (stLoading.loadSlot c x) fun _ => true) = true
      ∧ (m.cmds.all fun c => (SMap.find? m.slots (16 * c.bk + c.slot)).any fun x => match stLoading.loadSlot { c with base := 0x40000000 } x with | .error _ => true | .ok _ => false) = true) := by decide +kernel
/-- Chains of events on core 0: a MMAS of one row accepted, its fill complete, its pass begun. -/
def mxId (s : State) : Nat := ((s.mx 0).cmds.map (·.id)).headD 0
def slot1 : MSlot := { slot0 with cols := [alignCol (halfB slot0.fmt) 1 [0] [3] [0]], pos := [0] }
def stMmas : State := after (.mmas 0 0 0 1 15 16) (stEng [0x3000, 0, 0x4000, 0, 0x5000, 0, 0] { Blk.placed' with lease := 1 } { mxHeld with slots := [(15, slot1)] })
def stFilled : State := after .aRowFillComplete (evAt stMmas [0, mxId stMmas] 0)
def stPass : State := after .passStart (evAt stFilled [0] 0)
def stMemit (st until' : Nat) : State :=
  let s := after (.memit 0 1 16) (stEng [0x3000, 0, 0x5000, 0, 8] { Blk.placed' with lease := 1 } mxHeld)
  s.updMx 0 fun m => { m with cmds := m.cmds.map fun c => { c with st := st, until' := until' } }
def stPort (i : Instr) : State :=
  let s := after i (stEng [] { Blk.placed' with lease := 1 } mxHeld)
  s.updMx 0 fun m => { m with cmds := m.cmds.map fun c => { c with st := 3, until' := 0 } }
def stSaved : State := stMmas.updMx 0 fun m => { m with slots := [(15, { slot1 with st := 4 })], cmds := m.cmds.map fun c => { c with st := 5 } }
theorem witness_MatrixEvents_mmas :
    (let m := stMmas.mx 0; !m.imageTaken && m.cmds.length == 1 && m.cmds.all fun c => m.cmd c.id == some c && c.kind == .mmas && c.st == 0 && !c.rdy && (stMmas.blk c.bk).isSome
        && (m.slotOf c).any fun x => x.st != 3 && passes (stMmas.fillRows c x) fun r => r.1.length == 1) = true
    ∧ (∀ k ∈ [2, 4], let m := { stFilled.mx 0 with slots := [(15, { slot1 with st := k })] }; (m.pass.isNone && (m.candidates 0).isEmpty && m.failedMmaq.isNone && m.emptyMmas.isNone && m.nextPort.isNone
        && m.nextMmas.any fun c => c.st == 2 && (m.slotOf c).any fun x => x.st == k) = true)
    ∧ (let m := stPass.mx 0; m.pass.any fun y => !y.2.1 && decide (y.2.2 = 4 ∨ 0 < y.2.2) && m.cmds.all fun c => c.id == y.1 && c.kind == .mmas && c.fail == 0 && c.fill.length == 1
        && (m.slotOf c).any fun x => x.st == 2 && SMap.wf MRow.clear (m.bank c.bank).rows) = true := by decide +kernel
theorem witness_MatrixEvents_ports :
    (let m := (stMemit 3 0).mx 0; m.cmds.length == 1 && m.cmds.all fun c => c.kind == .memit && c.st == 3 && c.until' == 0 && (emitFmt (c.ctl.extractLsb' 0 4).toNat).isSome && SMap.wf MRow.clear (m.bank c.bank).rows) = true
    ∧ (let s := stPort (.mrd 0 4 0 15 63 31); (s.mx 0).cmds.all fun c => c.kind == .mrd && !c.alt && c.aux.getD 3 0 == 8 && c.data.map (·.1) == [0, 95] && (s.grp c.gk).any fun g => g.resident) = true
    ∧ (let s := stPort (.mwr 0 4 0 15 63 31); (s.mx 0).cmds.length == 1 && (s.mx 0).cmds.all fun c => c.kind == .mwr && !c.alt && portPlace c 0 != portPlace c 95 && SMap.wf MRow.clear ((s.mx 0).bank c.bank).rows) = true
    ∧ (let m := stSaved.mx 0; m.cmds.length == 1 && (m.cmds.all fun c => c.kind == .mmas && c.st == 5) && (SMap.find? m.slots 15).any fun x => x.st == 4
        && decide (slotUnits x.mode x.ks x.n + m.used ≤ 256)) = true
    ∧ (({ stSaved with blocks := [(0, { Blk.placed' with lease := 1, frame := 256 })] } : State).openBack 0 0x160000 0x40000).isNone = true
    ∧ ({ mxHeld with drain := true }.drained = true ∧ mxHeld.drained = false) := by
  decide +kernel
/-- The chain of a Chorus tile: a NEVAL with a row in each thread, its window over, its handle loading, loaded, its pass begun and ended. -/
def stNv : State := after (.neval 0 0 4 8 0 0) stNet
def stCl : State := after .chorusWindowClose (evAt stNv [0, 0] 24)
def stHs : State := after .chorusHandleLoadStart (evAt stCl [0, 0, 0] 30)
def stHl : State := after .chorusHandleLoadEnd (evAt stHs [0, 0, 0] 31)
def stTp : State := after .passStart (evAt stHl [0] 32)
def stTe : State := after .passEnd (evAt stTp [0] 100)
/-- An MMAQ of both threads whose pass is done. -/
def stMmaq : State :=
  let s := after (.mmaq 0 4 2 1 15 0 0 0) (stEng [] { Blk.placed' with lease := 1 } { mxHeld with slots := [(15, slot1)] })
  s.updMx 0 fun m => { m with cmds := m.cmds.map fun c => { c with st := 4, until' := 3 } }
theorem witness_NetworkEvents :
    ((stMmaq.mx 0).cmds.any fun c => (stMmaq.mx 0).cmd c.id == some c && c.kind == .mmaq && c.st == 4 && c.fail == 0 && c.qrows.length != 0 && decide (c.aux.getD 1 0 + 1 ≤ 128)
        && c.qrows.all fun q => q.acc.length == 1) = true
    ∧ (SMap.find? (stNv.mx 0).windows 0 = some 24 ∧ (stNv.mx 0).tiles.any (fun t => t.st == 0) = true
      ∧ ({ stNv with groups := stNv.groups.map fun e => (e.1, { e.2 with paths := List.replicate 8 Path.free }) } : State).chorusStuck 0 = true)
    ∧ ((stCl.mx 0).handle 0 0 = none ∧ (stCl.mx 0).tiles.any (fun t => t.ctx == 0 && t.handle == 0 && t.st == 1 && t.rows.all fun r => !stCl.uncleared r.gk (BitVec.ofNat 96 (2 ^ r.thread)) r.neval) = true
      ∧ (stCl.mx 0).slots = [] ∧ (stCl.network ⟨0, 0, 2 ^ 64⟩ 0).1.any (fun x => decide (netUnits x.1 x.2 + (stCl.mx 0).used ≤ 256)) = true)
    ∧ ((stHs.mx 0).handle 0 0).any (fun y => y.st == 1) = true
    ∧ (let r := stHs.network ⟨0, 0, 2 ^ 64⟩ 0; r.1.any fun x => passes (r.2.loadLayers ⟨0, 0, 2 ^ 64⟩ x.1 x.2 x.1.layers 0) fun _ => true) = true
    ∧ (let s := stTp.updMx 0 fun m => { m with handles := m.handles.map fun y => { y with layers := y.layers ++ y.layers } }
      (s.mx 0).pass.any fun q => q.2.1 && decide (q.2.2 ≤ 100) && ((s.mx 0).tile q.1).any fun t => ((s.mx 0).handle t.ctx t.handle).any fun y => decide (t.layer + 1 ≠ y.layers.length) && y.layers[t.layer]?.isSome) = true
    ∧ ((stTe.mx 0).tiles.any fun t => (stTe.mx 0).tile t.id == some t && t.st == 3 && decide (t.ready ≤ 105) && t.rows.all fun r => (stTe.grp r.gk).any (fun g => g.resident && g.alive.getLsbD r.thread)
        && decide (r.dest + r.xs.length ≤ 128)) = true := by decide +kernel
/-- Engine commands accepted: a copy of one FP32 element, a reload of one sampler entry, a chain of one element; a decompression at its second chunk, which has nothing in it. -/
def stCpy : State := after (.cpy 0 0 0 15 16) (stEng [0x3000, 0, 0x3100, 0, 0x5000, 0, 0x5000, 0, 0] { Blk.placed' with clsz := 1 } Matrix.reset)
def stTbl : State := after (.tblld 0 1 16 3) (stEng [0x3000, 0, 0, 1] Blk.placed' Matrix.reset)
def stChain : State := let s := stEng [0x6000, 0] Blk.placed' Matrix.reset; after (.chain 0 7 16) { s with mem := s.mem.writeLE 0x6000 192 chain0 }
def decCmd (src : Nat) : EngCmd := { id := 1, kind := 6, gk := 0, bk := 0, mask := 1, core := 0, counter := 0, args := [src, 0xFFFFFFFFF00000, 1 + 2 ^ 32 + 2 ^ 64 + 2 ^ 128 + 2 ^ 192, 0, 0, 0, 0, 0, 0], left := [(24, 1)], pieces := [], flags := 0, cause := 0 }
def firstCmd (s : State) (f : EngCmd → Bool) : Bool := s.ecmds.length == 1 && s.ecmds.all fun c => s.ecmd c.id == some c && f c
theorem witness_EngineEvents :
    firstCmd stCpy (fun c => c.kind == 4 && c.left == [(24, 0)] && (copyFmts (c.arg 4)).any fun f =>
      passes (stCpy.copyRead c f.1 f.2 0) (fun _ => true) && passes (stCpy.copyPiece c f.1 f.2 0) (fun x => x.1.id == c.id && x.2.1.length == 1
        && (x.2.2.arrivals c.bk 24 (x.2.2.packElems (fun va => stCpy.destParts c.bk 24 va 1) f.2.bits ((((layoutElems (c.arg 1) (c.arg 3) f.2.bits).getD []).drop 0).zip x.2.1)) false none).1.isNone)
      && !passes (stCpy.copyPiece { c with args := 0x40000000 :: c.args.drop 1 } f.1 f.2 0) (fun _ => true)
      && passes (stCpy.copyPiece { c with pieces := [(0, [(5, false)])] } f.1 f.2 0) fun x => x.2.1 == [(5, false)]) = true
    ∧ (stCpy.bars = [] ∧ ({ stCpy with ecmds := stCpy.ecmds.map fun c => { c with left := [] } } : State).ecmds.length = 1)
    ∧ ([0x3000, 0x40000000].all fun src => let s := { stCpy with ecmds := [decCmd src] }; firstCmd s fun c => s.tableReady c && !s.portTaken c
        && passes (s.decChunk c (c.arg 8) (min 4096 (((layoutElems (c.arg 1) (c.arg 2) 8).getD []).length - 4096 * 1))) (fun x => (x.2.2.decArrive c 1 x.1).1.isNone) == (src == 0x3000)) = true
    ∧ firstCmd stTbl (fun c => c.kind == 8 && c.arg 0 == 1 && !stTbl.uncleared c.gk c.mask c.id && passes (stTbl.tableImage c).1 (fun _ => true)
        && !passes (stTbl.tableImage { c with args := 1 :: 0x40000000 :: c.args.drop 2 }).1 fun _ => true) = true
    ∧ firstCmd stChain (fun c => let ch := c.chain; let ag := stChain.blockAgent c.bk; c.left == [(0, 0)] && ch.rlen == 1 && passes (stChain.chainParams ag ch c 0 0) fun x =>
        passes (x.2.2.chainElem ag ch 0 x.1 x.2.1) fun y => passes (y.2.2.chainResult ag ch 0 [y.1] x.1 x.2.1) fun _ => true) = true
    ∧ (stCpy.blk 0).any (fun b => SMap.wf 0 b.counters) = true := by decide +kernel
/-- A traversal of thread 0 under way, its ray at a root of nothing, or a POP of an empty stack. -/
def stTrav (t : Trav) : State := { at0 { grp0 with travs := [(0, t)] } Blk.placed' with subject := [0, 0] }
def trav0 : Trav := Trav.start 0 255 0 5 8 [0, 0, 0, 0, 0, 0x3F800000, 0, 0x41200000, 0] []
def rec0 : FilmRec := ⟨0, 0, 0, 0, 0, 0, 0, 0, 0, [0x3F800000], 0x3F800000, 0, 0⟩
/-- The film's record in the buffer, its block retired. -/
def stApply : State :=
  let s := { stFilm with films := [{ rec0 with place := 1 }] }
  match s.task 0 0 with | some t => s.setTask 0 0 { t with pfx := 1 } | none => s
def req0 (kind : Nat) : TreeReq := ⟨1, kind, 0, 1, 0, 0, 0, 63, 0, 0, [0, 0x3F800000, 0x3F800000], 0⟩
theorem witness_RayFilmTreeEvents :
    (∀ t ∈ [{ trav0 with empty := true, todo := [] }, { trav0 with due := false }, trav0], ((stTrav t).grp 0).any (fun g => (SMap.find? g.travs 0) == some t && g.resident && g.alive.getLsbD 0
        && decide (t.dest + t.words.length ≤ 128) && t.hita.isEmpty && t.pop.isEmpty && t.fault == 0 && t.cand.isNone) = true)
    ∧ (trav0.due = true ∧ trav0.todo.length = 1 ∧ (stTrav trav0).uncleared 0 1 5 = false)
    ∧ ({ stFilm with films := [rec0] } : State).outbox 0 = [rec0] ∧ (({ stFilm with blocks := [(0, { Blk.placed' with bid := 1 })] } : State).lowestBlock 0 0) = some 1
    ∧ (stApply.nextFilm 0 0).any (fun r => r.vals.length == 1 && passes (stApply.plainParts 0 .atomic (((stApply.filmDesc 0 0).extractLsb' 0 64).toNat + 64 * r.pix) 40) fun ps => ps.length == 1
        && ps.all fun p => p.len == 40 && p.home % 64 == 0 && !stApply.mem.anyPoison p.home 40 && !stApply.inOutbox p.home && !stApply.inSpawn p.home) = true
    ∧ ((stApply.filmDesc 0 0).extractLsb' 0 64).toNat % 64 = 0 ∧ stApply.mem.wf = true
    ∧ (∀ k ∈ [0, 1, 2, 3, 4], let s := { stFilm with treeReqs := [req0 k] }; s.uncleared 0 1 1 = false ∧ s.unsettled 0 1 1 = false ∧ (s.tree 0 63).isSome = true ∧ (s.tree 0 62).isNone = true)
    ∧ (let t : Tree := ⟨1, 0, 0, 0, [], [req0 1]⟩; t.holds (req0 1) = true ∧ Tree.holds { t with waiting := [] } (req0 0) = false) := by decide +kernel
/-- A film buffer can be full. -/
theorem witness_full_film_buffer (r : FilmRec) (h : r.place = 1) : ((List.replicate filmCapacity r).filter fun x => x.die == r.die && x.place == 1).length = filmCapacity := by
  simp [h]
/-- Fabric operations under way: a put of four bytes at a window offset, to this package (0) or to package 1. -/
def fab0 (kind pkg stage : Nat) (left : List Nat) : FabOp :=
  { id := 9, kind := kind, gk := 0, mask := 1, since := 0, ctx := 0, core := 0, bk := 0, win := 255, pkg := pkg, src := 0x3000, off := 8, len := 4, a := 16, b := 7, dest := 2, stage := stage, left := left, cause := 0 }
def stOp (o : FabOp) : State := let s := stFab [] [o] Blk.placed'; { s with dev := { s.dev with ports := ~~~0 } }
def barsAt (w : Nat) : State := let s := stBar w 0 Blk.placed'; { s with bars := [(slicePA 0 0, 1)] }
/-- Block 0 in a gang, its one group waiting at a scope. -/
def stHbar (scope : Nat) (cnt : Nat) : State :=
  let s := at0 (grpWait (.hbar scope 0)) { Blk.placed' with gang := true, hbarArr := [(scope, [0])] }
  { s with dev := { s.dev with pod := [(0, cnt, 1, 0), (0, 2, 0, 0)] } }
theorem witness_FabricEvents_puts :
    (∀ k ∈ [0, 1], ∀ p ∈ [0, 1], let o := fab0 k p 0 [0]; let s := stOp o; s.mem.latent = [] ∧ s.fabFind 9 = some o ∧ s.fabReady o 0 = true ∧ flitSpan o.off o.len 0 = (0, 4) ∧ 0 < o.len
      ∧ passes (s.resolve (s.blockAgent o.bk) .read (o.src + 0) 4) (fun _ => true) = true ∧ passes (s.sourceParts o) (fun _ => true) = true
      ∧ passes (s.putJudge o) (fun x => x.1.length == 1 && x.2.1.length == 1 - p && x.2.2.length == (if k = 1 ∧ p = 0 then 1 else 0)) = true)
    ∧ (let o := { fab0 0 0 0 [0] with src := 0x40000000 }; let s := stOp o; s.fabFind 9 = some o ∧ passes (s.resolve (s.blockAgent o.bk) .read o.src o.len) (fun _ => true) = false
        ∧ passes (s.putJudge o) (fun _ => true) = false ∧ passes (s.putJudge { o with stage := 1 }) (fun _ => true) = true)
    ∧ (∀ x ∈ [(4095, none), (8, some 4093)], let s := stOp (fab0 0 0 0 []); s.dev.putsIn = [] ∧ passes (s.putTarget 255 x.1 4 x.2) (fun _ => true) = false
        ∧ (s.putInOf 3 255 x.1 4 x.2).refused = true)
    ∧ (let s := stOp (fab0 1 0 1 []); s.linkHeld 255 = false ∧ (SMap.find? s.windows 255).isSome = true ∧ passes (s.putTarget 255 4092 4 (some 4092)) (fun x => x.1.length == 1 && x.2.length == 1) = true)
    ∧ ({ stOp (fab0 0 0 0 [0]) with dev := { (stOp (fab0 0 0 0 [0])).dev with busy := some (4, 0, true) } } : State).linkHeld 255 = true
    ∧ (∀ p ∈ [0, 1], let o := fab0 2 p 0 [0]; let s := stOp o; s.fabReady o 0 = true ∧ passes (s.fabAtomic o.win o.off o.kind o.a o.b) (fun _ => true) = true
        ∧ (match s.fabAtomic o.win 4096 o.kind o.a o.b with | .error c => c.code != 0 | .ok _ => false) = true)
    ∧ ((stOp (fab0 0 0 2 [])).grp 0).isSome = true ∧ ((stOp (fab0 0 1 1 [])).fabFind 9).isSome = true ∧ (stOp (fab0 0 1 1 [0])).dev.portFor 17 5 = some 4 := by decide +kernel
theorem witness_FabricEvents_barriers :
    ((barsAt (barWord 2 false 3 1 false)).bars[0]? = some (slicePA 0 0, 1) ∧ barKind ((barsAt (barWord 2 false 3 1 false)).mem.readLE (slicePA 0 0) 8) = 2
      ∧ (barsAt (barWord 2 false 3 1 false)).mem.latent = [] ∧ barKind ((barsAt 0).mem.readLE (slicePA 0 0) 8) ≠ 2)
    ∧ (∀ c ∈ [0, 6], let s := stHbar c 2; (s.blk 0).any (fun b => s.hbarMet b c) = true) ∧ ((stHbar 0 2).blk 0).any (fun b => (stHbar 0 2).hbarMet b 1) = false
    ∧ (stHbar 6 1).dev.podNow 0 = [(1, 1), (2, 0)] ∧ (stHbar 6 2).podBlocks 0 = [0] ∧ ((stHbar 6 2).dev.podNow 1).all (fun a => a.2 != st0.dev.pkgid) = true ∧ (stHbar 6 2).dev.podPhaseOf 0 = SMap.get 0 (stHbar 6 2).dev.podSeen 1 ∧ st0.podBlocks 0 = []
    ∧ (stHbar 6 2).dev.podNow 1 = [] ∧ ((stHbar 6 2).ctx 0).pgcnt = 0 := by decide +kernel
/-- Three waiters of a pod barrier of two packages: with both arrivals as counted, one that counts otherwise, and this package's alone. -/
def stPod (pod : List (Nat × Nat × Nat × Nat)) : State :=
  let s := stHbar 6 2
  { s.setCtx 0 { s.ctx 0 with podgrp := 0x20000 } with dev := { s.dev with pod := pod } }
theorem witness_FabricEvents_pod : let counts := fun (s : State) => (s.podBlocks 0).filterMap fun k => (s.blk k).map fun b => (s.ctx b.ctx).pgcnt
    counts (stPod []) = [2]
    ∧ (∀ a ∈ (stPod [(0, 2, 1, 0), (0, 2, 0, 0)]).dev.podNow 0, a.1 = 2) ∧ (∃ a ∈ (stPod [(0, 2, 1, 0), (0, 2, 0, 0)]).dev.podNow 0, a.2 = st0.dev.pkgid ∧ a.1 ≤ 2)
    ∧ (∃ a ∈ (stPod [(0, 3, 1, 0)]).dev.podNow 0, a.1 ≠ 2) ∧ (stPod [(0, 2, 0, 0)]).dev.podNow 0 = [(2, 0)] := by decide +kernel
/-- A record in a core's coalescer, in a context's list, in the error log's hold; a walk that is done; a line with an error. -/
def rec1 (kind : Nat) : Rec := { recOf grp0 Blk.placed' with kind := kind, cause := 6, tag := 3 }
def walk0 (a : WalkEnd) : Walk := { die := 0, ctx := 0, page := 7, cores := [0, 5], st := 2, tables := [], answer := a }
def stErr (k : Nat) : State :=
  let s := evAt st0 [] 0
  { s with mem := { s.mem with latent := SMap.set 0 [] (scrubLine 0) k } }
/-- The error log is full, with a record of class 1 and one of class 2 held; a walk that met a table entry; a stop that merges into an open record. -/
theorem witness_RecordsAndStorageErrors_more :
    (let s := { evAt st0 [] 0 with errlog := { st0.errlog with prod := 64, cons := 0, held := [BitVec.ofNat 512 (2 ^ 424), BitVec.ofNat 512 (2 * 2 ^ 424)] } };
      s.errlog.prod - s.errlog.cons = 64 ∧ s.errlog.held.map errClass = [1, 2] ∧ s.errlog.cedrop ≤ 65535 ∧ s.errlog.held.length < 4096)
    ∧ (∀ a ∈ [WalkEnd.leaf 0x5F (2 ^ 30), .pageFault], let s := { evAt st0 [0, 0, 7] 0 with walks := [{ walk0 a with tables := [(30, 0x101), (39, 0x201)] }] };
        (s.walks.find? fun w => w.die == 0 && w.ctx == 0 && w.page == 7 && w.st == 2).any (fun w => w.tables.length == 2 && decide ((s.tlb.filter fun x => x.kind == 2 && x.unit == 0).length + w.tables.length ≤ 4096
          ∧ (w.tables.map (·.1)).Nodup)) = true)
    ∧ (let r : Rec := { recOf grp0 Blk.placed' with kind := 1, cause := 0x0B, mask := grp0.alive, tag := st0.seq }
      let s := { evAt st0 [2, 0] 0 with cores := [(0, { Machine.Core.reset with coalescer := [(0, { r with tag := 3 })] })] };
      ((s.core 0).coalescer.find? fun o => o.2.merges r).any (fun o => o.2.tag == 3) = true ∧ ((evAt st0 [2, 0] 0).core 0).coalescer = [] ∧ s.errlog.held.length < 4096)
    ∧ (stErr 2).errlog.prod - (stErr 2).errlog.cons ≠ 64 ∧ (stErr 2).errlog.held = [] ∧ State.reset.dev.ready = false ∧ st0.dev.ready = true := by decide +kernel
theorem witness_RecordsAndStorageErrors :
    (([255, 256].all fun n => let s := { evAt st0 [0] n with cores := [(0, { Machine.Core.reset with coalescer := [(0, rec1 1)] })] }; (s.core 0).coalescer.length == 1) = true)
    ∧ (∀ b ∈ [0x1000, 0x40000000], let s := { (evAt st0 [0] 0).setCtx 0 (((st0.ctx 0).setField 864 64 b).setField 936 8 4) with records := [rec1 2] }
        let c := s.ctx 0; (c.evprod + 2 ^ 32 - c.evcons) % 2 ^ 32 ≠ 2 ^ c.evlog2
        ∧ passes ({ s with records := [] }.storeNow (homeAgent 0) c.evbase 64 (rec1 2).bits.toNat false) (fun _ => true) = (b == 0x1000))
    ∧ (let c := ((st0.ctx 0).setField 936 8 4).setField 992 32 16; (c.evprod + 2 ^ 32 - c.evcons) % 2 ^ 32 = 2 ^ c.evlog2 ∧ (rec1 2).kind = 2 ∧ (rec1 1).kind ≠ 2 ∧ (rec1 1).kind ≠ 3)
    ∧ (SMap.find? [(5, (10, true))] 5 = some (10, true) ∧ st0.errlog.prod - st0.errlog.cons ≠ 64)
    ∧ (∀ a ∈ [WalkEnd.leaf 0x5F (2 ^ 30), .leaf 0x15F (2 ^ 30), .pageFault], let s := { evAt st0 [0, 0, 7] 0 with walks := [walk0 a] }; (s.walks.find? fun w => w.die == 0 && w.ctx == 0 && w.page == 7 && w.st == 2) = some (walk0 a))
    ∧ (passes (leafOf 0x5F (2 ^ 30)) (fun _ => true) = true ∧ passes (leafOf 0x15F (2 ^ 30)) (fun _ => true) = false)
    ∧ (∀ k ∈ [0, 1, 2], SMap.wf 0 (stErr k).mem.latent = true ∧ SMap.wf false (stErr k).mem.poison = true ∧ SMap.get 0 (stErr k).mem.latent (scrubLine 0) = k ∧ SMap.get false (stErr k).mem.poison (scrubLine 0) = false)
    ∧ (st0.grp 0 = some grp0 ∧ (st0.blk grp0.blk).isSome = true ∧ grp0.alive ≠ 0 ∧ st0.fatal = false) := by decide +kernel
/-- A queued task of one block of one group in an otherwise empty machine. -/
def stQueued : State :=
  let tk := { Task.placed' with status := 2, placed := 0, queued := 0 }
  let s := { (evAt st0 [] 1).setTask 0 0 tk with groups := [], blocks := [] }
  s.setCtx 0 { (((s.ctx 0).setField 784 16 2).setField 504 8 1).setField 512 48 1 with frames := [] }
/-- Two tasks of one context queued, the first blocked since clock 0. -/
def stBehind (clock : Nat) (r0 r1 : Option Nat) : State :=
  let s := evAt stQueued [0, 0] clock
  let tk := { Task.placed' with status := 2, placed := 0 }
  (s.setTask 0 0 { tk with reserving := r0 }).setTask 0 1 { tk with queued := 1, reserving := r1 }
theorem witness_PlacementEvents_turns :
    (let s := stQueued; s.turnOpen = false ∧ s.nextTurn = some 0 ∧ s.placeable 0 = some 0 ∧ (s.tryPlace 0 0).isSome = true ∧ s.freeFrame 0 = some 0
      ∧ (s.task 0 0).any (fun t => t.status == 2 && t.ending == 0 && !t.kept) = true)
    ∧ (let s := { stQueued with turn := (0, 0, 1) }; s.turnOpen = true ∧ s.leaving = [] ∧ s.placeable 0 = some 0)
    ∧ (let s := evAt st0 [0] 0; s.turnOpen = false ∧ s.nextTurn = none ∧ s.placeable 0 = none) := by decide +kernel
theorem witness_PlacementEvents_reserving :
    (∀ n ∈ [65535, 65536], let s := stBehind n none none; (s.inOrder 0).map (·.1) = [taskKey 0 0, taskKey 0 1] ∧ (s.queue 0) = [0, 1]
        ∧ (s.task 0 0).any (fun t => t.status == 2 && t.ending == 0 && decide (t.placed < t.nblk) && t.reserving.isNone && (decide (t.since + 65536 ≤ s.clock) == (n == 65536))) = true)
    ∧ (stBehind 65536 none (some 5)).queue 0 = [1] ∧ (stBehind 65536 (some 7) (some 5)).queue 0 = [0]
    ∧ ((evAt stQueued [0, 0] 65536).inOrder 0).map (·.1) = [taskKey 0 0] ∧ ((stBehind 65536 none none).tryPlace 0 0).isSome = true
    ∧ (let b := { Blk.placed' with quantum := 1, used := 1023 }; (at0 grp0 b).blk 0 = some b ∧ 0 < b.quantum ∧ b.used + 1 = b.quantum * 1024) := by decide +kernel
/-- A resident group of a context being suspended; the group out, its context running again, and its area holding what it saved there. -/
def stLeave (g : Grp) : State := let s := evAt (at0 g { Blk.placed' with regs := 0 }) [0] 0; { s with dev := { s.dev with busy := some (4, 0, true) } }
def stOut (frame : Nat) : State := evAt (at0 { grp0 with resident := false } { Blk.placed' with regs := 0, evicted := true, frame := frame, images := [(grp0.restAt, 0)] }) [0] 0
theorem witness_PlacementEvents_evict :
    (let s := stLeave grp0; grp0.resident = true ∧ s.suspending 0 = true ∧ grp0.settled = true ∧ (s.evictGroup s.seq 0).isSome = true)
    ∧ ({ grp0 with spillRecs := [(0, none, [])] }.settled = false)
    ∧ ((evAt st0 [0] 0).suspending 0 = false ∧ (evAt st0 [0] 0).mayReturn 0 = false)
    ∧ (let s := stOut 0; s.mayReturn 0 = true ∧ ((s.grp 0).any fun g => (s.blk 0).any fun b => (s.areaBack g b).any fun r => r.1 && r.2.grp 0 == some g) = true)
    ∧ (let s := stOut 256; s.mayReturn 0 = true ∧ ((s.grp 0).any fun g => (s.blk 0).any fun b => (s.areaBack g b).isNone) = true) := by decide +kernel
/-- A block whose groups have exited, its task held; the task when all its blocks have retired. The TCB table at `base`. -/
def stRetires (base : Nat) (tk : Task) (s : State) : State := (s.setCtx 0 ((s.ctx 0).setField 592 64 base)).setTask 0 0 tk
def stEmptied (base : Nat) : State := stRetires base Task.placed' { evAt st0 [0] 0 with groups := [(0, { grp0 with alive := 0 })] }
def stMet (base : Nat) : State := stRetires base { Task.placed' with retired := 1 } (evAt st0 [0, 0] 0)
theorem witness_PlacementEvents_retire :
    (∀ base ∈ [0, 0x40000000], let s := stEmptied base; s.mayRetire 0 = true ∧ SMap.sorted s.blocks = true ∧ (s.blk 0).any (fun b => b.clsz == 0 && (s.leftFailures b).isEmpty) = true
      ∧ (s.task 0 0).any (fun t => !t.kept && t.status == 3 && t.ending == 0 && passes (s.writeBack 0 0 true t { t with retired := 1, done := [0], pfx := 1 }) (fun _ => true) == (base == 0)) = true)
    ∧ (evAt st0 [0] 0).mayRetire 0 = false
    ∧ (∀ base ∈ [0, 0x40000000], let s := stMet base; s.taskMet 0 0 = true ∧ SMap.sorted s.tasks = true
      ∧ (s.task 0 0).any (fun t => !t.kept && t.succ == [] && passes (s.writeBack 0 0 true t { t with status := 4 }) (fun _ => true) == (base == 0)) = true)
    ∧ (evAt st0 [0, 0] 0).taskMet 0 0 = false
    ∧ (let s := { evAt st0 [] 65536 with cores := [(0, { Machine.Core.reset with issuedIn := 1 })] }; s.clock % 65536 = 0 ∧ s.cores.any (fun e => e.2.issuedIn != 0 || e.2.crowdedIn != 0) = true) := by decide +kernel
/-- A migratable block chosen to move from core 0 to core 1. -/
def stLeap (g : Grp) : State :=
  let s := evAt (at0 g { Blk.placed' with migratable := true }) [0, 1] 0
  let c := (s.ctx 0).setField 512 48 1
  { s.setCtx 0 { c with desc := c.desc ||| 8 } with dev := { s.dev with leap := [(0, 1)] }, mem := { s.mem with latent := [] } }
theorem witness_PlacementEvents_leap :
    (∀ g ∈ [grp0, { grp0 with spillRecs := [(0, none, [])] }], let s := stLeap g; (0, 1) ∈ s.dev.leap ∧ (s.blk 0).any (fun b => s.movable 0 b && s.fitsOn b 1 && (s.mayMove 0 b == g.spillRecs.isEmpty) && (s.freeBase [1] b.fsize == some 0) && b.core != 1 && decide (b.fbase + b.fsize ≤ 2 ^ 20)) = true
      ∧ (s.mx 0).slots = [] ∧ (s.mx 0).prev = none)
    ∧ (let s := (stLeap grp0).updMx 0 fun m => { m with claim := some 0 }; (s.mx 0).claim = some 0 ∧ (s.mx 0).prev = none ∧ (s.mx 1).claim = none ∧ (s.blk 0).any (fun b => s.mayMove 0 b) = true)
    ∧ (evAt st0 [0, 1] 0).dev.leap.contains (0, 1) = false ∧ (stLeap grp0).mem.wf = true
    ∧ (∀ k ∈ [1, 2], ((after (.st 0 0 2 2 0 0 0 0) (stOne 0xFFF00000 0x00FFFFFF)).reqs.any fun r => r.core == k - 1 && r.parts.any fun p => decide (slicePA 0 0 ≤ p.home ∧ p.home < slicePA 0 0 + 8192)) = (k == 1)) := by decide +kernel
/-- A command in progress in context 0, with its arguments. -/
def stCmd (s : State) (code : Nat) (begun : Bool) (args : List Nat) : State :=
  { evAt s [] 0 with dev := { s.dev with busy := some (code, 0, begun), cargs := args.map (BitVec.ofNat 64), faben := true } }
/-- A context CREATE takes, SUSP or not. -/
def ctxFor (valid susp : Bool) : Ctx :=
  let c := ((((((st0.ctx 0).setField 936 8 4).setField 784 16 1).setField 656 64 0x20000).setField 560 32 1).setField 512 48 1).setField 504 8 1
  { c with desc := (c.desc &&& ~~~3) ||| (if valid then 1 else 0) ||| (if susp then 2 else 0) }
/-- A path stopped with STOPTAG 3. -/
def grpStop (tag : Nat) : Grp := { grp0 with paths := { grp0.path 0 with st := .stopped, wait := .escalated tag } :: List.replicate 7 Path.free }
theorem witness_CommandResults :
    (let s := stCmd st0 1 false []; s.dev.ready = true ∧ s.fatal = false ∧ (s.ctx 0).valid = true ∧ ({ s.ctx 0 with desc := 0 } : Ctx).createOk = false)
    ∧ (let s := stCmd (st0.setCtx 0 (ctxFor false false)) 1 false []; (s.ctx 0).valid = false ∧ (s.ctx 0).createOk = true)
    ∧ ((State.reset).dev.ready = false)
    ∧ (((st0.setCtx 0 { (st0.ctx 0).setField 560 32 0 with frames := [] }).ctx 0).tcbcnt = 0)
    ∧ (let s := stCmd { st0 with blocks := [] } 2 true []; let s1 := s.setCtx 0 { s.ctx 0 with frames := [] }
        (s1.blocks.all fun e => e.2.ctx != 0) = true ∧ (s1.ctx 0).frames = [] ∧ ((s1.windowsOf 0).all fun e => e.2.issued == e.2.acked) = true)
    ∧ ((stCmd st0 2 true []).blocks.any (fun e => e.2.ctx == 0) = true)
    ∧ ((evAt st0 [0, 0, 7] 0).walks = [] ∧ ({ evAt st0 [0, 0, 7] 0 with walks := [walk0 .pageFault] } : State).walks.map (·.ctx) = [0])
    ∧ ((ctxFor true false).susp = false ∧ (ctxFor true true).susp = true ∧ (ctxFor true true).valid = true)
    ∧ ((stCmd st0 4 true []).quiet 0 = false)
    ∧ (let s := stCmd { st0 with groups := [], blocks := [] } 4 true []; s.quiet 0 = true ∧ (s.saveBlocks (s.ctxBlocks 0)).1 = true)
    ∧ (let s := stCmd (at0 { grp0 with resident := false } { Blk.placed' with frame := 256 }) 4 true []; s.quiet 0 = true ∧ (s.saveBlocks (s.ctxBlocks 0)).1 = false)
    ∧ (let s := stCmd ((at0 { grp0 with resident := false } { Blk.placed' with suspended := true }).setCtx 0 (ctxFor true true)) 5 false [];
        (s.ctx 0).susp = true ∧ ((s.blocks.filter fun (e : Nat × Blk) => e.2.ctx == 0 && e.2.suspended).find? (fun e => (s.together e.2).all fun x => s.roomFor x.2)).isSome = true
        ∧ (st0.blocks.all fun e => !e.2.suspended) = true)
    ∧ (let s := stCmd (at0 (grpStop 3) Blk.placed') 6 false [0, 3, 0]; s.stoppedGroups 0 0 3 = [(0, grpStop 3)] ∧ s.grp 0 = some (grpStop 3) ∧ ((grpStop 3).path 0).stoppedBy 3 = true
        ∧ ((grpStop 3).paths.all fun p => !p.controlStop) = true ∧ (grpStop 3).spilled = [] ∧ s.stoppedGroups 0 0 4 = [] ∧ (3 : BitVec 64).toNat = 3
        ∧ (let s1 := { s with stopRecs := [(3, recOf grp0 Blk.placed')] }; List.find? (fun (e : Nat × Rec) => e.1 % 2 ^ 32 == (s.dev.carg 1).toNat) s1.stopRecs = some (3, recOf grp0 Blk.placed')))
    ∧ (let s := stCmd (st0.setCtx 0 (ctxFor true false)) 8 false [0]; (s.ctx 0).tcbcnt = 1 ∧ (s.dev.carg 0).toNat = 0 ∧ ((stCmd st0 8 false [1]).dev.carg 0).toNat = 1) := by decide +kernel
/-- The TCB of task 0 as its image with this word at byte 64 reads, no launch of it held. -/
def stImage (w : Nat) : State := { evAt st0 [] 0 with tasks := [], groups := [], blocks := [], mem := st0.mem.writeLE 64 4 w }
theorem witness_CommandResults_cancel :
    (∀ s ∈ [stQueued, stImage 0, stImage 1, stImage 3], passes (s.tcb 0 0) (fun t => !t.kept && (decide (t.status ≤ 2) || (t.status == 3 && (s.task 0 0).isNone))
        && passes (s.writeBack 0 0 (s.task 0 0).isSome t { t with status := 6 }) fun s1 => SMap.sorted s1.tasks) = true)
    ∧ passes (st0.tcb 0 0) (fun t => t.status == 3 && t.ending == 0 && !t.kept && (st0.task 0 0).isSome && !(st0.taskBlocks 0 0).isEmpty) = true
    ∧ (let s := { st0 with groups := [], blocks := [] }; passes (s.tcb 0 0) (fun t => t.status == 3 && t.ending == 0 && !t.kept && (s.taskBlocks 0 0).isEmpty && s.films.isEmpty && s.dev.stopWait.isEmpty
        && passes (({ s.unbindFilms 0 0 with tasks := SMap.del (SMap.put s.tasks (taskKey 0 0) { t with ending := 2 }) (taskKey 0 0) } : State).writeBack 0 0 true { t with ending := 2 }
          { t with ending := 2, status := 6 }) fun _ => true) = true)
    ∧ (∀ n ∈ [4, 5, 6], passes ((stImage n).tcb 0 0) (fun t => t.status == n) = true)
    ∧ passes ((st0.setTask 0 0 { Task.placed' with ending := 1 }).tcb 0 0) (fun t => t.status == 3 && t.ending != 0 && !t.kept) = true
    ∧ (let s := (stImage 0).setCtx 0 ((st0.ctx 0).setField 592 64 0x40000000); passes (s.tcb 0 0) (fun _ => true) = false) := by decide +kernel
theorem witness_CommandResults_trees_windows :
    (let s := stCmd (stTable (0x89000 + 64 * 63) 64 (2 ^ 112) grp0) 9 false [63]; treeConfigOk (BitVec.ofNat 512 (s.tabRange 0 (0x89000 + 64 * 63) 64).1) = true ∧ (s.dev.carg 0).toNat = 63
        ∧ treeConfigOk (BitVec.ofNat 512 (s.tabRange 0 (0x89000 + 64 * 62) 64).1) = false)
    ∧ (let s := stCmd (stTable (0x89000 + 64 * 63) 64 (2 ^ 112 + 0x3000 * 2 ^ 384 + 0x3100 * 2 ^ 320) grp0) 9 true [63]; (s.treeBuild 0 63).1.isSome = true ∧ (s.treeBuild 0 62).1.isNone = true ∧ (s.treeBuild 0 64).1.isNone = true)
    ∧ (let s := stCmd st0 11 false [255, 0x1000, 64, 3]; s.dev.faben = true ∧ (s.dev.carg 0).toNat = 255 ∧ (s.dev.carg 1).toNat % 64 = 0 ∧ (s.dev.carg 2).toNat = 64 ∧ (s.dev.carg 3).toNat = 3 ∧ SMap.find? s.windows 255 = none)
    ∧ (∀ c ∈ [0, 1], ∀ n ∈ [4, 5], let w : Window := ⟨c, 0x1000, 64, true, true, 5, n, 0⟩; let s := { stCmd st0 12 true [255] with windows := [(255, w)] }
        SMap.find? s.windows 255 = some w ∧ (s.window 0 255 = if c = 0 then some w else none) ∧ ((w.issued = w.acked) ↔ n = 5) ∧ SMap.sorted s.windows = true) := by decide +kernel
/-- A debug command in progress. -/
def stDbg (s : State) (code : Nat) (args : List Nat) (f : Dev → Dev) : State := { evAt s [] 0 with dev := f { s.dev with dbusy := some code, dcargs := args.map (BitVec.ofNat 64) } }
def grpHeld : Grp := { grp0 with paths := { grp0.path 0 with st := .stopped, wait := .debug 9 } :: List.replicate 7 Path.free }
def openStops (d : Dev) : Dev := { d with opened := 7, ctxopen := 1, stops := [(0, ⟨9, 0, 0⟩)] }
theorem witness_RecoveryAndDebugCommands :
    (let s := stCmd st0 16 false []; s.dev.busy = some (16, 0, false) ∧ s.dev.axolotl = false)
    ∧ (let s := stCmd State.reset 17 false [2 ^ 19 + 1]; let a := { s with dev := { s.dev with axolotl := true } }; a.dev.axolotl = true ∧ a.fatal = false ∧ 2 ^ 19 < (a.dev.carg 0).toNat)
    ∧ (let s := stDbg st0 1 [] id; s.dev.tokenField 0 32 ≠ 0x54474244 ∧ s.dev.tokenReason = 1)
    ∧ (let s := stDbg st0 1 [] fun d => { d with token := [(0, 0x54474244)] };
        s.dev.tokenField 0 32 = 0x54474244 ∧ s.dev.tokenField 32 64 = 0 ∧ s.dev.tokenField 103 25 = 0 ∧ s.dev.tokenField 192 64 = 0)
    ∧ (let s := stDbg st0 2 [0x7E] openStops; (s.dev.dcarg 0).getLsbD 0 = false)
    ∧ (let s := stDbg st0 3 [0, 0] openStops; s.groups = [(0, grp0)] ∧ (s.blk grp0.blk).any (fun b => b.core == (s.dev.dcarg 0).toNat) = true ∧ grp0.slot = (s.dev.dcarg 1).toNat ∧ grp0.resident = true
        ∧ grp0.alive ≠ 0 ∧ s.dev.openFor 0 0 = true ∧ (stDbg st0 3 [0, 0] id).dev.openFor 0 0 = false)
    ∧ (let s := stDbg st0 3 [0, 31] openStops; s.groups.all (fun e => decide (e.2.slot ≠ (s.dev.dcarg 1).toNat)) = true)
    ∧ (∀ a ∈ [0, 1, 2], let s := stDbg (at0 grpHeld Blk.placed') 4 [0, a] openStops; SMap.find? s.dev.stops (s.dev.dcarg 0).toNat = some ⟨9, 0, 0⟩ ∧ s.dev.openFor 0 0 = true ∧ (s.dev.dcarg 1).toNat = a ∧ s.dev.stopWait = []
        ∧ SMap.sorted s.dev.stops = true ∧ s.grp 0 = some grpHeld ∧ (grpHeld.path 0).wait = .debug 9 ∧ grpHeld.resident = true
        ∧ ∀ src ∈ [0, 1, 4], (BitVec.ofNat 256 (src * 2 ^ 23)).extractLsb' 23 3 = BitVec.ofNat 3 src)
    ∧ (let s := stDbg st0 4 [1] openStops; SMap.find? s.dev.stops (s.dev.dcarg 0).toNat = none)
    ∧ (∀ r ∈ [(0, 127, 95), (0, 0, 0), (1, 63, 0)], ∀ c ∈ [(5, 1), (6, 2)], let s := stDbg (at0 grpHeld Blk.placed') c.1 [0, r.2.1 + 256 * r.1 + 65536 * r.2.2, 2 ^ 32 + 5] openStops
        passes (s.regArgs c.2) (fun x => x.1 == 0 && x.2.1 == grpHeld && x.2.2 == (r.2.2, r.1, r.2.1)) = true)
    ∧ grpHeld.tidy := by unfold Grp.tidy; decide +kernel
/-- Host requests and device writes. -/
def stHost (l : List Nat) : State := evAt st0 l 0
theorem witness_HostAndRegisterAccess :
    (∀ n ∈ [4, 8], ∀ off ∈ [0x5000, 2 ^ 39 - 8], let s := stHost [0, off, n]; s.dev.ready = true ∧ s.fatal = false ∧ s.mem.wf = true ∧ off % n = 0 ∧ (linearPopulated off n = (hbmLinear off).isSome)
        ∧ (∀ l ∈ linesOf off n, SMap.get 0 s.mem.latent l = 0) ∧ s.mem.anyPoison off n = false ∧ (∀ k ∈ List.range n, s.inOutbox (off + k) = false ∧ s.inSpawn (off + k) = false))
    ∧ linearPopulated 0x5000 8 = true ∧ linearPopulated (2 ^ 40) 4 = false
    ∧ (let s := (stHost [8, 32]).setCtx 0 (ctxFor true false); armWord 8 = (0, 1) ∧ s.noTcb 0 0 = false ∧ s.noTcb 0 65535 = true ∧ armWord (65535 * 8) = (0, 65535) ∧ armWord 0 = (0, 0))
    ∧ (let d := st0.dev; let d1 := { d with trig := [(7, (1, 5, 0, 0))] }; d1.edgeDue 9 7 = true ∧ d1.edgeDue 8 7 = false ∧ d1.trigger 7 = (1, 5, 0, 0)
        ∧ ({ d with trig := [(7, (1, 5, 0, 3))] } : Dev).edgeDue 9 7 = false ∧ ({ d with trig := [(7, (1, 5, 0, 3))] } : Dev).edgeDue 10 7 = true)
    ∧ (∀ en ∈ [0, 1], ∀ inv ∈ [0, 1], let c := { st0.ctx 63 with binds := [(7, BitVec.ofNat 64 (65535 + en * 2 ^ 32 + inv * 2 ^ 33))] }
        (c.bind 7).getLsbD 32 = (en == 1) ∧ (c.bind 7).getLsbD 33 = (inv == 1) ∧ SMap.wf 0 c.binds = true)
    ∧ (∀ k ∈ [(0, 0), (1, 5), (2, 5)], ∀ n ∈ [4, 5], let s := { evAt st0 [] n with dev := { st0.dev with sync := k.1, syncUntil := k.2, syncpend := 1 } }; s.dev.sync = k.1 ∧ 0 < s.dev.syncpend ∧ ((s.dev.syncUntil ≤ s.clock) ↔ (k.1 = 0 ∨ n = 5)))
    ∧ (∀ a ∈ [0, 0x1000, 0x1008, 0x1020, 0x4008, 0x1808, 0x6010, 0x6048, 0x6000, 0x20000, 4], (stHost [a, 2 ^ 64 - 1]).subject = [a, 2 ^ 64 - 1])
    ∧ (∀ a ∈ [0x1000, 0x1008, 0x1010, 0x1018, 0x4010, 0x4018, 0x5018], a < 0x20000) ∧ 0x8000 + 7976 < 0x8000 + 7984 ∧ 0x20000 + 0x200 * 1151 + 8 * 22 < 0x100000
    ∧ st0.dev.busy = none ∧ st0.dev.dbusy = none ∧ (stCmd st0 1 false []).dev.busy ≠ none := by decide +kernel
/-- The device at a stage of boot. -/
def stBoot (stage : Nat) (subject : List Nat) (f : Kept → Kept) : State :=
  let s := State.resetWith (f (st0.dev.kept)); { s with subject := subject, dev := { s.dev with stage := stage } }
theorem witness_BootAndPowerEvents :
    (∀ stage ∈ [0, 1, 2, 3, 4, 5, 6], ∀ x ∈ [0, 1], let s := stBoot stage [x] id; s.dev.ready = false ∧ s.dev.axolotl = false ∧ s.fatal = false ∧ s.dev.stage = stage ∧ s.arg 0 = x ∧ s.dev.kept.fsc < 3
        ∧ s.dev.kept.repair = [] ∧ s.dev.kept.bad = [] ∧ s.dev.rsn = 0 ∧ s.dev.kept.readable = true ∧ s.dev.flashing = false ∧ (s.dev.kept.retired.all fun e => e.2 ≤ 6) = true)
    ∧ (let s := stBoot 1 [0] fun k => k.write fun p => { p with fsc := 3 }; s.dev.kept.fsc = 3 ∧ s.dev.kept.readable = true ∧ s.dev.rsn = 0)
    ∧ (stBoot 1 [0] fun k => { k with sectors := ({ k.sectors.1 with whole := false }, { k.sectors.2 with whole := false }) }).dev.kept.readable = false
    ∧ (let s := { stBoot 2 [0] id with dev := { (stBoot 2 [0] id).dev with rsn := 3 } }; s.dev.ready = false ∧ s.dev.axolotl = false ∧ s.fatal = false ∧ s.dev.rsn ≠ 0)
    ∧ (∀ first ∈ [true, false], let k := (if first then st0.dev.kept else st0.dev.kept.write id); k.readable = true ∧ k.first = first ∧ (k.write fun p => { p with lastrsn := 4 }).area.lastrsn = 4
        ∧ (k.write fun p => { p with lastrsn := 4 }).cut.area = k.area)
    ∧ (let s := stCmd State.reset 17 true []; let t := after .recoverComplete s; t.dev.flashing = true ∧ t.dev.wasImage = some s.dev.kept.image)
    ∧ (∀ n ∈ [1, 5], let s := stBoot n [] id; s.inputs = [] ∧ s.dev.rsn = 0 ∧ 1 ≤ s.dev.stage ∧ s.dev.stage < 6 ∧ s.dev.bootTime = 0)
    ∧ (let s := stBoot 3 [0] fun k => { k with retired := [(0, 7)] }; (s.dev.kept.retire (s.subject.drop 1)).retired.any (fun e => 6 < e.2) = true)
    ∧ (∀ n ∈ [4095, 4096], let s := evAt st0 [] n; s.dev.arbiter = 0 ∧ ((4096 * (s.dev.arbiter + 1) ≤ s.clock) ↔ n = 4096) ∧ SMap.wf (16, 16) s.dev.grants = true)
    ∧ (st0.dev.ready = true ∧ st0.fatal = false ∧ ({ st0.dev with opened := 0x10 } : Dev).opened.getLsbD 4 = true ∧ st0.dev.opened.getLsbD 4 = false ∧ st0.dev.opened.getLsbD 5 = false) := by decide +kernel
theorem witness_StepRunsDecoded : let s := State.reset.withFetchWord 32 0xB6000000
    s.dev.ready = true ∧ s.fatal = false ∧ s.due = [] ∧ s.atOnce.isNone = true ∧ s.choices = [] ∧ s.nextCore = some 0 ∧ s.withheld 0 = false ∧ s.mem.latent = [] ∧ s.codeWas = []
    ∧ (chooseOffer (s.offers 0)).any (fun o => (!o.scalar || (s.scalarGrant 0).1) && (s.envOf o.gk o.pi).any fun e =>
        passes (s.fetchHome e.b.ctx e.b.core e.p.pc) fun h => !s.mem.anyPoison h 4 && s.mem.readLE h 4 == 0xB6000000 && !twoWords 0xB6000000) = true
    ∧ decode 0xB6000000 0 = .ok (.nop 0) := by decide +kernel
theorem witness_StepRunsDecoded_two_words : let s := State.reset.withFetchWord 64 0xFFF00100_6D008000
    s.due = [] ∧ s.atOnce.isNone = true ∧ s.choices = [] ∧ s.nextCore = some 0 ∧ (chooseOffer (s.offers 0)).any (fun o => (s.envOf o.gk o.pi).any fun e =>
        passes (s.fetchHome e.b.ctx e.b.core e.p.pc) fun h => s.mem.readLE h 4 == 0x6D008000 && twoWords 0x6D008000 && passes (s.fetchHome e.b.ctx e.b.core (e.p.pc + 4)) fun h2 => s.mem.readLE h2 4 == 0xFFF00100) = true := by decide +kernel
theorem witness_StepKeepsLegal : State.reset.RegistersLegal ∧ State.reset.Canonical := by
  refine ⟨⟨?_, ?_, ?_, ?_, ?_, ?_, ?_⟩, ?_⟩ <;> first | decide +kernel | (unfold State.Canonical; decide +kernel)

end Sys2Proof.Tests
end

section
/-! PROOFS. Write requests (R17, R428, R429): what memory reads after one, which lines it marks, and its canonical form. -/
namespace Sys2Proof.Machine
open Sys2Proof

/-! ### One byte and one mark -/

theorem Memory.wf_iff {m : Memory} : m.wf = true ↔ SMap.wf unlistedByte m.bytes = true ∧ SMap.wf false m.poison = true
    ∧ SMap.wf false m.empties = true ∧ SMap.wf 0 m.latent = true := by
  simp [Memory.wf, and_assoc]

@[simp] theorem Memory.setByte_empties (m : Memory) (a : Nat) (x : Byte) : (m.setByte a x).empties = m.empties := rfl
@[simp] theorem Memory.poisoned_setByte (m : Memory) (a : Nat) (x : Byte) (pa : Nat) : (m.setByte a x).poisoned pa = m.poisoned pa := rfl
@[simp] theorem Memory.mark_bytes (m : Memory) (l : Nat) (x : Bool) : (m.mark l x).bytes = m.bytes := rfl
@[simp] theorem Memory.mark_empties (m : Memory) (l : Nat) (x : Bool) : (m.mark l x).empties = m.empties := rfl

theorem Memory.byte_setByte_self {m : Memory} (h : m.wf = true) (a : Nat) (x : Byte) : (m.setByte a x).byte a = x :=
  SMap.get_set_self a x (SMap.sorted_of_wf (Memory.wf_iff.1 h).1)
theorem Memory.byte_setByte_ne (m : Memory) {a b : Nat} (x : Byte) (h : b ≠ a) : (m.setByte a x).byte b = m.byte b :=
  SMap.get_set_ne _ _ x h
theorem Memory.wf_setByte {m : Memory} (h : m.wf = true) (a : Nat) (x : Byte) : (m.setByte a x).wf = true := by
  obtain ⟨hb, hp, he, hl⟩ := Memory.wf_iff.1 h
  exact Memory.wf_iff.2 ⟨SMap.wf_set a x hb, hp, he, hl⟩
theorem Memory.wf_mark {m : Memory} (h : m.wf = true) (l : Nat) (x : Bool) : (m.mark l x).wf = true := by
  obtain ⟨hb, hp, he, hl⟩ := Memory.wf_iff.1 h
  exact Memory.wf_iff.2 ⟨hb, SMap.wf_set l x hp, he, SMap.wf_set l 0 hl⟩
theorem Memory.poisoned_mark {m : Memory} (h : m.wf = true) (l : Nat) (x : Bool) (pa : Nat) :
    (m.mark l x).poisoned pa = if pa / 64 = l then x else m.poisoned pa := by
  obtain ⟨-, hp, -, hl⟩ := Memory.wf_iff.1 h
  by_cases e : pa / 64 = l
  · simp [Memory.poisoned, Memory.mark, e, SMap.get_set_self, SMap.sorted_of_wf hp, SMap.sorted_of_wf hl]
  · simp [Memory.poisoned, Memory.mark, e, SMap.get_set_ne]

/-! ### Little-endian numbers (R17) -/

theorem Memory.byte_writeLE_of_outside (m : Memory) {pa n a : Nat} (x : Nat) (h : a < pa ∨ pa + n ≤ a) :
    (m.writeLE pa n x).byte a = m.byte a := by
  induction n generalizing m pa x with
  | zero => rfl
  | succ n ih => rw [Memory.writeLE, ih _ _ (by omega), Memory.byte_setByte_ne _ _ (by omega)]

theorem Memory.readLE_writeLE {m : Memory} (h : m.wf = true) (pa n x : Nat) : (m.writeLE pa n x).readLE pa n = x % 2 ^ (8 * n) := by
  induction n generalizing m pa x with
  | zero => simp [Memory.readLE, Nat.mod_one]
  | succ n ih =>
    have low : ((m.writeLE pa (n + 1) x).byte pa).toNat = x % 2 ^ 8 := by
      rw [Memory.writeLE, Memory.byte_writeLE_of_outside _ _ (by omega), Memory.byte_setByte_self h, BitVec.toNat_ofNat]
    have high : (m.writeLE pa (n + 1) x).readLE (pa + 1) n = x / 2 ^ 8 % 2 ^ (8 * n) := ih (Memory.wf_setByte h ..) ..
    rw [Memory.readLE, low, high, show 8 * (n + 1) = 8 + 8 * n by omega, pow_add, Nat.mod_mul]
    rfl

theorem Memory.byte_congr {m m' : Memory} (h : m'.bytes = m.bytes) (a : Nat) : m'.byte a = m.byte a := by
  rw [Memory.byte, h, Memory.byte]
theorem Memory.readLE_congr {m m' : Memory} (h : m'.bytes = m.bytes) (pa n : Nat) : m'.readLE pa n = m.readLE pa n := by
  induction n generalizing pa with
  | zero => rfl
  | succ n ih => rw [Memory.readLE, Memory.readLE, ih, Memory.byte_congr h]

/-! ### The two halves of a request: its bytes, then its lines -/

section Requests
variable (ws : List (Nat × Byte × Bool))

/-- The bytes of a request written one after another. -/
def Memory.putBytes (m : Memory) : Memory := ws.foldl (fun m w => m.setByte w.1 w.2.1) m
/-- Whether a request writes a poisoned byte into a line (R428). -/
def lineDirtied (l : Nat) : Bool := (ws.filter fun w => w.1 / 64 == l).any (·.2.2)
/-- Whether a request writes all 64 bytes of a line (R429). -/
def lineCovered (l : Nat) : Bool := ((ws.filter fun w => w.1 / 64 == l).map (·.1)).eraseDups.length == 64
/-- The mark of a line the request reaches, set, cleared or left. -/
def Memory.settleLine (m : Memory) (l : Nat) : Memory :=
  if lineDirtied ws l then m.mark l true else if lineCovered ws l then m.mark l false else m
/-- Whether a line is poisoned after a request, by whether it was before. -/
def lineMark (l : Nat) (old : Bool) : Bool := lineDirtied ws l || (!lineCovered ws l && old)

theorem Memory.request_eq (m : Memory) :
    m.request ws = (ws.map fun w => w.1 / 64).eraseDups.foldl (Memory.settleLine ws) (m.putBytes ws) := rfl

theorem Memory.putBytes_leBytes (m : Memory) (pa n x : Nat) (z : Bool) : m.putBytes (leBytes pa z n x) = m.writeLE pa n x := by
  induction n generalizing m pa x with
  | zero => rfl
  | succ n ih => exact ih ..

theorem Memory.wf_putBytes {m : Memory} (h : m.wf = true) : (m.putBytes ws).wf = true :=
  List.foldlRecOn (motive := fun t : Memory => t.wf = true) ws _ h fun _ hm _ _ => Memory.wf_setByte hm ..
@[simp] theorem Memory.putBytes_empties (m : Memory) : (m.putBytes ws).empties = m.empties :=
  List.foldlRecOn (motive := fun t : Memory => t.empties = m.empties) ws _ rfl fun _ hm _ _ => hm
@[simp] theorem Memory.poisoned_putBytes (m : Memory) (pa : Nat) : (m.putBytes ws).poisoned pa = m.poisoned pa :=
  List.foldlRecOn (motive := fun t : Memory => t.poisoned pa = m.poisoned pa) ws _ rfl fun _ hm _ _ => hm

theorem Memory.settleLine_cases (m : Memory) (l : Nat) :
    m.settleLine ws l = m ∨ ∃ x, m.settleLine ws l = m.mark l x := by
  unfold Memory.settleLine
  split
  · exact .inr ⟨_, rfl⟩
  · split
    · exact .inr ⟨_, rfl⟩
    · exact .inl rfl

@[simp] theorem Memory.settleLine_bytes (m : Memory) (l : Nat) : (m.settleLine ws l).bytes = m.bytes := by
  obtain h | ⟨x, h⟩ := Memory.settleLine_cases ws m l <;> simp [h]
@[simp] theorem Memory.settleLine_empties (m : Memory) (l : Nat) : (m.settleLine ws l).empties = m.empties := by
  obtain h | ⟨x, h⟩ := Memory.settleLine_cases ws m l <;> simp [h]
theorem Memory.wf_settleLine {m : Memory} (hm : m.wf = true) (l : Nat) : (m.settleLine ws l).wf = true := by
  obtain h | ⟨x, h⟩ := Memory.settleLine_cases ws m l
  · rwa [h]
  · rw [h]; exact Memory.wf_mark hm l x
theorem Memory.poisoned_settleLine {m : Memory} (hm : m.wf = true) (l pa : Nat) :
    (m.settleLine ws l).poisoned pa = if pa / 64 = l then lineMark ws l (m.poisoned pa) else m.poisoned pa := by
  unfold Memory.settleLine lineMark
  cases lineDirtied ws l with
  | true => simp [Memory.poisoned_mark hm]
  | false => cases lineCovered ws l <;> simp [Memory.poisoned_mark hm]

/-! ### The mark of a line after a request -/

theorem lineMark_lineMark (l : Nat) (old : Bool) : lineMark ws l (lineMark ws l old) = lineMark ws l old := by
  unfold lineMark
  cases lineCovered ws l <;> simp

theorem lineMark_of_poison {l : Nat} (h : ∃ w ∈ ws, w.1 / 64 = l ∧ w.2.2 = true) (old : Bool) :
    lineMark ws l old = true := by
  obtain ⟨w, hw, hl, hz⟩ := h
  have : lineDirtied ws l = true := List.any_eq_true.2 ⟨w, by simp [hw, hl], hz⟩
  simp [lineMark, this]

theorem lineMark_of_untouched {l : Nat} (h : ∀ w ∈ ws, w.1 / 64 ≠ l) (old : Bool) : lineMark ws l old = old := by
  have : (ws.filter fun w => w.1 / 64 == l) = [] := by simpa using h
  simp [lineMark, lineDirtied, lineCovered, this]

theorem lineMark_of_clean (h : ∀ w ∈ ws, w.2.2 = false) (l : Nat) (old : Bool) : lineMark ws l old = (!lineCovered ws l && old) := by
  have : lineDirtied ws l = false := List.any_eq_false.2 fun w hw => by simp [h w (List.mem_of_mem_filter hw)]
  rw [lineMark, this, Bool.false_or]

theorem Memory.poisoned_settleLines (ls : List Nat) {m : Memory} (hm : m.wf = true) (pa : Nat) :
    (ls.foldl (Memory.settleLine ws) m).poisoned pa = if pa / 64 ∈ ls then lineMark ws (pa / 64) (m.poisoned pa) else m.poisoned pa := by
  induction ls generalizing m with
  | nil => rfl
  | cons l ls ih =>
    rw [List.foldl_cons, ih (Memory.wf_settleLine ws hm l), Memory.poisoned_settleLine ws hm]
    by_cases hl : pa / 64 = l
    · simp [hl, lineMark_lineMark]
    · simp [hl]

/-! ### A request as a whole -/

theorem Memory.request_bytes (m : Memory) : (m.request ws).bytes = (m.putBytes ws).bytes := by
  rw [Memory.request_eq]
  exact List.foldlRecOn (motive := fun t => t.bytes = (m.putBytes ws).bytes) _ _ rfl fun t ht l _ => (Memory.settleLine_bytes ws t l).trans ht

@[simp] theorem Memory.request_empties (m : Memory) : (m.request ws).empties = m.empties := by
  rw [Memory.request_eq]
  exact List.foldlRecOn (motive := fun t => t.empties = m.empties) _ _ (Memory.putBytes_empties ws m) fun t ht l _ =>
    (Memory.settleLine_empties ws t l).trans ht

theorem Memory.wf_request {m : Memory} (h : m.wf = true) : (m.request ws).wf = true := by
  rw [Memory.request_eq]
  exact List.foldlRecOn (motive := fun t : Memory => t.wf = true) _ _ (Memory.wf_putBytes ws h) fun t ht l _ => Memory.wf_settleLine ws ht l

theorem Memory.poisoned_request {m : Memory} (h : m.wf = true) (pa : Nat) :
    (m.request ws).poisoned pa = lineMark ws (pa / 64) (m.poisoned pa) := by
  rw [Memory.request_eq, Memory.poisoned_settleLines ws _ (Memory.wf_putBytes ws h), Memory.poisoned_putBytes]
  split
  · rfl
  · rename_i hl
    exact (lineMark_of_untouched ws (fun w hw e => hl (by rw [List.mem_eraseDups, ← e]; exact List.mem_map_of_mem hw)) _).symm

end Requests

/-! ### The request of a little-endian number -/

theorem mem_leBytes {pa n x : Nat} {z : Bool} {w : Nat × Byte × Bool} :
    w ∈ leBytes pa z n x ↔ ∃ k < n, w = (pa + k, BitVec.ofNat 8 (x / 256 ^ k), z) := by
  induction n generalizing pa x with
  | zero => simp [leBytes]
  | succ n ih =>
    rw [leBytes, List.mem_cons, ih, Nat.exists_lt_succ_left]
    simp only [Nat.pow_succ', Nat.div_div_eq_div_mul, Nat.add_assoc, Nat.add_comm 1, Nat.pow_zero, Nat.div_one, Nat.add_zero]

theorem mem_fst_leBytes {pa n x : Nat} {z : Bool} {a : Nat} : a ∈ (leBytes pa z n x).map (·.1) ↔ pa ≤ a ∧ a < pa + n := by
  simp only [List.mem_map, mem_leBytes]
  constructor
  · rintro ⟨_, ⟨k, hk, rfl⟩, rfl⟩
    exact ⟨Nat.le_add_right .., Nat.add_lt_add_left hk _⟩
  · rintro ⟨hl, hu⟩
    exact ⟨_, ⟨a - pa, by omega, rfl⟩, by simp only; omega⟩

theorem nodup_eraseDups (l : List Nat) : l.eraseDups.Nodup := by
  match l with
  | [] => simp
  | a :: as =>
    rw [List.eraseDups_cons, List.nodup_cons]
    exact ⟨by simp, nodup_eraseDups _⟩
termination_by l.length
decreasing_by exact Nat.lt_succ_of_le (List.length_filter_le ..)

/-- A request that covers a line writes to 64 addresses of it, each once. -/
theorem lineCovered_leBytes {pa n l : Nat} (x : Nat) (z : Bool) (hl : pa ≤ 64 * l) (hu : 64 * l + 64 ≤ pa + n) :
    lineCovered (leBytes pa z n x) l = true := by
  have same : (((leBytes pa z n x).filter fun w => w.1 / 64 == l).map (·.1)).eraseDups.Perm (List.range' (64 * l) 64) := by
    rw [List.perm_ext_iff_of_nodup (nodup_eraseDups _) List.nodup_range']
    intro a
    rw [List.mem_eraseDups, show (fun w : Nat × Byte × Bool => w.1 / 64 == l) = (fun a => a / 64 == l) ∘ (·.1) from rfl, ← List.filter_map,
      List.mem_filter, mem_fst_leBytes, List.mem_range'_1, beq_iff_eq]
    omega
  rw [lineCovered, same.length_eq, List.length_range']
  rfl

theorem lineMark_leBytes_poison {pa n l : Nat} (x : Nat) (h : ∃ k, k < n ∧ (pa + k) / 64 = l) (old : Bool) :
    lineMark (leBytes pa true n x) l old = true := by
  obtain ⟨k, hk, hl⟩ := h
  exact lineMark_of_poison _ ⟨_, mem_leBytes.2 ⟨k, hk, rfl⟩, hl, rfl⟩ old

theorem lineMark_leBytes_untouched {pa n l : Nat} (x : Nat) (z : Bool) (h : ∀ k, k < n → (pa + k) / 64 ≠ l) (old : Bool) :
    lineMark (leBytes pa z n x) l old = old := by
  refine lineMark_of_untouched _ (fun w hw => ?_) old
  obtain ⟨k, hk, rfl⟩ := mem_leBytes.1 hw
  exact h k hk

theorem lineMark_leBytes_clean (pa n x l : Nat) (old : Bool) : lineMark (leBytes pa false n x) l old =
    (!lineCovered (leBytes pa false n x) l && old) := by
  refine lineMark_of_clean _ (fun w hw => ?_) l old
  obtain ⟨k, -, rfl⟩ := mem_leBytes.1 hw
  rfl

theorem Memory.byte_request_leBytes_of_outside (m : Memory) {pa n a : Nat} (x : Nat) (z : Bool) (h : a < pa ∨ pa + n ≤ a) :
    (m.request (leBytes pa z n x)).byte a = m.byte a := by
  rw [Memory.byte_congr (Memory.request_bytes ..), Memory.putBytes_leBytes, Memory.byte_writeLE_of_outside m x h]

theorem Memory.readLE_request_leBytes {m : Memory} (h : m.wf = true) (pa n x : Nat) (z : Bool) :
    (m.request (leBytes pa z n x)).readLE pa n = x % 2 ^ (8 * n) := by
  rw [Memory.readLE_congr (Memory.request_bytes ..), Memory.putBytes_leBytes, Memory.readLE_writeLE h]

/-- Settles O29: the request's bytes are those of `Memory.writeLE`, and each line's mark after it is `lineMark` of the mark before. -/
theorem writeThenRead : Obligations.WriteThenRead := by
  intro m pa n x z h
  refine ⟨Memory.wf_request _ h, Memory.readLE_request_leBytes h .., fun a => Memory.byte_request_leBytes_of_outside m x z, fun l => ?_,
    Memory.request_empties ..⟩
  rw [Memory.poisoned_request _ h, Nat.mul_div_cancel_left l (by decide : 0 < 64)]
  refine ⟨?_, fun hu => lineMark_leBytes_untouched x z hu _, ?_, ?_⟩
  · rintro rfl ht
    exact lineMark_leBytes_poison x ht _
  · rintro rfl hold
    rw [lineMark_leBytes_clean, hold, Bool.and_false]
  · rintro rfl hl hu
    rw [lineMark_leBytes_clean, lineCovered_leBytes x false hl hu, Bool.not_true, Bool.false_and]

end Sys2Proof.Machine
end

section
/-! PROOFS. Encoding and decoding (R36, R39 to R50): what the parts of a field or a second word are, and the round trip. -/
namespace Sys2Proof

theorem decode_toWord (f : Fields) (x : Word) : decode f.toWord x = if f.set = 0 then decodeLane f x else decodeUniform f x := by
  rw [decode, Fields.ofWord_toWord]

/-! ### Sub-fields (R39 to R47): cutting a field, or a second word, gives the parts it was made of -/

/-- A condition or conversion code beside a predicate number or a rounding mode (R41, R47). -/
theorem condition_layout (c : BitVec 4) (p : BitVec 3) : let x : BitVec 7 := c ++ p
    x.extractLsb' 3 4 = c ∧ x.extractLsb' 0 3 = p := by grind

/-- A predicate operand (R39); with a zero in the place of its second bit, SPAWN and LEASE. -/
theorem predicate_layout (k n : BitVec 1) (p : BitVec 3) : let x : BitVec 7 := (0 : BitVec 2) ++ k ++ n ++ p
    x.extractLsb' 5 2 = 0 ∧ x.extractLsb' 4 1 = k ∧ x.extractLsb' 3 1 = n ∧ x.extractLsb' 0 3 = p := by grind

/-- A field of three bits. -/
theorem low3_layout (m : BitVec 3) : let x : BitVec 7 := (0 : BitVec 4) ++ m
    x.extractLsb' 3 4 = 0 ∧ x.extractLsb' 0 3 = m := by grind

/-- A field of four bits. -/
theorem low4_layout (c : BitVec 4) : let x : BitVec 7 := (0 : BitVec 3) ++ c
    x.extractLsb' 4 3 = 0 ∧ x.extractLsb' 0 4 = c := by grind

/-- Mode and lane of SHFL. -/
theorem shuffle_layout (m : BitVec 2) (c : BitVec 5) : let x : BitVec 7 := m ++ c
    x.extractLsb' 5 2 = m ∧ x.extractLsb' 0 5 = c := by grind

/-- MMAS, and with a zero first bit CPY, CPYM and DEC. -/
theorem flags_layout (y l k : BitVec 1) (n : BitVec 4) : let x : BitVec 7 := y ++ l ++ k ++ n
    x.extractLsb' 6 1 = y ∧ x.extractLsb' 5 1 = l ∧ x.extractLsb' 4 1 = k ∧ x.extractLsb' 0 4 = n := by grind

/-- The second word of a memory instruction (R43). -/
theorem memory_layout (size : BitVec 3) (sign : BitVec 1) (scope : BitVec 3) (subop : BitVec 5) (off : BitVec 20) :
    let x : Word := size ++ sign ++ scope ++ subop ++ off
    x.extractLsb' 29 3 = size ∧ x.extractLsb' 28 1 = sign ∧ x.extractLsb' 25 3 = scope ∧ x.extractLsb' 20 5 = subop ∧ x.extractLsb' 0 20 = off := by grind

/-- CVTFX. -/
theorem cvtfx_layout (dir : BitVec 1) (rm : BitVec 3) (fxw : BitVec 2) (frac : BitVec 7) :
    let x : Word := dir ++ rm ++ fxw ++ frac ++ (0 : BitVec 19)
    x.extractLsb' 31 1 = dir ∧ x.extractLsb' 28 3 = rm ∧ x.extractLsb' 26 2 = fxw ∧ x.extractLsb' 19 7 = frac ∧ x.extractLsb' 0 19 = 0 := by grind

/-- FILMADD. -/
theorem filmadd_layout (film : BitVec 3) (nch : BitVec 2) : let x : Word := film ++ nch ++ (0 : BitVec 27)
    x.extractLsb' 29 3 = film ∧ x.extractLsb' 27 2 = nch ∧ x.extractLsb' 0 27 = 0 := by grind

/-- TRACE. -/
theorem trace_layout (pop : BitVec 1) (flags : BitVec 7) (mask : BitVec 8) : let x : Word := pop ++ flags ++ mask ++ (0 : BitVec 16)
    x.extractLsb' 31 1 = pop ∧ x.extractLsb' 24 7 = flags ∧ x.extractLsb' 16 8 = mask ∧ x.extractLsb' 0 16 = 0 := by grind

/-- SPAWN, HITA and HITC. -/
theorem selector_layout (sel : BitVec 4) : let x : Word := (0 : BitVec 16) ++ sel ++ (0 : BitVec 12)
    x.extractLsb' 16 16 = 0 ∧ x.extractLsb' 12 4 = sel ∧ x.extractLsb' 0 12 = 0 := by grind

/-- TEX and WTEX. -/
theorem texture_layout (desc samp : BitVec 8) : let x : Word := desc ++ samp ++ (0 : BitVec 16)
    x.extractLsb' 24 8 = desc ∧ x.extractLsb' 16 8 = samp ∧ x.extractLsb' 0 16 = 0 := by grind

/-- NEVAL. -/
theorem neval_layout (nin nout : BitVec 6) : let x : Word := nin ++ nout ++ (0 : BitVec 20)
    x.extractLsb' 26 6 = nin ∧ x.extractLsb' 20 6 = nout ∧ x.extractLsb' 0 20 = 0 := by grind

/-- MMAQ. -/
theorem mmaq_layout (slot : BitVec 4) (km : BitVec 6) (nm : BitVec 4) (win : BitVec 5) :
    let x : Word := slot ++ km ++ nm ++ win ++ (0 : BitVec 13)
    x.extractLsb' 28 4 = slot ∧ x.extractLsb' 22 6 = km ∧ x.extractLsb' 18 4 = nm ∧ x.extractLsb' 13 5 = win ∧ x.extractLsb' 0 13 = 0 := by grind

/-- MRD and MWR. -/
theorem tile_layout (tile : BitVec 4) (col : BitVec 6) (row : BitVec 5) : let x : Word := tile ++ col ++ row ++ (0 : BitVec 17)
    x.extractLsb' 28 4 = tile ∧ x.extractLsb' 22 6 = col ∧ x.extractLsb' 17 5 = row ∧ x.extractLsb' 0 17 = 0 := by grind

/-- MSYNC and OPRDY. -/
theorem bank_layout (bank : BitVec 1) : let x : Word := bank ++ (0 : BitVec 31)
    x.extractLsb' 31 1 = bank ∧ x.extractLsb' 0 31 = 0 := by grind

/-- TDRAW. -/
theorem draw_layout (tree : BitVec 6) (strat keyed vchk : BitVec 1) :
    let x : Word := tree ++ strat ++ keyed ++ vchk ++ (0 : BitVec 23)
    x.extractLsb' 26 6 = tree ∧ x.extractLsb' 25 1 = strat ∧ x.extractLsb' 24 1 = keyed ∧ x.extractLsb' 23 1 = vchk ∧ x.extractLsb' 0 23 = 0 := by grind

/-- TUPD and TINS. -/
theorem tree_layout (tree : BitVec 6) : let x : Word := tree ++ (0 : BitVec 26)
    x.extractLsb' 26 6 = tree ∧ x.extractLsb' 0 26 = 0 := by grind

/-- LEA. -/
theorem offset_layout (off : BitVec 20) : let x : Word := (0 : BitVec 12) ++ off
    x.extractLsb' 20 12 = 0 ∧ x.extractLsb' 0 20 = off := by grind

/-- The fabric instructions (R46). -/
theorem window_layout (win : BitVec 8) : let x : Word := win ++ (0 : BitVec 24)
    x.extractLsb' 24 8 = win ∧ x.extractLsb' 0 24 = 0 := by grind

theorem immediate14_layout (imm : BitVec 14) : (imm.extractLsb' 7 7 ++ imm.extractLsb' 0 7 : BitVec 14) = imm :=
  (BitVec.extractLsb'_append_extractLsb'_eq_extractLsb' rfl).trans BitVec.extractLsb'_eq_self

theorem offset21_layout (off : BitVec 21) : (off.extractLsb' 14 7 ++ off.extractLsb' 7 7 ++ off.extractLsb' 0 7 : BitVec 21) = off := by
  have high : off.extractLsb' 14 7 ++ off.extractLsb' 7 7 = off.extractLsb' 7 14 := BitVec.extractLsb'_append_extractLsb'_eq_extractLsb' rfl
  rw [high]
  exact (BitVec.extractLsb'_append_extractLsb'_eq_extractLsb' rfl).trans BitVec.extractLsb'_eq_self

theorem wordOfBytes_slices (w : Word) : wordOfBytes (w.extractLsb' 0 8) (w.extractLsb' 8 8) (w.extractLsb' 16 8) (w.extractLsb' 24 8) = w := by
  have high : w.extractLsb' 24 8 ++ w.extractLsb' 16 8 = w.extractLsb' 16 16 := BitVec.extractLsb'_append_extractLsb'_eq_extractLsb' rfl
  have top : w.extractLsb' 16 16 ++ w.extractLsb' 8 8 = w.extractLsb' 8 24 := BitVec.extractLsb'_append_extractLsb'_eq_extractLsb' rfl
  rw [wordOfBytes, high, top]
  exact (BitVec.extractLsb'_append_extractLsb'_eq_extractLsb' rfl).trans BitVec.extractLsb'_eq_self

/-! ### The round trip -/

theorem decode_fields {i : Instr} {f : Fields} (hf : i.fields = some f) (ha : ∀ w, i ≠ .unassignedOpcode w) :
    decode f.toWord (i.ext.getD 0) = .ok i := by
  rw [decode_toWord]
  cases i
  case unassignedOpcode w => exact absurd rfl (ha w)
  -- cut into sub-fields, with no bit reserved
  case icmp | fcmp | movi | dcmp | fcvt | dcvt | shfl | atom | atomf | icmpU | fcmpU | moviU | dcmpU | fcvtU | dcvtU | br | call | atomU =>
    cases hf
    exact congrArg Except.ok (by simp only [Instr.ext, Option.getD_some, condition_layout, shuffle_layout, memory_layout, immediate14_layout,
      offset21_layout])
  -- cut into sub-fields or reserved bits: the lane set, then the uniform set
  case cmov | frnd | vote | brc | waitr | trapp | ld | st | ldw | stw | ldfe | stfe | red | cvtfx | atomx | ldpoll | filmadd | trace | spawn | hita
      | hitc | tex | wtex | neval | mmaq | mrd | mwr | msync | oprdy | tdraw | tupd | tins =>
    cases hf
    refine (if_pos rfl).trans (needZero_eq_ok.2 ?_)
    simp only [Instr.ext, Option.getD_some, and_self, immediate14_layout, predicate_layout, low3_layout, memory_layout, cvtfx_layout,
      filmadd_layout, trace_layout, selector_layout, texture_layout, neval_layout, mmaq_layout, tile_layout, bank_layout, draw_layout, tree_layout]
  case cmovU | frndU | brq | bkpt | trap | lease | cpy | cpym | dec | chain | mmas | ldU | stU | redU | ldpollU | lea | put | putf | faar | casr =>
    cases hf
    refine (if_neg (show (1 : BitVec 1) ≠ 0 by decide)).trans (needZero_eq_ok.2 ?_)
    simp only [Instr.ext, Option.getD_some, and_self, immediate14_layout, predicate_layout, low3_layout, low4_layout, flags_layout,
      memory_layout, offset_layout, window_layout]
  -- whole fields; an event has none
  all_goals cases hf
  all_goals rfl

theorem twoWords_fields {i : Instr} {f : Fields} (hf : i.fields = some f) (ha : ∀ w, i ≠ .unassignedOpcode w) :
    twoWords f.toWord = i.ext.isSome := by
  rw [twoWords_toWord]
  cases i
  case unassignedOpcode w => exact absurd rfl (ha w)
  all_goals cases hf
  all_goals rfl

theorem decodeBytes_oneWord {w : Word} {i : Instr} (h2 : twoWords w = false) (hd : decode w 0 = .ok i) (rest : List Byte) :
    decodeBytes (bytesOfWord w ++ rest) = .ok (i, rest) := by
  simp only [bytesOfWord, List.cons_append, List.nil_append, decodeBytes, wordOfBytes_slices, h2, hd]
  rfl

theorem decodeBytes_twoWords {w x : Word} {i : Instr} (h2 : twoWords w = true) (hd : decode w x = .ok i) (rest : List Byte) :
    decodeBytes (bytesOfWord w ++ bytesOfWord x ++ rest) = .ok (i, rest) := by
  simp only [bytesOfWord, List.cons_append, List.nil_append, decodeBytes, wordOfBytes_slices, h2, hd]
  rfl

/-- Settles O2: the first word of an instruction announces a second one exactly where there is one, and the words decode to the instruction
field by field. -/
theorem decodeEncode : Obligations.DecodeEncode := by
  unfold Obligations.DecodeEncode
  intro i w x rest ha he
  obtain ⟨f, hf, hw⟩ := Option.map_eq_some_iff.1 he
  obtain ⟨rfl, rfl⟩ := Prod.mk.inj hw
  have hd := decode_fields hf ha
  have h2 := twoWords_fields hf ha
  cases hx : i.ext with
  | none =>
    rw [hx] at hd h2
    simpa only [List.append_nil] using decodeBytes_oneWord h2 hd rest
  | some y =>
    rw [hx] at hd h2
    exact decodeBytes_twoWords h2 hd rest

/-- Settles O1: each word is cut into its fields and the opcode's row read. -/
theorem decodedWords : Obligations.DecodedWords := by
  unfold Obligations.DecodedWords
  exact ⟨rfl, rfl, rfl, rfl, rfl, rfl⟩

end Sys2Proof
end

section
/-! PROOFS. Control: where the uniform transfers lead (R106, R109, R261), and taking a trap (R54, R111, R260). -/
namespace Sys2Proof.Machine
open Sys2Proof

/-! ### The path table -/

@[simp] theorem Path.set_path_self {g : Grp} {k : Nat} (p : Path) (h : k < g.paths.length) : (Path.set g k p).path k = p := by
  simp [Path.set, Grp.path, h]
theorem Path.set_path_ne (g : Grp) {k j : Nat} (p : Path) (h : j ≠ k) : (Path.set g k p).path j = g.path j := by
  simp [Path.set, Grp.path, List.getElem?_set_ne h.symm]
@[simp] theorem Path.set_set (g : Grp) (k : Nat) (p q : Path) : Path.set (Path.set g k p) k q = Path.set g k q := by
  simp [Path.set]

/-- A group no path of which runs the handler (R260). -/
theorem Grp.inHandler_eq_false {g : Grp} (hp : ∀ p ∈ g.paths, p.st ≠ .free → p.hnd = false) (hs : ∀ p ∈ g.spilled, p.2.hnd = false) :
    g.inHandler = false := by
  simp only [Grp.inHandler, Bool.or_eq_false_iff, List.any_eq_false, Bool.and_eq_true, bne_iff_ne, not_and, Bool.not_eq_true]
  exact ⟨hp, hs⟩

/-- The path goes on from the state of issue itself. -/
theorem Env.finish_self {s : State} {e : Env} (h : s.env = some e) (i : Instr) (pc : DWord) : e.finish i pc [] s = e.goesOn i pc e.g := by
  obtain ⟨hs, -, hg, -, hp⟩ := State.env_eq_some h
  simp only [Env.finish, Env.finishAs, Env.goesOn, hs, hp, State.updPath_some hg]

/-! ### Register targets (R42) -/

theorem extractLsb'_eq_zero_iff (x : DWord) (k n : Nat) : x.extractLsb' k n = 0#n ↔ x.toNat / 2 ^ k % 2 ^ n = 0 := by
  rw [← BitVec.toNat_inj, BitVec.extractLsb'_toNat, Nat.shiftRight_eq_div_pow, BitVec.toNat_ofNat, Nat.zero_mod]

theorem aligned_iff (x : DWord) : x.extractLsb' 0 2 = 0#2 ↔ x.toNat % 4 = 0 := by
  rw [extractLsb'_eq_zero_iff]
  omega

theorem inRange_iff (x : DWord) : x.extractLsb' 56 8 = 0#8 ↔ x.toNat < 2 ^ 56 := by
  rw [extractLsb'_eq_zero_iff]
  omega

section Target
variable {x : DWord × Bool}

theorem targetTrap_poison (hz : x.2 = true) : targetTrap x = some ⟨0x0B, 0⟩ := by
  simp [targetTrap, hz, trap, Cause.code]
theorem targetTrap_misalign (hz : x.2 = false) (ha : x.1.toNat % 4 ≠ 0) : targetTrap x = some ⟨0x05, 0⟩ := by
  simp [targetTrap, hz, aligned_iff, ha, trap, Cause.code]
theorem targetTrap_access (hz : x.2 = false) (ha : x.1.toNat % 4 = 0) (hr : 2 ^ 56 ≤ x.1.toNat) : targetTrap x = some ⟨0x07, 0⟩ := by
  simp [targetTrap, hz, aligned_iff, ha, inRange_iff, -Nat.reducePow, Nat.not_lt.2 hr, trap, Cause.code]
theorem targetTrap_none (hz : x.2 = false) (ha : x.1.toNat % 4 = 0) (hr : x.1.toNat < 2 ^ 56) : targetTrap x = none := by
  simp [targetTrap, hz, aligned_iff, ha, inRange_iff, -Nat.reducePow, hr]

end Target

/-! ### The return from the handler (R261) -/

/-- Where nothing runs the handler and no path is queued for it, none enters. -/
theorem handlerNext_none {s : State} {gk : Nat} {g : Grp} (hg : s.grp gk = some g) (hq : ∀ k, k < 8 → (g.path k).st ≠ .parked) :
    s.handlerNext gk = s := by
  unfold State.handlerNext
  simp only [hg]
  split
  · rfl
  · rw [List.filter_eq_nil_iff.2 fun k hk => ?_]
    · rfl
    · have := hq k (List.mem_range.1 hk)
      split <;> simp [this]

/-- The only path of a group that is not free returns from the handler. -/
theorem handlerReturn_alone {s : State} {gk pi : Nat} {g : Grp} (hg : s.grp gk = some g) (hpi : pi < g.paths.length)
    (hfree : ∀ k, k < 8 → k ≠ pi → (g.path k).st = .free) (hlive : (g.path pi).st = .live) :
    s.handlerReturn gk pi = s.setGrp gk (Path.set g pi { g.path pi with hnd := false }) := by
  rw [State.handlerReturn, State.updPath_some hg]
  refine handlerNext_none (State.grp_setGrp ..) fun k hk => ?_
  by_cases h : k = pi
  · subst h
    simp [hpi, hlive]
  · simp [Path.set_path_ne _ _ h, hfree k hk h]

/-! ### The uniform transfers -/

section Jmps
variable {st : BitVec 3} {a : BitVec 7} {s : State} {e : Env} (h : s.env = some e) (hc : e.issueTrap (.jmps st a) = none)
include h hc

theorem exec_jmps_trap {t : Trap} (ht : targetTrap (e.upair a) = some t) : exec (.jmps st a) s = .next (e.trapAll t) := by
  rw [show exec (.jmps st a) s = execJmps st a s from rfl, execJmps, issueWith_clear h hc]
  simp only [ht]

theorem exec_jmps_goes (ht : targetTrap (e.upair a) = none) : exec (.jmps st a) s = .next
    (if e.p.hnd then (e.goesOn (.jmps st a) (e.upair a).1 e.g).handlerReturn e.gk e.pi else e.goesOn (.jmps st a) (e.upair a).1 e.g) := by
  rw [show exec (.jmps st a) s = execJmps st a s from rfl, execJmps, issueWith_clear h hc]
  simp only [ht, Env.finish_self h]

end Jmps

theorem exec_nop {st : BitVec 3} {s : State} {e : Env} (h : s.env = some e) (hc : e.issueTrap (.nop st) = none) :
    exec (.nop st) s = .next (e.goesOn (.nop st) (e.p.pc + 4) e.g) := by
  rw [show exec (.nop st) s = execNop st s from rfl, execNop, issueEffect_clear h hc rfl]
  exact congrArg _ (Env.finish_self h ..)

theorem exec_yield {st : BitVec 3} {s : State} {e : Env} (h : s.env = some e) (hc : e.issueTrap (.yield st) = none) : exec (.yield st) s =
    .next { e.goesOn (.yield st) (e.p.pc + 4) { e.g with age := s.seq, starve := 0, promoted := false } with seq := s.seq + 1 } := by
  obtain ⟨hs, -, hg, -, hp⟩ := State.env_eq_some h
  have effect : { s.updGrp e.gk fun g => { g with age := s.seq, starve := 0, promoted := false } with seq := s.seq + 1 } =
      ({ s with seq := s.seq + 1 } : State).setGrp e.gk { e.g with age := s.seq, starve := 0, promoted := false } := by
    rw [State.updGrp_some hg]
    rfl
  rw [show exec (.yield st) s = execYield st s from rfl, execYield, issueEffect_clear h hc (congrArg Except.ok effect),
    State.updPath_some (State.grp_setGrp ..), State.setGrp_setGrp, Env.nextPc, Env.goesOn, hs, hp]
  rfl

/-- Settles O15. -/
theorem uniformTransfers : Obligations.UniformTransfers := by
  unfold Obligations.UniformTransfers
  refine ⟨fun st off off' k n p s e h => ⟨exec_nop h, fun hc => ?br, fun hc => ?brq, fun hc => ?call, exec_yield h⟩,
    fun st a s e h hc => ⟨fun hz => exec_jmps_trap h hc (targetTrap_poison hz), fun hz ha => exec_jmps_trap h hc (targetTrap_misalign hz ha),
      fun hz ha hr => exec_jmps_trap h hc (targetTrap_access hz ha hr), fun hz ha hr hh => ?goes, fun hz ha hr hh hfree _ hpi hlen hlive => ?ret⟩⟩
  case br =>
    rw [show exec (.br st off) s = execBr st off s from rfl, execBr, issueWith_clear h hc, Env.finish_self h, Env.relative]
  case brq =>
    rw [show exec (.brq st off' k n p) s = execBrq st off' k n p s from rfl, execBrq, issueWith_clear h hc, Env.finish_self h]
    rfl
  case call => exact issueUniformTo_clear h hc rfl BitVec.zero_and
  case goes =>
    rw [exec_jmps_goes h hc (targetTrap_none hz ha hr), if_neg (by simp [hh])]
  case ret =>
    have hlt : e.pi < e.g.paths.length := hlen ▸ hpi
    have hpath := Path.set_path_self (e.advance (.jmps st a) (e.upair a).1 e.p) hlt
    rw [exec_jmps_goes h hc (targetTrap_none hz ha hr), if_pos hh, Env.goesOn, handlerReturn_alone (State.grp_setGrp ..) (by simpa [Path.set] using hlt)
      (fun k hk hne => (congrArg Path.st (Path.set_path_ne _ _ hne)).trans (hfree k hk hne)) ((congrArg Path.st hpath).trans hlive), hpath,
      State.setGrp_setGrp, Path.set_set, (State.env_eq_some h).1]

/-! ### Taking a trap -/

/-- Where no path of the group runs the handler and there is one, the path enters it (R260). -/
theorem trapEntry_enters {s : State} {gk pi : Nat} {g : Grp} {b : Blk} (hg : s.grp gk = some g) (hb : s.blk g.blk = some b)
    (htv : (s.ctx b.ctx).tvec ≠ 0) (hpi : (g.path pi).hnd = false) (free : g.inHandler = false) (t : Trap) (m : Mask) (va : Nat) :
    s.trapEntry gk pi t m va = (s.orderPaths gk (g.path pi).mask false).setGrp gk
      ((Path.set g pi ((g.path pi).enter (s.ctx b.ctx).tvec (max s.clock (g.fixedUntil (g.path pi).mask)))).writeTrap t (g.path pi).pc m) := by
  simp only [State.trapEntry, hg, hb, hpi, beq_false_of_ne htv, free, Bool.false_eq_true, if_false]

/-- Settles O19. -/
theorem trapEntry : Obligations.TrapEntry := by
  unfold Obligations.TrapEntry
  intro s gk pi g b t m va hg hb htv hhnd hsp hcause hinfo hpi
  have hpath : g.path pi ∈ g.paths := by
    rw [Grp.path, List.getD_eq_getElem _ _ hpi]
    exact List.getElem_mem hpi
  rw [trapEntry_enters hg hb htv (hhnd _ hpath) (Grp.inHandler_eq_false (fun p hp _ => hhnd p hp) hsp)]
  have self := Path.set_path_self ((g.path pi).enter (s.ctx b.ctx).tvec (max s.clock (g.fixedUntil (g.path pi).mask))) hpi
  have cause : t.cause % 256 + 256 * (t.info % 2 ^ 16) = t.cause + 256 * t.info := by
    rw [Nat.mod_eq_of_lt hcause, Nat.mod_eq_of_lt hinfo]
  exact ⟨_, State.grp_setGrp .., congrArg (BitVec.ofNat 32) cause, rfl, rfl, congrArg Path.st self, congrArg Path.hnd self, congrArg Path.pc self,
    (congrArg Path.mask self).trans rfl, fun k hk => Path.set_path_ne _ _ hk, rfl, rfl, rfl, rfl, rfl, rfl, rfl, rfl, rfl, rfl,
    fun k hk => State.grp_setGrp_ne _ _ hk⟩

end Sys2Proof.Machine
end

section
/-! PROOFS. The checks of R34: every instruction of the two sets makes them before all else, and their order for IADD. -/
namespace Sys2Proof.Machine
open Sys2Proof Host

/-- Every instruction of the two sets makes the checks of R34 first, and has its effect after them. -/
theorem exec_eq_issueWith {i : Instr} {f : Fields} (hf : i.fields = some f) (ha : ∀ w, i ≠ .unassignedOpcode w) {s : State} {e : Env}
    (h : s.env = some e) : ∃ body, exec i s = issueWith i body s := by
  cases i
  case unassignedOpcode w => exact absurd rfl (ha w)
  case ldpoll stl d a size sign scope subop off | ldpollU stl d a size sign scope subop off =>
    by_cases hp : subop = 1
    · exact ⟨_, if_pos hp⟩
    · exact ⟨_, if_neg hp⟩
  case tdraw stl d a b tree strat keyed vchk =>
    change ∃ body, execTdraw stl d a b tree strat keyed vchk s = issueWith _ body s
    simp only [execTdraw, h]
    exact ⟨_, rfl⟩
  case tins stl d a tree =>
    change ∃ body, execTins stl d a tree s = issueWith _ body s
    simp only [execTins, h]
    exact ⟨_, rfl⟩
  all_goals cases hf
  all_goals exact ⟨_, rfl⟩

/-! ### IADD -/

/-- A vector operand is inside the allotment, and its index register, where it has one, in range (R33). -/
def Env.vectorInBounds (e : Env) (f : BitVec 7) : Bool := e.g.idxOk f && allotted e.g e.b (e.g.num f)

theorem Env.vectorInBounds_iff {e : Env} {f : BitVec 7} :
    e.vectorInBounds f = true ↔ e.g.idxOk f = true ∧ allotted e.g e.b (e.g.num f) = true := Bool.and_eq_true_iff

/-- The registers of the three operands are among those IADD reads or writes. -/
theorem mem_registers_iadd (st : BitVec 3) (d a b : BitVec 7) (e : Env) {r : DReg} (h : r = .v (e.g.num d) ∨ r = .v (e.g.num a) ∨ r = .v (e.g.num b)) :
    r ∈ e.reads (.iadd st d a b) ++ writtenRegs e.g (.iadd st d a b) := by
  have ops : operands (.iadd st d a b) = [.lane d 1 1 false true, .lane a 1 1 true false, .lane b 1 1 true false] := rfl
  simp only [Env.reads, readRegs, writtenRegs, ops]
  rcases h with rfl | rfl | rfl <;> simp [Opnd.isRead, Opnd.isWritten, Opnd.regs]

theorem issueTrap_iadd (st : BitVec 3) (d a b : BitVec 7) (e : Env) : e.issueTrap (.iadd st d a b) =
    if !roleAllows (e.b.roles.getD e.g.gix 0) (false, 0) then some ⟨0x04, 0⟩
    else if !(e.vectorInBounds d && e.vectorInBounds a && e.vectorInBounds b) then some ⟨0x02, 0⟩
    else if e.b.checking && e.p.dist.any (fun q => (e.reads (.iadd st d a b) ++ writtenRegs e.g (.iadd st d a b)).contains q.reg) then some ⟨0x03, 0⟩
    else if (e.reads (.iadd st d a b)).any e.g.damaged.contains then some ⟨0x0B, 0⟩ else none := by
  have legal : fieldsLegal (.iadd st d a b) = true := rfl
  have odd : (operands (.iadd st d a b)).any (Opnd.oddQuad e.g) = false := rfl
  have bounds : (operands (.iadd st d a b)).all (Opnd.inBounds e.g e.b) = (e.vectorInBounds d && e.vectorInBounds a && e.vectorInBounds b) := by
    rw [show operands (.iadd st d a b) = [.lane d 1 1 false true, .lane a 1 1 true false, .lane b 1 1 true false] from rfl]
    simp [Opnd.inBounds, Opnd.regs, Env.vectorInBounds, Bool.and_assoc]
  have code : opcode (.iadd st d a b) = some (false, 0) := rfl
  unfold Env.issueTrap
  rw [legal, odd, bounds, code]
  simp only [Bool.not_true, Bool.or_self, Bool.false_eq_true, if_false, Bool.or_false, trap, Cause.code]

theorem roleAllows_iadd {r : Nat} : roleAllows r (false, 0) = true ↔ r = 0 ∨ r = 3 := by
  by_cases h : r = 0 <;> simp [roleAllows, h]

/-- Settles O18: the second part from `exec_eq_issueWith`, the third from the order of the tests in `issueTrap_iadd`. -/
theorem issueChecks : Obligations.IssueChecks := by
  unfold Obligations.IssueChecks
  refine ⟨fun w s e h => ?_, fun i s e t h hf ha ht => ?_, fun st d a b e => ?_⟩
  · rw [show exec (.unassignedOpcode w) s = execUnassignedOpcode w s from rfl, execUnassignedOpcode, h]
    rfl
  · obtain ⟨f, hf⟩ := Option.ne_none_iff_exists'.1 hf
    obtain ⟨body, hb⟩ := exec_eq_issueWith hf ha h
    rw [hb, issueWith_trap body h ht]
  · simp only [issueTrap_iadd, ← Env.vectorInBounds_iff]
    have admitted (h0 : e.b.roles.getD e.g.gix 0 = 0) : ¬(!roleAllows (e.b.roles.getD e.g.gix 0) (false, 0)) = true := by
      rw [roleAllows_iadd.2 (.inl h0)]
      exact Bool.false_ne_true
    refine ⟨fun h0 h3 => ?role, fun h0 hbad => ?bounds, fun h0 hd ha hb hc hq => ?stall, fun h0 hd ha hb hdist hdam => ?clear, fun c p hc => ?illop⟩
    case role =>
      rw [if_pos (by simpa only [Bool.not_eq_true', ← Bool.not_eq_true, roleAllows_iadd, not_or] using ⟨h0, h3⟩)]
    case bounds =>
      have out : (!(e.vectorInBounds d && e.vectorInBounds a && e.vectorInBounds b)) = true := by
        simpa only [Bool.not_eq_true', ← Bool.not_eq_true, Bool.and_eq_true, and_assoc] using hbad
      rw [if_neg (admitted h0), if_pos out]
    case stall =>
      obtain ⟨q, hq, hr⟩ := hq
      have early : (e.b.checking && e.p.dist.any fun q => (e.reads (.iadd st d a b) ++ writtenRegs e.g (.iadd st d a b)).contains q.reg) = true :=
        Bool.and_eq_true_iff.2 ⟨Bool.or_eq_true_iff.2 hc, List.any_eq_true.2 ⟨q, hq, List.contains_iff_mem.2 (mem_registers_iadd st d a b e hr)⟩⟩
      rw [if_neg (admitted h0), if_neg (by simp [hd, ha, hb]), if_pos early]
    case clear =>
      rw [if_neg (admitted h0), if_neg (by simp [hd, ha, hb]), if_neg (by simp [hdist]), if_neg (by simp [hdam])]
    case illop =>
      have illegal : fieldsLegal (.icmp st c p a b) = false := by
        rw [fieldsLegal, show codesLegal (.icmp st c p a b) = decide (c.toNat ≤ 9) from rfl, decide_eq_false (by omega), Bool.false_and]
      unfold Env.issueTrap
      rw [illegal]
      rfl

end Sys2Proof.Machine
end

section
/-! PROOFS. Loads that fail for all their threads (R54, R149, R386), and the first read of a poll that waits (R32, R161). -/
namespace Sys2Proof.Machine
open Sys2Proof Host

/-! ### Threads that fail with one trap, each with its address -/

/-- The failures of threads that meet one trap, thread `t` at the address `va t`. -/
def sameTrap (tr : Trap) (va : Nat → Nat) (ts : List Nat) : Fails := ts.map fun t => (t, tr, va t)

@[simp] theorem sameTrap_threads (tr : Trap) (va : Nat → Nat) (ts : List Nat) : (sameTrap tr va ts).map (·.1) = ts := by
  simp [sameTrap, Function.comp_def]

theorem sameTrap_filter (tr : Trap) (va : Nat → Nat) (ts : List Nat) :
    (sameTrap tr va ts).filter (fun f => f.2.1.cause == tr.cause) = sameTrap tr va ts := by
  refine List.filter_eq_self.2 fun f hf => ?_
  obtain ⟨t, -, rfl⟩ := List.mem_map.1 hf
  exact beq_self_eq_true _

theorem Fails.mask_sameTrap (tr : Trap) (va : Nat → Nat) (m : Mask) : Fails.mask (sameTrap tr va (threadsOf m)) = m := by
  rw [Fails.mask, sameTrap_threads, maskOf_threadsOf]

/-- All of them are named (R54). -/
theorem Fails.named_sameTrap (tr : Trap) (va : Nat → Nat) {m : Mask} (hm : m ≠ 0) : Fails.named (sameTrap tr va (threadsOf m)) = m := by
  obtain ⟨u, us, hus⟩ := List.exists_cons_of_ne_nil (threadsOf_ne_nil hm)
  calc Fails.named (sameTrap tr va (threadsOf m))
      = maskOf (((sameTrap tr va (threadsOf m)).filter fun f => f.2.1.cause == tr.cause).map (·.1)) := by rw [hus]; rfl
    _ = m := by rw [sameTrap_filter, sameTrap_threads, maskOf_threadsOf]

/-- The trap of an instruction all active threads of which fail: for all of them, at the lowest of their addresses (R54, R386). -/
theorem Env.finishAs_sameTrap (e : Env) (mk : Path → Path) (tr : Trap) (va : Nat → Nat) (s1 : State) (hm : e.p.mask ≠ 0) :
    e.finishAs mk (sameTrap tr va (threadsOf e.p.mask)) s1 =
      s1.trapEntry e.gk e.pi tr e.p.mask (lowestVa (sameTrap tr va (threadsOf e.p.mask))) := by
  obtain ⟨u, us, hus⟩ := List.exists_cons_of_ne_nil (threadsOf_ne_nil hm)
  have hcons : sameTrap tr va (threadsOf e.p.mask) = (u, tr, va u) :: sameTrap tr va us := by rw [hus]; rfl
  have hthr : maskOf (((u, tr, va u) :: sameTrap tr va us).map (·.1)) = e.p.mask := by rw [← hcons, sameTrap_threads, maskOf_threadsOf]
  have hall : ((u, tr, va u) :: sameTrap tr va us).filter (fun f => f.2.1.cause == tr.cause) = (u, tr, va u) :: sameTrap tr va us := by
    rw [← hcons, sameTrap_filter]
  rw [hcons]
  simp only [Env.finishAs, hall, hthr, and_not_self', if_true]

/-- The lowest address of a list of failures that is not empty is the address of one of them, and none is lower. -/
theorem lowestVa_spec {fails : Fails} (h : fails ≠ []) : (∃ f ∈ fails, lowestVa fails = f.2.2) ∧ ∀ f ∈ fails, lowestVa fails ≤ f.2.2 := by
  have fold : ∀ (l : Fails) (m : Nat),
      (l.foldl (fun m x => min m x.2.2) m = m ∨ ∃ f ∈ l, l.foldl (fun m x => min m x.2.2) m = f.2.2)
      ∧ l.foldl (fun m x => min m x.2.2) m ≤ m ∧ ∀ f ∈ l, l.foldl (fun m x => min m x.2.2) m ≤ f.2.2 := by
    intro l
    induction l with
    | nil => intro m; simp
    | cons x l ih =>
      intro m
      obtain ⟨hat, hle, hall⟩ := ih (min m x.2.2)
      simp only [List.foldl_cons, List.mem_cons, forall_eq_or_imp, exists_eq_or_imp]
      refine ⟨?_, by omega, by omega, hall⟩
      rcases hat with hat | hat
      · rw [hat]; omega
      · exact .inr (.inr hat)
  cases fails with
  | nil => exact absurd rfl h
  | cons f l =>
    obtain ⟨hat, hle, hall⟩ := fold l f.2.2
    simp only [lowestVa, List.mem_cons, exists_eq_or_imp, forall_eq_or_imp]
    exact ⟨hat, hle, hall⟩

theorem lowestVa_sameTrap (tr : Trap) (va : Nat → Nat) {ts : List Nat} (h : ts ≠ []) :
    (∃ t ∈ ts, lowestVa (sameTrap tr va ts) = va t) ∧ ∀ t ∈ ts, lowestVa (sameTrap tr va ts) ≤ va t := by
  obtain ⟨⟨f, hf, hlow⟩, hle⟩ := lowestVa_spec (fails := sameTrap tr va ts) (by simpa [sameTrap] using h)
  obtain ⟨t, ht, rfl⟩ := List.mem_map.1 hf
  exact ⟨⟨t, ht, hlow⟩, fun u hu => hle _ (List.mem_map_of_mem hu)⟩

/-! ### Checks of the threads that all answer alike -/

theorem okParts_error (ts : List Nat) (f : Nat → Trap × Nat) : okParts (ts.map fun t => (t, Except.error (f t))) = [] := by
  simp [okParts, List.filterMap_map]

theorem okParts_ok (ts : List Nat) (ps : Nat → List Part) : okParts (ts.map fun t => (t, Except.ok (ps t))) = ts.map fun t => (t, ps t) := by
  simp [okParts, List.filterMap_map]

theorem Env.memFails_error (e : Env) (tr : Trap) (va : Nat → Nat) (ts : List Nat) :
    e.memFails false (ts.map fun t => (t, Except.error (tr, va t))) = sameTrap tr va ts := by
  simp [Env.memFails, sameTrap, List.filterMap_map]

theorem Env.memFails_ok (e : Env) (uni : Bool) (ps : Nat → List Part) (ts : List Nat) :
    e.memFails uni (ts.map fun t => (t, Except.ok (ps t))) = [] := by
  cases uni <;> simp [Env.memFails, List.filterMap_map]

theorem Env.memThreads_ne_nil {e : Env} (uni : Bool) (hm : e.p.mask ≠ 0) : e.memThreads uni ≠ [] := by
  cases uni with
  | true => simp [Env.memThreads]
  | false => exact threadsOf_ne_nil hm

/-! ### A load that fails for all threads -/

/-- A load on v registers each thread of which fails with one trap (R54, R149). -/
theorem execLoad_allTrap {s : State} {e : Env} {i : Instr} {d a : BitVec 7} {size : BitVec 3} {sign : BitVec 1} {scope : BitVec 3} {off : BitVec 20}
    {tr : Trap} {va : Nat → Nat} (h : s.env = some e) (hc : e.issueTrap i = none) (hm : e.p.mask ≠ 0)
    (hf : ∀ t ∈ threadsOf e.p.mask, e.memCheck i false (e.ea false a off t) (sizeBytes size) .read false false t = .error (tr, va t)) :
    execLoad i false .load d a size sign scope off s =
      .next ((s.setGrp e.gk (e.seeChorusBut i e.p.mask e.p.mask e.g)).trapEntry e.gk e.pi tr e.p.mask
        (lowestVa (sameTrap tr va (threadsOf e.p.mask)))) := by
  obtain ⟨-, -, hg, -, -⟩ := State.env_eq_some h
  have hrs : (e.memThreads false).map (fun t => (t, (e.memCheck i false (e.ea false a off t) (sizeBytes size) .read false false t).bind fun ps => Except.ok ps))
      = (threadsOf e.p.mask).map fun t => (t, Except.error (tr, va t)) :=
    List.map_congr_left fun t ht => by rw [hf t ht]; rfl
  rw [execLoad, issueWith_clear h hc]
  simp only [hrs, okParts_error, Env.memFails_error, List.isEmpty_nil, if_true, Bool.false_eq_true, if_false, Env.finish,
    Env.finishAs_sameTrap e _ _ _ _ hm, State.updGrp_some hg, Env.seeFails, Fails.mask_sameTrap, Fails.named_sameTrap _ _ hm]
  nofun

/-! ### The first read of a poll -/

/-- A poll's read changes nothing but the sequence, the loads and the requests on their way. -/
theorem Env.sendPoll_grp (e : Env) (s : State) (poll : Poll) (oks : List (Nat × List Part)) (k : Nat) :
    (e.sendPoll s poll oks).grp k = s.grp k := rfl

/-- What LDPOLL.Y sees of its destination when it first reads (R161). -/
def Env.firstPoll (e : Env) (uni : Bool) (d a : BitVec 7) (size : BitVec 3) (sign : BitVec 1) (scope : BitVec 3) (off : BitVec 20) : Poll :=
  { op := e.s.seq, bytes := sizeBytes size, sign := sign == 1, scope := scope.toNat, dest := dataBase e.g uni d size, uni := uni
    eas := (e.memThreads uni).map fun t => (t, (e.ea uni a off t).1.toNat)
    last := (e.memThreads uni).map fun t => (t, dataNat (e.dataRegs uni d size t)) }

/-- LDPOLL.Y whose threads all pass their checks: one read is sent, and the path parks (R161). -/
theorem execPoll_parks {s : State} {e : Env} {i : Instr} {uni : Bool} {d a : BitVec 7} {size : BitVec 3} {sign : BitVec 1} {scope : BitVec 3}
    {off : BitVec 20} {ps : Nat → List Part} (h : s.env = some e) (hc : e.issueTrap i = none) (hm : e.p.mask ≠ 0)
    (hok : e.MemOk i uni a off (sizeBytes size) .read false false ps) :
    let poll := e.firstPoll uni d a size sign scope off
    execPoll i uni d a size sign scope off s =
      .next ((e.sendPoll (s.setGrp e.gk (e.seeChorus i e.g)) poll ((e.memThreads uni).map fun t => (t, ps t))).updPath e.gk e.pi
        (e.parked i (.ldpoll s.clock 0 poll))) := by
  intro poll
  obtain ⟨hs, -, hg, -, -⟩ := State.env_eq_some h
  have hrs : (e.memThreads uni).map (fun t => (t, e.memCheck i uni (e.ea uni a off t) (sizeBytes size) .read false false t))
      = (e.memThreads uni).map fun t => (t, Except.ok (ps t)) :=
    List.map_congr_left fun t ht => by rw [hok t ht]
  have hne : ((e.memThreads uni).map fun t => (t, ps t)).isEmpty = false := by simp [Env.memThreads_ne_nil uni hm]
  rw [execPoll, issueWith_clear h hc]
  simp only [hrs, okParts_ok, Env.memFails_ok, hne, Bool.false_eq_true, if_false, Env.finishAs, State.updGrp_some hg, Env.seeFails_nil,
    List.map_map, Function.comp_def, poll, Env.firstPoll, hs]

/-- What a poll's first read leaves: its registers are not written, nor pending; its path waits for a value that differs (R32, R161). -/
theorem execPoll_waits {s : State} {e : Env} {i : Instr} {uni : Bool} {d a : BitVec 7} {size : BitVec 3} {sign : BitVec 1} {scope : BitVec 3}
    {off : BitVec 20} {ps : Nat → List Part} (h : s.env = some e) (hpi : e.pi < e.g.paths.length) (hc : e.issueTrap i = none) (hm : e.p.mask ≠ 0)
    (hok : e.MemOk i uni a off (2 ^ size.toNat) .read false false ps) :
    ∃ t g' poll, execPoll i uni d a size sign scope off s = .next t ∧ t.grp e.gk = some g'
      ∧ g'.path e.pi = { e.advance i e.p.pc e.p with st := .parked, wait := .ldpoll s.clock 0 poll, resume := e.nextPc i }
      ∧ poll.last = (e.memThreads uni).map (fun t => (t, dataNat (e.dataRegs uni d size t)))
      ∧ g'.SameRegs (e.seeChorus i e.g) ∧ g'.pend = e.g.pend ∧ t.SameBut s e.gk := by
  obtain ⟨-, -, -, -, hp⟩ := State.env_eq_some h
  let poll := e.firstPoll uni d a size sign scope off
  have hpath : (e.seeChorus i e.g).path e.pi = e.p := by rw [hp]; exact Grp.path_of_paths (Env.seeChorus_paths ..) _
  have hlen : e.pi < (e.seeChorus i e.g).paths.length := by rwa [Env.seeChorus_paths]
  refine ⟨_, Path.set (e.seeChorus i e.g) e.pi (e.parked i (.ldpoll s.clock 0 poll) e.p), poll, execPoll_parks h hc hm hok, ?_, ?_, rfl, ?_, ?_, ?_⟩
  · rw [State.updPath_some (by rw [Env.sendPoll_grp, State.grp_setGrp]), State.grp_setGrp, hpath]
  · rw [Path.set_path_self _ hlen]; rfl
  · exact ⟨rfl, rfl, rfl, rfl, rfl, rfl, rfl, rfl, rfl, rfl, rfl, rfl, rfl⟩
  · exact Env.seeChorus_pend ..
  · rw [State.updPath_some (by rw [Env.sendPoll_grp, State.grp_setGrp])]
    refine ⟨rfl, rfl, rfl, rfl, rfl, rfl, rfl, rfl, rfl, fun k hk => ?_⟩
    rw [State.grp_setGrp_ne _ _ hk, Env.sendPoll_grp, State.grp_setGrp_ne _ _ hk]

/-- Settles O26: a load all threads of which fail alike traps once, at the lowest address, and LDPOLL.Y reads once and parks. -/
theorem loadTrapsAndPolls : Obligations.LoadTrapsAndPolls := by
  unfold Obligations.LoadTrapsAndPolls
  constructor
  · intro st d a size sign scope subop off s e tr va h hm i hc hf
    obtain ⟨hat, hle⟩ := lowestVa_sameTrap tr va (threadsOf_ne_nil hm)
    exact ⟨_, execLoad_allTrap h hc hm hf, hat, hle⟩
  · intro st d a size sign scope off s e ps h hpi hm polls
    exact ⟨fun hc hok => execPoll_waits h hpi hc hm hok, fun hc hok => execPoll_waits h hpi hc hm hok⟩

end Sys2Proof.Machine
end

section
/-! PROOFS. Floating-point compares and conversions: what the instructions answer (R41, R126, R128 to R132, R145), and what a compare says of
the values compared (R126). -/
namespace Sys2Proof.Machine
open Sys2Proof Host

/-! ### Lane and uniform instructions by what they do for a thread -/

/-- Of the results of a lane instruction, those of the active threads count. -/
theorem Env.laneDone_congr (e : Env) (i : Instr) (lat : Nat) {vw vw' : Nat → List (Nat × RegVal)} {pw pw' : Nat → List (Nat × Bool)} {fl fl' : Nat → Flags} (sr : Bool)
    (hv : ∀ t ∈ threadsOf e.p.mask, vw t = vw' t) (hp : ∀ t ∈ threadsOf e.p.mask, pw t = pw' t) (hf : ∀ t ∈ threadsOf e.p.mask, fl t = fl' t) :
    e.laneDone i lat vw pw fl sr = e.laneDone i lat vw' pw' fl' sr := by
  have hfix : e.laneFix lat vw pw fl = e.laneFix lat vw' pw' fl' := by
    have hvs := List.flatMap_congr (l := threadsOf e.p.mask) fun t ht => congrArg (List.map fun w : Nat × RegVal => (128 * w.1 + t, w.2)) (hv t ht)
    have hps := List.flatMap_congr (l := threadsOf e.p.mask) fun t ht => congrArg (List.map fun w : Nat × Bool => (128 * w.1 + t, w.2)) (hp t ht)
    have hfs := List.foldl_ext (fun f t => f ||| fl t) (fun f t => f ||| fl' t) (0 : Flags) (l := threadsOf e.p.mask) fun f t ht => by rw [hf t ht]
    simp only [Env.laneFix, hvs, hps, hfs]
  rw [Env.laneDone, hfix, Env.laneDone]

/-- A lane instruction that does the same for every active thread, and raises no enabled flag. -/
theorem laneGives_of {i : Instr} {f : Env → Nat → TRes} {ok : Env → Prop} {vw : Env → Nat → List (Nat × RegVal)} {pw : Env → Nat → List (Nat × Bool)}
    {fl : Env → Nat → Flags} {sr : Bool} (hexec : ∀ s, exec i s = issueLane i f s) (hr : ∀ stl d a t, i ≠ .rdlane stl d a t)
    (hf : ∀ e, ok e → Quiet fl e ∧ ∀ t ∈ threadsOf e.p.mask, f e t = { vw := vw e t, pw := pw e t, fl := fl e t, srn := sr }) :
    LaneGives i (fixedLatency i) ok vw pw fl sr := by
  intro s e h hc hok
  obtain ⟨hq, hres⟩ := hf e hok
  rw [hexec, issueLane_clear h hc hr (sr := sr) (fun t ht => by rw [hres t ht]; exact ⟨rfl, hq t ht⟩) fun t ht => by rw [hres t ht]]
  exact congrArg _ (e.laneDone_congr i _ sr (fun t ht => by rw [hres t ht]) (fun t ht => by rw [hres t ht]) fun t ht => by rw [hres t ht])

/-- A uniform instruction that writes no special register, and raises no enabled flag. -/
theorem uniGives_of {i : Instr} {f : Env → URes} {ok : Env → Prop} {sw : Env → List (Nat × RegVal)} {qw : Env → List (Nat × Bool)} {fl : Env → Flags}
    {sr : Bool} (hexec : ∀ s, exec i s = issueUniform i f s)
    (hf : ∀ e, ok e → UniQuiet fl e ∧ f e = { sw := sw e, qw := qw e, fl := fl e, srn := sr }) :
    UniGives i (fixedLatency i) ok sw qw (fun _ => []) fl sr (fun _ => none) := by
  intro s e h hc hok
  obtain ⟨hq, hres⟩ := hf e hok
  rw [hexec, issueUniform_clear h hc (by rw [hres]) (by rw [hres]; exact hq), hres]
  rfl

/-! ### Compares as instructions (R126, R132) -/

section Compare
variable {fmt : Fmt} {c : BitVec 4} {p : BitVec 3} {x y : Nat × Bool}

theorem cmpRes_clean (hx : x.2 = false) (hy : y.2 = false) :
    cmpRes fmt c p x y = { pw := [(p.toNat, (fCmp fmt c.toNat x.1 y.1).1)], fl := (fCmp fmt c.toNat x.1 y.1).2 } := by
  simp [cmpRes, hx, hy]
theorem cmpURes_clean (hx : x.2 = false) (hy : y.2 = false) :
    cmpURes fmt c p x y = { qw := [(p.toNat, (fCmp fmt c.toNat x.1 y.1).1)], fl := (fCmp fmt c.toNat x.1 y.1).2 } := by
  simp [cmpURes, hx, hy]
theorem cmpRes_poison (h : x.2 = true ∨ y.2 = true) : cmpRes fmt c p x y = { err := some ⟨0x0B, 0⟩ } := by
  rcases h with h | h <;> simp [cmpRes, h, trap, Cause.code]

end Compare

/-- The compares write the predicate of their condition and raise the flags of the comparison. -/
theorem compares_give (st : BitVec 3) (c : BitVec 4) (p : BitVec 3) (a b : BitVec 7) :
    let clean := fun (e : Env) => ∀ u ∈ threadsOf e.p.mask, (e.vec a u).poison = false ∧ (e.vec b u).poison = false
    let clean2 := fun (e : Env) => ∀ u ∈ threadsOf e.p.mask, (e.pair a u).2 = false ∧ (e.pair b u).2 = false
    let R := fun (e : Env) u => fCmp .fp32 c.toNat (e.vec a u).val.toNat (e.vec b u).val.toNat
    let R2 := fun (e : Env) u => fCmp .fp64 c.toNat (e.pair a u).1.toNat (e.pair b u).1.toNat
    let U := fun (e : Env) => fCmp .fp32 c.toNat (e.uni a).val.toNat (e.uni b).val.toNat
    let U2 := fun (e : Env) => fCmp .fp64 c.toNat (e.upair a).1.toNat (e.upair b).1.toNat
    LaneGives (.fcmp st c p a b) 3 (fun e => clean e ∧ Quiet (fun e u => (R e u).2) e) (fun _ _ => []) (fun e u => [(p.toNat, (R e u).1)])
      (fun e u => (R e u).2) false
    ∧ LaneGives (.dcmp st c p a b) 15 (fun e => clean2 e ∧ Quiet (fun e u => (R2 e u).2) e) (fun _ _ => []) (fun e u => [(p.toNat, (R2 e u).1)])
      (fun e u => (R2 e u).2) false
    ∧ UniGives (.fcmpU st c p a b) 4 (fun e => ((e.uni a).poison = false ∧ (e.uni b).poison = false) ∧ UniQuiet (fun e => (U e).2) e) (fun _ => [])
      (fun e => [(p.toNat, (U e).1)]) (fun _ => []) (fun e => (U e).2) false (fun _ => none)
    ∧ UniGives (.dcmpU st c p a b) 4 (fun e => ((e.upair a).2 = false ∧ (e.upair b).2 = false) ∧ UniQuiet (fun e => (U2 e).2) e) (fun _ => [])
      (fun e => [(p.toNat, (U2 e).1)]) (fun _ => []) (fun e => (U2 e).2) false (fun _ => none) :=
  ⟨laneGives_of (fun _ => rfl) nofun fun _ ⟨hc, hq⟩ => ⟨hq, fun t ht => cmpRes_clean (hc t ht).1 (hc t ht).2⟩,
    laneGives_of (fun _ => rfl) nofun fun _ ⟨hc, hq⟩ => ⟨hq, fun t ht => cmpRes_clean (hc t ht).1 (hc t ht).2⟩,
    uniGives_of (fun _ => rfl) fun _ ⟨hc, hq⟩ => ⟨hq, cmpURes_clean hc.1 hc.2⟩,
    uniGives_of (fun _ => rfl) fun _ ⟨hc, hq⟩ => ⟨hq, cmpURes_clean hc.1 hc.2⟩⟩

/-- A poisoned source traps POISON. -/
theorem compares_trap (st : BitVec 3) (c : BitVec 4) (p : BitVec 3) (a b : BitVec 7) :
    AllTrap (.fcmp st c p a b) ⟨0x0B, 0⟩ (fun e u => (e.vec a u).poison = true ∨ (e.vec b u).poison = true)
    ∧ AllTrap (.dcmp st c p a b) ⟨0x0B, 0⟩ (fun e u => (e.pair a u).2 = true ∨ (e.pair b u).2 = true) :=
  ⟨fun _ _ h hc hm hb => issueLane_allTrap h hc nofun hm (by decide) fun t ht => cmpRes_poison (hb t ht),
    fun _ _ h hc hm hb => issueLane_allTrap h hc nofun hm (by decide) fun t ht => cmpRes_poison (hb t ht)⟩

/-! ### What a compare says of the values (R41, R126) -/

/-- A value that is a number, a zero of either sign among them, as the compares see it. -/
theorem FVal.key_num {v : FVal} {r : Rat} (h : v = .num r ∨ (r = 0 ∧ ∃ sg, v = .zero sg)) : v.isNan = false ∧ v.key.1 = 0 ∧ v.key.2.1 = r := by
  rcases h with rfl | ⟨rfl, sg, rfl⟩ <;> exact ⟨rfl, rfl, rfl⟩

/-- Compared numbers: the conditions of R41 are those of their exact values. -/
theorem fCmp_numbers (fmt : Fmt) (x y : Nat) (p q : Rat) (hx : fmt.value x = .num p ∨ (p = 0 ∧ ∃ sg, fmt.value x = .zero sg))
    (hy : fmt.value y = .num q ∨ (q = 0 ∧ ∃ sg, fmt.value y = .zero sg)) :
    (fCmp fmt 0 x y).1 = decide (p = q) ∧ (fCmp fmt 1 x y).1 = decide (p ≠ q) ∧ (fCmp fmt 2 x y).1 = decide (p < q)
    ∧ (fCmp fmt 3 x y).1 = decide (p ≤ q) ∧ (fCmp fmt 4 x y).1 = decide (q < p) ∧ (fCmp fmt 5 x y).1 = decide (q ≤ p)
    ∧ (fCmp fmt 10 x y).1 = true ∧ (fCmp fmt 11 x y).1 = false ∧ (fCmp fmt 12 x y).1 = decide (p = q) ∧ (fCmp fmt 13 x y).1 = decide (p ≠ q) := by
  obtain ⟨hnx, hx1, hx2⟩ := FVal.key_num hx
  obtain ⟨hny, hy1, hy2⟩ := FVal.key_num hy
  simp only [fCmp, hnx, hny, hx1, hx2, hy1, hy2, lt_self_iff_false, decide_false, beq_self_eq_true, Bool.true_and, Bool.or_self, Bool.not_false,
    Bool.false_or, true_and]
  rcases lt_trichotomy p q with hlt | rfl | hgt
  · simp [hlt, hlt.le, hlt.ne, hlt.not_gt, hlt.not_ge]
  · simp
  · simp [hgt, hgt.le, hgt.ne', hgt.not_gt, hgt.not_ge]

/-- Against a NaN only the unordered conditions hold. -/
theorem fCmp_nan (fmt : Fmt) (c x y : Nat) (sn : Bool) (h : fmt.value x = .nan sn ∨ fmt.value y = .nan sn) :
    (fCmp fmt c x y).1 = decide (c = 11 ∨ c = 12 ∨ c = 13) := by
  have hun : ((fmt.value x).isNan || (fmt.value y).isNan) = true := by
    rcases h with h | h <;> simp [h, FVal.isNan]
  simp only [fCmp, hun]
  split <;> simp_all

theorem FVal.isSNan_iff {v : FVal} : v.isSNan = true ↔ v = .nan true := by cases v <;> simp [FVal.isSNan]
theorem FVal.isNan_iff {v : FVal} : v.isNan = true ↔ v = .nan true ∨ v = .nan false := by
  cases v with
  | nan s => cases s <;> simp [FVal.isNan]
  | _ => simp [FVal.isNan]

/-- A compare raises IV where its condition says so; SI is another bit. -/
theorem fIV_or_siOf (iv : Bool) (fmt : Fmt) (xs : List Nat) : ((if iv then fIV else 0) ||| siOf fmt xs) &&& fIV ≠ 0 ↔ iv = true := by
  unfold siOf
  cases iv <;> cases xs.any (Fmt.subnormal fmt) <;> decide

/-- IV is raised for a signalling NaN, and for any NaN by LT, LE, GT and GE. -/
theorem fCmp_iv (fmt : Fmt) (c x y : Nat) : (fCmp fmt c x y).2 &&& fIV ≠ 0 ↔
    (fmt.value x = .nan true ∨ fmt.value y = .nan true) ∨ (2 ≤ c ∧ c ≤ 5 ∧ (fmt.value x = .nan false ∨ fmt.value y = .nan false)) := by
  simp only [fCmp]
  rw [fIV_or_siOf]
  by_cases hc : 2 ≤ c ∧ c ≤ 5
  · simp only [hc, and_self, if_true, Bool.or_eq_true, FVal.isNan_iff]
    tauto
  · simp only [hc, if_false, Bool.or_eq_true, FVal.isSNan_iff]
    tauto

/-! ### Conversions, rounding to integral values and classes as instructions (R128 to R132, R145) -/

/-- A number written to consecutive registers: the words of it, lowest first. -/
theorem wrWide_eq (r : Nat) (z : Bool) (n x : Nat) :
    wrWide r z n x = (List.range n).map fun k => (r + k, ⟨BitVec.ofNat 32 (x / 2 ^ (32 * k)), z⟩) := by
  induction n generalizing r x with
  | zero => rfl
  | succ n ih =>
    rw [wrWide, ih, List.range_succ_eq_map, List.map_cons, List.map_map]
    congr 1
    · simp [w32]
    · refine List.map_congr_left fun k _ => ?_
      simp only [Function.comp_apply, Nat.succ_eq_add_one, Nat.div_div_eq_div_mul, ← pow_add]
      ring_nf

/-- A lane instruction with one FP32 source. -/
theorem laneF32_of {i : Instr} {d a : BitVec 7} {sr : Bool} {r : Env → Nat → Nat × Flags} {f : Env → Nat → TRes}
    (hexec : ∀ s, exec i s = issueLane i f s) (hr : ∀ stl d a t, i ≠ .rdlane stl d a t) (hlat : fixedLatency i = 6)
    (hf : ∀ e t, f e t = { vw := [(e.g.num d, ⟨w32 (r e t).1, (e.vec a t).poison⟩)], fl := (r e t).2, srn := sr }) : LaneF32 i d [a] sr r := by
  rw [LaneF32, ← hlat]
  exact laneGives_of hexec hr fun e hq => ⟨hq, fun t _ => by rw [hf, List.any_cons, List.any_nil, Bool.or_false]; rfl⟩

/-- A uniform instruction with one FP32 source. -/
theorem uniF32_of {i : Instr} {d a : BitVec 7} {sr : Bool} {r : Env → Nat × Flags} {f : Env → URes}
    (hexec : ∀ s, exec i s = issueUniform i f s) (hlat : fixedLatency i = 4)
    (hf : ∀ e, f e = { sw := [(d.toNat, ⟨w32 (r e).1, (e.uni a).poison⟩)], fl := (r e).2, srn := sr }) : UniF32 i d [a] sr r := by
  rw [UniF32, ← hlat]
  exact uniGives_of hexec fun e hq => ⟨hq, by rw [hf, List.any_cons, List.any_nil, Bool.or_false]; rfl⟩

/-- FCVT, FRND and FCLASS of both sets. -/
theorem conversions32_give (st : BitVec 3) (d a : BitVec 7) (c : BitVec 4) (m : BitVec 3) :
    LaneF32 (.fcvt st d a c m) d [a] (m == 5) (fun e t => fcvtOp c (convMode e m t 0) (e.vec a t).val.toNat)
    ∧ UniF32 (.fcvtU st d a c m) d [a] (m == 5) (fun e => fcvtOp c (convMode e m 127 0) (e.uni a).val.toNat)
    ∧ LaneF32 (.frnd st d a m) d [a] false (fun e t => fRint .fp32 (convMode e m t 0) (e.vec a t).val.toNat)
    ∧ UniF32 (.frndU st d a m) d [a] false (fun e => fRint .fp32 (convMode e m 127 0) (e.uni a).val.toNat)
    ∧ LaneF32 (.fclass st d a) d [a] false (fun e t => (fClass (e.vec a t).val.toNat, 0))
    ∧ UniF32 (.fclassU st d a) d [a] false (fun e => (fClass (e.uni a).val.toNat, 0)) :=
  ⟨laneF32_of (fun _ => rfl) nofun rfl fun _ _ => rfl, uniF32_of (fun _ => rfl) rfl fun _ => rfl,
    laneF32_of (fun _ => rfl) nofun rfl fun _ _ => rfl, uniF32_of (fun _ => rfl) rfl fun _ => rfl,
    laneF32_of (fun _ => rfl) nofun rfl fun _ _ => rfl, uniF32_of (fun _ => rfl) rfl fun _ => rfl⟩

/-- DCVT of both sets. -/
theorem conversions64_give (st : BitVec 3) (d a : BitVec 7) (c : BitVec 4) (m : BitVec 3) :
    let X := fun (e : Env) t => if dcvtA c = 1 then ((e.vec a t).val.toNat, (e.vec a t).poison) else ((e.pair a t).1.toNat, (e.pair a t).2)
    let Y := fun (e : Env) => if dcvtA c = 1 then ((e.uni a).val.toNat, (e.uni a).poison) else ((e.upair a).1.toNat, (e.upair a).2)
    let R := fun (e : Env) t => dcvtOp c (convMode e m t 0) (X e t).1
    let Q := fun (e : Env) => dcvtOp c (convMode e m 127 0) (Y e).1
    LaneGives (.dcvt st d a c m) 15 (Quiet fun e t => (R e t).2)
        (fun e t => if dcvtD c = 1 then [(e.g.num d, ⟨BitVec.ofNat 32 (R e t).1, (X e t).2⟩)]
          else [(2 * e.g.num d, ⟨BitVec.ofNat 32 (R e t).1, (X e t).2⟩), (2 * e.g.num d + 1, ⟨BitVec.ofNat 32 ((R e t).1 / 2 ^ 32), (X e t).2⟩)])
        (fun _ _ => []) (fun e t => (R e t).2) (m == 5)
    ∧ UniGives (.dcvtU st d a c m) 4 (UniQuiet fun e => (Q e).2)
        (fun e => if dcvtD c = 1 then [(d.toNat, ⟨BitVec.ofNat 32 (Q e).1, (Y e).2⟩)]
          else [(d.toNat, ⟨BitVec.ofNat 32 (Q e).1, (Y e).2⟩), (d.toNat + 1, ⟨BitVec.ofNat 32 ((Q e).1 / 2 ^ 32), (Y e).2⟩)])
        (fun _ => []) (fun _ => []) (fun e => (Q e).2) (m == 5) (fun _ => none) :=
  ⟨laneGives_of (fun _ => rfl) nofun fun _ hq => ⟨hq, fun _ _ => rfl⟩, uniGives_of (fun _ => rfl) fun _ hq => ⟨hq, rfl⟩⟩

/-- CVTFX to and from fixed point. -/
theorem cvtfx_gives (st : BitVec 3) (d a : BitVec 7) (rm : BitVec 3) (dir : BitVec 1) (fxw : BitVec 2) (frac : BitVec 7) :
    let n := if fxw = 1 then 4 else 2
    let F := fun (e : Env) t => roundInt (32 * n) true (convMode e rm t 0)
      (match Fmt.fp32.value (e.vec a t).val.toNat with | .num q => .num (q * pow2 frac.toNat) | y => y)
    let G := fun (e : Env) t => roundTo .fp32 (convMode e rm t 0) (.ofRat ((signedOf (32 * n) (e.wide (2 * e.g.num a) t n).1 : Rat) * pow2 (-(frac.toNat : Int))))
    (dir = 0 → LaneGives (.cvtfx st d a dir rm fxw frac) 6 (Quiet fun e t => (F e t).2 ||| siOf .fp32 [(e.vec a t).val.toNat])
        (fun e t => (List.range n).map fun k => (2 * e.g.num d + k, ⟨BitVec.ofNat 32 ((F e t).1 / 2 ^ (32 * k)), (e.vec a t).poison⟩))
        (fun _ _ => []) (fun e t => (F e t).2 ||| siOf .fp32 [(e.vec a t).val.toNat]) (rm == 5))
    ∧ (dir = 1 → LaneGives (.cvtfx st d a dir rm fxw frac) 6 (Quiet fun e t => (G e t).2)
        (fun e t => [(e.g.num d, ⟨BitVec.ofNat 32 (G e t).1, (e.wide (2 * e.g.num a) t n).2⟩)]) (fun _ _ => []) (fun e t => (G e t).2) (rm == 5)) := by
  constructor
  · rintro rfl
    refine laneGives_of (fun _ => rfl) nofun fun e hq => ⟨hq, fun t _ => ?_⟩
    rw [← wrWide_eq]; rfl
  · rintro rfl
    exact laneGives_of (fun _ => rfl) nofun fun e hq => ⟨hq, fun t _ => rfl⟩

end Sys2Proof.Machine
end

section
/-! PROOFS. round_to in the formats shaped as IEEE 754 (R73, R82, R85): the grid of values about a number, the rounding on it, and what each
mode answers. -/
namespace Sys2Proof.Machine
open Sys2Proof

/-! ### Powers of two and the binade of a number -/

theorem pow2_eq (k : Int) : pow2 k = (2 : ℚ) ^ k := by
  unfold pow2
  split
  next h => obtain ⟨n, rfl⟩ := Int.eq_ofNat_of_zero_le h; simp
  next h =>
    obtain ⟨n, hn⟩ := Int.eq_ofNat_of_zero_le (a := -k) (by omega)
    obtain rfl : k = -n := by omega
    simp

theorem pow2_pos (k : Int) : 0 < pow2 k := by rw [pow2_eq]; positivity
theorem pow2_add (j k : Int) : pow2 (j + k) = pow2 j * pow2 k := by
  simp only [pow2_eq]; exact zpow_add₀ two_ne_zero j k
theorem pow2_le {j k : Int} : pow2 j ≤ pow2 k ↔ j ≤ k := by
  simp only [pow2_eq]; exact zpow_le_zpow_iff_right₀ one_lt_two
theorem pow2_lt {j k : Int} : pow2 j < pow2 k ↔ j < k := by
  simp only [pow2_eq]; exact zpow_lt_zpow_iff_right₀ one_lt_two
theorem pow2_natCast (k : Nat) : pow2 k = ((2 ^ k : Nat) : ℚ) := by rw [pow2_eq]; simp
theorem pow2_succ (k : Int) : pow2 (k + 1) = 2 * pow2 k := by rw [pow2_add, mul_comm]; simp [pow2_eq]

/-- A positive number lies in the binade its floorLog2 names. -/
theorem floorLog2_spec {q : ℚ} (hq : 0 < q) : pow2 (floorLog2 q) ≤ q ∧ q < pow2 (floorLog2 q + 1) := by
  have hnum : q.num.natAbs ≠ 0 := by simpa using hq.ne'
  have hval : q * q.den = q.num.natAbs := by
    rw [Rat.mul_den_eq_num, Nat.cast_natAbs, abs_of_nonneg (Rat.num_nonneg.2 hq.le)]
  have hn := Nat.cast_le (α := ℚ).2 (Nat.log2_self_le hnum)
  have hn' := Nat.cast_lt (α := ℚ).2 (Nat.lt_log2_self (n := q.num.natAbs))
  have hd := Nat.cast_le (α := ℚ).2 (Nat.log2_self_le q.den_nz)
  have hd' := Nat.cast_lt (α := ℚ).2 (Nat.lt_log2_self (n := q.den))
  rw [← pow2_natCast] at hn hn' hd hd'
  set a := Nat.log2 q.num.natAbs
  set b := Nat.log2 q.den
  have hpos : (0 : ℚ) < q.den := by exact_mod_cast q.den_pos
  have low : pow2 ((a : Int) - b - 1) < q := by
    have hb : pow2 (a : Int) = pow2 ((a : Int) - b - 1) * pow2 ((b + 1 : Nat) : Int) := by rw [← pow2_add]; congr 1; omega
    have := pow2_pos ((a : Int) - b - 1)
    nlinarith
  have high : q < pow2 ((a : Int) - b + 1) := by
    have hb : pow2 ((a + 1 : Nat) : Int) = pow2 ((a : Int) - b + 1) * pow2 (b : Int) := by rw [← pow2_add]; congr 1; omega
    have := pow2_pos ((a : Int) - b + 1)
    by_contra hle
    nlinarith
  unfold floorLog2
  simp only
  split
  next h => exact ⟨h, high⟩
  next h => exact ⟨low.le, by simpa using h⟩

/-! ### A magnitude rounded to an integer (R82, R83) -/

section RoundMag
variable {mode : RMode} {neg : Bool} {t : ℚ}

theorem floor_toNat (t : ℚ) : t.floor.toNat = ⌊t⌋₊ := rfl

/-- Where the floor is the number, so is the ceiling. -/
theorem ceil_eq_floor (h : t = ⌊t⌋₊) : ⌈t⌉₊ = ⌊t⌋₊ := by rw [h, Nat.ceil_natCast, Nat.floor_natCast]

theorem ceil_eq_floor_add_one (ht : 0 ≤ t) (h : t ≠ ⌊t⌋₊) : ⌈t⌉₊ = ⌊t⌋₊ + 1 := by
  have hlt : (⌊t⌋₊ : ℚ) < t := lt_of_le_of_ne (Nat.floor_le ht) h.symm
  exact le_antisymm (Nat.ceil_le_floor_add_one t) (Nat.lt_ceil.2 hlt)

/-- It is inexact where it is not an integer. -/
theorem roundMag_snd (mode : RMode) (neg : Bool) (t : ℚ) : (roundMag mode neg t).2 = decide (t ≠ ⌊t⌋₊) := by
  simp only [roundMag, floor_toNat, ne_eq, sub_eq_zero]

theorem roundMag_rdn_false (t : ℚ) : (roundMag .rdn false t).1 = ⌊t⌋₊ := rfl
theorem roundMag_rup_true (t : ℚ) : (roundMag .rup true t).1 = ⌊t⌋₊ := rfl

theorem if_ne_floor_eq_ceil (ht : 0 ≤ t) : (if t ≠ ⌊t⌋₊ then ⌊t⌋₊ + 1 else ⌊t⌋₊) = ⌈t⌉₊ := by
  split
  next h => exact (ceil_eq_floor_add_one ht h).symm
  next h => exact (ceil_eq_floor (not_not.1 h)).symm

theorem roundMag_rdn_true (ht : 0 ≤ t) : (roundMag .rdn true t).1 = ⌈t⌉₊ := by
  simp only [roundMag, floor_toNat, ne_eq, sub_eq_zero, Bool.true_and, decide_eq_true_eq]
  exact if_ne_floor_eq_ceil ht
theorem roundMag_rup_false (ht : 0 ≤ t) : (roundMag .rup false t).1 = ⌈t⌉₊ := by
  simp only [roundMag, floor_toNat, ne_eq, sub_eq_zero, Bool.not_false, Bool.true_and, decide_eq_true_eq]
  exact if_ne_floor_eq_ceil ht

/-- In every mode the integer is the next below or the next above. -/
theorem roundMag_fst (mode : RMode) (neg : Bool) (ht : 0 ≤ t) :
    (roundMag mode neg t).1 = ⌊t⌋₊ ∨ (roundMag mode neg t).1 = ⌈t⌉₊ := by
  by_cases h : t = ⌊t⌋₊
  · have hr : t - (⌊t⌋₊ : ℚ) = 0 := sub_eq_zero.2 h
    have hz : (0 : ℚ).floor = 0 := rfl
    refine .inl ?_
    cases mode <;> simp [roundMag, floor_toNat, hr, hz]
  · rw [ceil_eq_floor_add_one ht h]
    simp only [roundMag, floor_toNat]
    exact (ite_eq_or_eq _ _ _).symm

theorem roundMag_rne (neg : Bool) (t : ℚ) :
    (roundMag .rne neg t).1 = if 1 / 2 < t - ⌊t⌋₊ ∨ (t - ⌊t⌋₊ = 1 / 2 ∧ ⌊t⌋₊ % 2 = 1) then ⌊t⌋₊ + 1 else ⌊t⌋₊ := by
  simp only [roundMag, floor_toNat]
  exact if_congr (Bool.or_eq_true_iff.trans (or_congr decide_eq_true_iff (Bool.and_eq_true_iff.trans (and_congr decide_eq_true_iff beq_iff_eq)))) rfl rfl
theorem roundMag_rna (neg : Bool) (t : ℚ) : (roundMag .rna neg t).1 = if 1 / 2 ≤ t - ⌊t⌋₊ then ⌊t⌋₊ + 1 else ⌊t⌋₊ := by
  simp only [roundMag, floor_toNat, ge_iff_le, decide_eq_true_eq]

/-- RNE and RNA go to the nearer integer, from halfway RNE to the even one and RNA up. -/
theorem roundMag_nearest (neg : Bool) (hm : mode = .rne ∨ mode = .rna) :
    ((roundMag mode neg t).1 = ⌊t⌋₊ ∧ t - ⌊t⌋₊ ≤ 1 / 2 ∧ (t - ⌊t⌋₊ = 1 / 2 → mode = .rne ∧ ⌊t⌋₊ % 2 = 0))
    ∨ ((roundMag mode neg t).1 = ⌊t⌋₊ + 1 ∧ 1 / 2 ≤ t - ⌊t⌋₊ ∧ (t - ⌊t⌋₊ = 1 / 2 → mode = .rne → (⌊t⌋₊ + 1) % 2 = 0)) := by
  rcases hm with rfl | rfl
  · by_cases h : 1 / 2 < t - (⌊t⌋₊ : ℚ) ∨ (t - (⌊t⌋₊ : ℚ) = 1 / 2 ∧ ⌊t⌋₊ % 2 = 1)
    · refine .inr ⟨by rw [roundMag_rne, if_pos h], h.elim le_of_lt fun h => h.1.ge, fun ht _ => ?_⟩
      rcases h with h | h
      · exact absurd ht h.ne'
      · omega
    · obtain ⟨hlt, htie⟩ := not_or.1 h
      refine .inl ⟨by rw [roundMag_rne, if_neg h], not_lt.1 hlt, fun ht => ⟨rfl, ?_⟩⟩
      exact (Nat.mod_two_eq_zero_or_one _).resolve_right fun hp => htie ⟨ht, hp⟩
  · by_cases h : 1 / 2 ≤ t - (⌊t⌋₊ : ℚ)
    · exact .inr ⟨by rw [roundMag_rna, if_pos h], h, fun _ => nofun⟩
    · exact .inl ⟨by rw [roundMag_rna, if_neg h], (not_le.1 h).le, fun ht => absurd ht.ge h⟩

end RoundMag

end Sys2Proof.Machine
end

section
/-! PROOFS. The values of a format shaped as IEEE 754 (R73): which numbers they are, and the bits that hold them. -/
namespace Sys2Proof.Machine
open Sys2Proof

/-- A shape as IEEE 754 has it: infinities and NaNs above the finite values, and a bias in the middle of the exponents. -/
structure FShape.Standard (s : FShape) : Prop where
  ieee : s.ieee = true
  frac : 1 ≤ s.f
  bias : 1 ≤ s.bias
  width : 2 ^ s.e = 2 * s.bias + 2

/-- A magnitude with a sign. -/
def withSign (neg : Bool) (r : ℚ) : ℚ := if neg then -r else r

@[simp] theorem abs_withSign (neg : Bool) (r : ℚ) : |withSign neg r| = |r| := by cases neg <;> simp [withSign]
theorem withSign_abs (q : ℚ) : withSign (decide (q < 0)) |q| = q := by
  by_cases h : q < 0
  · simp [withSign, h, abs_of_neg h]
  · simp [withSign, h, abs_of_nonneg (not_lt.1 h)]

theorem withSign_sub (neg : Bool) (r t : ℚ) : withSign neg r - withSign neg t = withSign neg (r - t) := by
  cases neg with
  | false => rfl
  | true => simp only [withSign, if_true]; ring
/-- The distance of a number from a magnitude with its sign is that of the magnitudes. -/
theorem abs_sub_withSign (q t : ℚ) : |q - withSign (decide (q < 0)) t| = |(|q| - t)| := by
  have h := congrArg abs (withSign_sub (decide (q < 0)) |q| t)
  rwa [withSign_abs, abs_withSign] at h
theorem neg_withSign (neg : Bool) (r : ℚ) : -withSign neg r = withSign neg (-r) := by cases neg <;> simp [withSign]
theorem withSign_injective (neg : Bool) : Function.Injective (withSign neg) := by
  cases neg with
  | false => exact fun _ _ h => h
  | true => exact neg_injective

/-- The magnitude of a finite element's exponent and fraction bits. -/
def FShape.magnitude (s : FShape) (b : Nat) : ℚ :=
  if b / 2 ^ s.f = 0 then ((b % 2 ^ s.f : Nat) : ℚ) * pow2 (1 - (s.bias : Int) - s.f)
  else ((2 ^ s.f + b % 2 ^ s.f : Nat) : ℚ) * pow2 (((b / 2 ^ s.f : Nat) : Int) - s.bias - s.f)

namespace FShape
section
variable {s : FShape} {fmt : Fmt}

/-! ### The fields of an element -/

theorem sign_add_sign (neg : Bool) {b : Nat} (hb : b < 2 ^ (s.e + s.f)) : (s.sign neg + b) / 2 ^ (s.e + s.f) % 2 = 1 ↔ neg = true := by
  cases neg with
  | false => simp [sign, Nat.div_eq_of_lt hb]
  | true => simp [sign, Nat.add_div_left, Nat.div_eq_of_lt hb]

theorem sign_add_exponent (neg : Bool) {b : Nat} (hb : b < 2 ^ (s.e + s.f)) : (s.sign neg + b) / 2 ^ s.f % 2 ^ s.e = b / 2 ^ s.f := by
  have hlt : b / 2 ^ s.f < 2 ^ s.e := Nat.div_lt_of_lt_mul (by rwa [mul_comm, ← pow_add])
  cases neg with
  | false => simp [sign, Nat.mod_eq_of_lt hlt]
  | true =>
    rw [sign, if_pos rfl, pow_add, Nat.mul_comm (2 ^ s.e), Nat.mul_add_div (by positivity), Nat.add_mod_left, Nat.mod_eq_of_lt hlt]

theorem sign_add_fraction (neg : Bool) (b : Nat) : (s.sign neg + b) % 2 ^ s.f = b % 2 ^ s.f := by
  cases neg with
  | false => simp [sign]
  | true => simp [sign, pow_add]

theorem sign_add_mod_two (hs : s.Standard) (neg : Bool) (b : Nat) : (s.sign neg + b) % 2 = b % 2 := by
  obtain ⟨k, hk⟩ : 2 ∣ 2 ^ (s.e + s.f) := dvd_pow_self 2 (by have := hs.frac; omega)
  cases neg with
  | false => simp [sign]
  | true => simp only [sign, if_true]; omega

/-- A finite element: a zero, or the number its fields make. -/
theorem value_finite (hf : fmt ≠ .e4m3) (neg : Bool) {b : Nat} (hb : b < (2 ^ s.e - 1) * 2 ^ s.f) :
    s.value fmt (s.sign neg + b) = if b = 0 then .zero neg else .num (withSign neg (s.magnitude b)) := by
  have hpos : 0 < 2 ^ s.f := by positivity
  have hlt : b < 2 ^ (s.e + s.f) := hb.trans_le (by rw [pow_add]; exact Nat.mul_le_mul_right _ (Nat.sub_le ..))
  have hex : b / 2 ^ s.f ≠ 2 ^ s.e - 1 := (Nat.div_lt_of_lt_mul (by rwa [mul_comm])).ne
  have hz : (b / 2 ^ s.f = 0 ∧ b % 2 ^ s.f = 0) ↔ b = 0 := by
    constructor
    · rintro ⟨h1, h2⟩; rw [← Nat.div_add_mod b (2 ^ s.f), h1, h2, Nat.mul_zero]
    · rintro rfl; simp
  simp only [value, sign_add_sign neg hlt, sign_add_exponent neg hlt, sign_add_fraction, hex, hf, hz, false_and, and_false, if_false, magnitude, withSign,
    Bool.decide_eq_true]

theorem value_infBits (hs : s.Standard) (neg : Bool) : s.value fmt (s.sign neg + s.infBits fmt) = .inf neg := by
  have hw := hs.width
  have hb : (2 ^ s.e - 1) * 2 ^ s.f < 2 ^ (s.e + s.f) := by rw [pow_add]; exact Nat.mul_lt_mul_of_pos_right (by omega) (by positivity)
  simp only [value, infBits, hs.ieee, if_true, sign_add_sign neg hb, sign_add_exponent neg hb, sign_add_fraction]
  simp

/-! ### The numbers a format has -/

/-- A magnitude on the grid of a format: a count of units below twice the units of a binade, in a binade of the format. -/
def OnGrid (s : FShape) (w : ℚ) : Prop :=
  ∃ (k : Nat) (x : Int), k < 2 ^ (s.f + 1) ∧ 1 - (s.bias : Int) ≤ x ∧ x ≤ s.bias ∧ w = k * pow2 (x - s.f)

theorem magnitude_nonneg (b : Nat) : 0 ≤ s.magnitude b := by
  unfold magnitude
  have := fun k => (pow2_pos k).le
  split <;> exact mul_nonneg (Nat.cast_nonneg _) (this _)

theorem onGrid_magnitude (hs : s.Standard) {b : Nat} (hb : b < (2 ^ s.e - 1) * 2 ^ s.f) : s.OnGrid (s.magnitude b) := by
  have hw := hs.width
  have hbias := hs.bias
  have hfr : b % 2 ^ s.f < 2 ^ s.f := Nat.mod_lt _ (by positivity)
  have hpow : 2 ^ (s.f + 1) = 2 * 2 ^ s.f := pow_succ' ..
  have hex : b / 2 ^ s.f < 2 ^ s.e - 1 := Nat.div_lt_of_lt_mul (by rwa [mul_comm])
  unfold magnitude
  generalize b / 2 ^ s.f = ex at hex
  generalize b % 2 ^ s.f = fr at hfr
  split
  next => exact ⟨fr, 1 - s.bias, by omega, le_refl _, by omega, rfl⟩
  next h => exact ⟨2 ^ s.f + fr, ex - s.bias, by omega, by omega, by omega, rfl⟩

/-- An element is a sign and the bits below it; higher bits take no part. -/
theorem value_eq_value_sign_add (s : FShape) (fmt : Fmt) (n : Nat) :
    s.value fmt n = s.value fmt (s.sign (decide (n / 2 ^ (s.e + s.f) % 2 = 1)) + n % 2 ^ (s.e + s.f)) := by
  have hlt : n % 2 ^ (s.e + s.f) < 2 ^ (s.e + s.f) := Nat.mod_lt _ (by positivity)
  have hex : n % 2 ^ (s.e + s.f) / 2 ^ s.f = n / 2 ^ s.f % 2 ^ s.e := by rw [Nat.add_comm, pow_add, Nat.mod_mul_right_div_self]
  have hfr : n % 2 ^ (s.e + s.f) % 2 ^ s.f = n % 2 ^ s.f := Nat.mod_mod_of_dvd _ (pow_dvd_pow 2 (by omega))
  simp only [value, sign_add_sign _ hlt, sign_add_exponent _ hlt, sign_add_fraction, hex, hfr, decide_eq_true_eq]

/-- The number an element holds, zeros among them, is on the grid. -/
theorem onGrid_of_value (hs : s.Standard) (hf : fmt ≠ .e4m3) {n : Nat} {v : ℚ}
    (h : s.value fmt n = .num v ∨ (v = 0 ∧ ∃ sg, s.value fmt n = .zero sg)) : s.OnGrid |v| := by
  rcases h with h | ⟨rfl, -⟩
  · by_cases hb : n % 2 ^ (s.e + s.f) < (2 ^ s.e - 1) * 2 ^ s.f
    · rw [value_eq_value_sign_add, value_finite hf _ hb] at h
      split at h
      · cases h
      · cases h
        rw [abs_withSign, abs_of_nonneg (magnitude_nonneg _)]
        exact onGrid_magnitude hs hb
    · have hex : n / 2 ^ s.f % 2 ^ s.e = 2 ^ s.e - 1 := by
        rw [← Nat.mod_mul_right_div_self, ← pow_add, Nat.add_comm]
        refine le_antisymm ?_ ?_
        · exact Nat.le_sub_one_of_lt (Nat.div_lt_of_lt_mul (by rw [mul_comm, ← pow_add]; exact Nat.mod_lt _ (by positivity)))
        · exact (Nat.le_div_iff_mul_le (by positivity)).2 (not_lt.1 hb)
      simp only [value, hs.ieee, hex, and_self, if_true] at h
      split at h <;> cases h
  · have hbias := hs.bias
    exact ⟨0, 1 - s.bias, by positivity, le_refl _, by omega, by simp⟩

/-! ### The bits of a magnitude on the grid -/

/-- A normal element, by its exponent and fraction. -/
theorem value_normal (hf : fmt ≠ .e4m3) (neg : Bool) {ex fr : Nat} (h0 : 0 < ex) (hex : ex < 2 ^ s.e - 1) (hfr : fr < 2 ^ s.f) :
    s.value fmt (s.sign neg + (ex * 2 ^ s.f + fr)) = .num (withSign neg (((2 ^ s.f + fr : Nat) : ℚ) * pow2 ((ex : Int) - s.bias - s.f))) := by
  have hpos : 0 < 2 ^ s.f := by positivity
  have hdiv : (ex * 2 ^ s.f + fr) / 2 ^ s.f = ex := by rw [mul_comm, Nat.mul_add_div hpos, Nat.div_eq_of_lt hfr, Nat.add_zero]
  have hmod : (ex * 2 ^ s.f + fr) % 2 ^ s.f = fr := by rw [mul_comm, Nat.mul_add_mod, Nat.mod_eq_of_lt hfr]
  have hb : ex * 2 ^ s.f + fr < (2 ^ s.e - 1) * 2 ^ s.f := by nlinarith
  have hne : ex * 2 ^ s.f + fr ≠ 0 := by positivity
  rw [value_finite hf neg hb, if_neg hne, magnitude, hdiv, hmod, if_neg h0.ne']

theorem maxFinite_eq (hs : s.Standard) (fmt : Fmt) : s.maxFinite fmt = ((2 ^ (s.f + 1) - 1 : Nat) : ℚ) * pow2 ((s.bias : Int) - s.f) := by
  have hw := hs.width
  rw [maxFinite, if_pos hs.ieee]
  congr 2
  omega

/-- A unit above the greatest value stands the next power of 2. -/
theorem maxFinite_add_unit (hs : s.Standard) (fmt : Fmt) : s.maxFinite fmt + pow2 ((s.bias : Int) - s.f) = pow2 ((s.bias : Int) + 1) := by
  have hpow : pow2 ((s.bias : Int) + 1) = ((2 ^ (s.f + 1) : Nat) : ℚ) * pow2 ((s.bias : Int) - s.f) := by
    rw [← pow2_natCast, ← pow2_add]; congr 1; omega
  rw [maxFinite_eq hs, hpow, Nat.cast_sub (Nat.one_le_two_pow)]
  ring

theorem maxFinite_lt (hs : s.Standard) (fmt : Fmt) : s.maxFinite fmt < pow2 ((s.bias : Int) + 1) := by
  rw [← maxFinite_add_unit hs fmt]
  exact lt_add_of_pos_right _ (pow2_pos _)

/-- The bits of a magnitude the format has hold it, with either sign. -/
theorem value_pack (hs : s.Standard) (hf : fmt ≠ .e4m3) (neg : Bool) {k : Nat} {x : Int} (hk : k ≤ 2 ^ (s.f + 1)) (hx : 1 - (s.bias : Int) ≤ x)
    (hn : 2 ^ s.f ≤ k ∨ x = 1 - s.bias) (hM : (k : ℚ) * pow2 (x - s.f) ≤ s.maxFinite fmt) :
    s.value fmt (s.sign neg + s.pack k x) = if k = 0 then .zero neg else .num (withSign neg (k * pow2 (x - s.f))) := by
  have hw := hs.width
  have hpow : 2 ^ (s.f + 1) = 2 * 2 ^ s.f := pow_succ' ..
  have hpos : 0 < 2 ^ s.f := by positivity
  have binade : ∀ j : Nat, 2 ^ j ≤ k → x + (j - s.f) < s.bias + 1 := by
    intro j hj
    refine pow2_lt.1 (lt_of_le_of_lt ?_ (maxFinite_lt hs fmt))
    calc pow2 (x + (j - s.f)) = ((2 ^ j : Nat) : ℚ) * pow2 (x - s.f) := by rw [← pow2_natCast, ← pow2_add]; congr 1; omega
      _ ≤ k * pow2 (x - s.f) := mul_le_mul_of_nonneg_right (Nat.cast_le.2 hj) (pow2_pos _).le
      _ ≤ _ := hM
  unfold pack
  split
  next h =>
    have hx' : x = 1 - s.bias := hn.resolve_left (by omega)
    have hb : k < (2 ^ s.e - 1) * 2 ^ s.f := h.trans_le (Nat.le_mul_of_pos_left _ (by omega))
    rw [value_finite hf neg hb, magnitude, Nat.div_eq_of_lt h, Nat.mod_eq_of_lt h, if_pos rfl, hx']
  next h =>
    have hk0 : k ≠ 0 := by omega
    have hxb := binade s.f (not_lt.1 h)
    rw [if_neg hk0]
    split
    next h' =>
      rw [value_normal hf neg (by omega) (by omega) (by omega)]
      congr 4 <;> omega
    next h' =>
      have hk' : k = 2 ^ (s.f + 1) := by omega
      have hxb' := binade (s.f + 1) hk'.ge
      rw [← Nat.add_zero ((x + 1 + s.bias).toNat * 2 ^ s.f), value_normal hf neg (by omega) (by omega) hpos]
      congr 2
      rw [Nat.add_zero, ← pow2_natCast, ← pow2_add, hk', ← pow2_natCast, ← pow2_add]
      congr 1
      omega

/-- The bits of the largest magnitude. -/
theorem maxBits_eq_pack (hs : s.Standard) (fmt : Fmt) : s.maxBits fmt = s.pack (2 ^ (s.f + 1) - 1) s.bias := by
  have hw := hs.width
  have hpow : 2 ^ (s.f + 1) = 2 * 2 ^ s.f := pow_succ' ..
  have hpos : 0 < 2 ^ s.f := by positivity
  have hex : ((s.bias : Int) + s.bias).toNat = 2 * s.bias := by omega
  rw [maxBits, if_pos hs.ieee, pack, if_neg (by omega), if_pos (by omega), hex, hw, show 2 * s.bias + 2 - 1 = 2 * s.bias + 1 by omega, Nat.add_mul]
  omega

theorem maxFinite_pos (hs : s.Standard) (fmt : Fmt) : 0 < s.maxFinite fmt := by
  rw [maxFinite_eq hs]
  have : 1 < 2 ^ (s.f + 1) := Nat.one_lt_two_pow (by omega)
  exact mul_pos (by exact_mod_cast Nat.sub_pos_of_lt this) (pow2_pos _)

theorem pow2_bias_le_maxFinite (hs : s.Standard) (fmt : Fmt) : pow2 s.bias ≤ s.maxFinite fmt := by
  have hpow : 2 ^ (s.f + 1) = 2 * 2 ^ s.f := pow_succ' ..
  have hpos : 0 < 2 ^ s.f := by positivity
  calc pow2 s.bias = pow2 (s.f + ((s.bias : Int) - s.f)) := by congr 1; omega
    _ = ((2 ^ s.f : Nat) : ℚ) * pow2 ((s.bias : Int) - s.f) := by rw [pow2_add, pow2_natCast]
    _ ≤ s.maxFinite fmt := by
      rw [maxFinite_eq hs]
      exact mul_le_mul_of_nonneg_right (Nat.cast_le.2 (by omega)) (pow2_pos _).le

theorem value_maxBits (hs : s.Standard) (hf : fmt ≠ .e4m3) (neg : Bool) :
    s.value fmt (s.sign neg + s.maxBits fmt) = .num (withSign neg (s.maxFinite fmt)) := by
  have hpow : 2 ^ (s.f + 1) = 2 * 2 ^ s.f := pow_succ' ..
  have hpos : 0 < 2 ^ s.f := by positivity
  have hbias := hs.bias
  rw [maxBits_eq_pack hs, value_pack hs hf neg (Nat.sub_le ..) (by omega) (.inl (by omega)) (maxFinite_eq hs fmt).ge, if_neg (by omega), ← maxFinite_eq hs fmt]

/-- No number of the format is greater than the greatest. -/
theorem OnGrid.le_maxFinite (hs : s.Standard) {w : ℚ} (h : s.OnGrid w) (fmt : Fmt) : w ≤ s.maxFinite fmt := by
  obtain ⟨k, x, hk, -, hx, rfl⟩ := h
  rw [maxFinite_eq hs]
  exact mul_le_mul (Nat.cast_le.2 (by omega)) (pow2_le.2 (by omega)) (pow2_pos _).le (Nat.cast_nonneg _)

theorem onGrid_maxFinite (hs : s.Standard) (fmt : Fmt) : s.OnGrid (s.maxFinite fmt) := by
  have hbias := hs.bias
  exact ⟨_, s.bias, Nat.sub_lt (by positivity) one_pos, by omega, le_refl _, maxFinite_eq hs fmt⟩

/-- The parity of the bits is that of the count of units. -/
theorem pack_mod_two (hs : s.Standard) {k : Nat} (hk : k ≤ 2 ^ (s.f + 1)) (x : Int) : s.pack k x % 2 = k % 2 := by
  obtain ⟨j, hj⟩ : 2 ∣ 2 ^ s.f := dvd_pow_self 2 (by have := hs.frac; omega)
  have hpow : 2 ^ (s.f + 1) = 2 * 2 ^ s.f := pow_succ' ..
  have heven : ∀ n, n * 2 ^ s.f % 2 = 0 := fun n => by rw [hj]; exact Nat.mod_eq_zero_of_dvd ⟨n * j, by ring⟩
  unfold pack
  split
  next => rfl
  next h =>
    split
    next => have := heven (x + s.bias).toNat; omega
    next => have := heven (x + 1 + s.bias).toNat; omega

end
end FShape
end Sys2Proof.Machine
end

section
/-! PROOFS. Rounding on the grid of a format shaped as IEEE 754 (R82, R85): a number lies between two neighbours, and round_to gives one of them,
or what stands for a number too large. -/
namespace Sys2Proof.Machine
open Sys2Proof

/-- A format shaped as IEEE 754, with its shape. -/
structure Fmt.Ieee (fmt : Fmt) (s : FShape) : Prop where
  shape : fmt.shape = some s
  standard : s.Standard
  ne_e4m3 : fmt ≠ .e4m3

/-- The element holds a number, a zero of either sign among them. -/
def Fmt.Holds (fmt : Fmt) (n : Nat) (v : ℚ) : Prop := fmt.value n = .num v ∨ (v = 0 ∧ ∃ sg, fmt.value n = .zero sg)

theorem Fmt.Holds.rat_eq {fmt : Fmt} {n : Nat} {v : ℚ} (h : fmt.Holds n v) : (fmt.value n).rat = v := by
  rcases h with h | ⟨rfl, _, h⟩ <;> rw [h] <;> rfl
theorem Fmt.Holds.unique {fmt : Fmt} {n : Nat} {v w : ℚ} (hv : fmt.Holds n v) (hw : fmt.Holds n w) : v = w := hv.rat_eq.symm.trans hw.rat_eq

theorem Fmt.Holds.value_of_ne_zero {fmt : Fmt} {n : Nat} {v : ℚ} (h : fmt.Holds n v) (hv : v ≠ 0) : fmt.value n = .num v :=
  h.resolve_right fun h0 => hv h0.1

/-- Where a number too large goes: the modes that answer an infinity (R85). -/
def RMode.toInf (mode : RMode) (neg : Bool) : Bool :=
  match mode with | .rne | .rna => true | .rup => !neg | .rdn => neg | .rtz | .sr _ => false

namespace FShape

/-! ### The neighbours of a magnitude -/

/-- The binade on whose grid a magnitude is rounded. -/
def binadeOf (s : FShape) (m : ℚ) : Int := max (floorLog2 m) (1 - s.bias)
/-- The unit of that grid. -/
def unit (s : FShape) (m : ℚ) : ℚ := pow2 (s.binadeOf m - s.f)
/-- The magnitude in units. -/
def steps (s : FShape) (m : ℚ) : ℚ := m * pow2 (s.f - s.binadeOf m)
/-- The neighbours of a magnitude on its grid. -/
def below (s : FShape) (m : ℚ) : ℚ := ⌊s.steps m⌋₊ * s.unit m
def above (s : FShape) (m : ℚ) : ℚ := ⌈s.steps m⌉₊ * s.unit m
/-- The units a number is rounded to, and the magnitude they make. -/
def count (s : FShape) (mode : RMode) (q : ℚ) : Nat := (roundMag mode (decide (q < 0)) (s.steps |q|)).1
def rounded (s : FShape) (mode : RMode) (q : ℚ) : ℚ := s.count mode q * s.unit |q|

section
variable {s : FShape} {m : ℚ}

theorem unit_pos (s : FShape) (m : ℚ) : 0 < s.unit m := pow2_pos _
theorem steps_mul_unit (s : FShape) (m : ℚ) : s.steps m * s.unit m = m := by
  rw [steps, unit, mul_assoc, ← pow2_add, show (s.f : Int) - s.binadeOf m + (s.binadeOf m - s.f) = 0 by omega]
  simp [pow2_eq]
theorem steps_nonneg (hm : 0 ≤ m) : 0 ≤ s.steps m := mul_nonneg hm (pow2_pos _).le

theorem below_le (hm : 0 ≤ m) : s.below m ≤ m := by
  calc s.below m ≤ s.steps m * s.unit m := mul_le_mul_of_nonneg_right (Nat.floor_le (steps_nonneg hm)) (unit_pos ..).le
    _ = m := steps_mul_unit ..
theorem le_above (s : FShape) (m : ℚ) : m ≤ s.above m := by
  calc m = s.steps m * s.unit m := (steps_mul_unit ..).symm
    _ ≤ s.above m := mul_le_mul_of_nonneg_right (Nat.le_ceil _) (unit_pos ..).le

/-- A whole number of units is the magnitude itself. -/
theorem eq_below_iff : m = s.below m ↔ s.steps m = ⌊s.steps m⌋₊ := by
  conv_lhs => lhs; rw [← steps_mul_unit s m]
  exact mul_left_inj' (unit_pos s m).ne'
theorem below_eq_above (h : m = s.below m) : s.above m = s.below m := by
  rw [above, below, ceil_eq_floor (eq_below_iff.1 h)]
theorem above_eq_below_add (hm : 0 ≤ m) (h : m ≠ s.below m) : s.above m = s.below m + s.unit m := by
  rw [above, ceil_eq_floor_add_one (steps_nonneg hm) (eq_below_iff.not.1 h), below]
  push_cast
  ring
theorem ne_above (h : m ≠ s.below m) : m ≠ s.above m := by
  intro ha
  have hst : s.steps m = ⌈s.steps m⌉₊ := mul_right_cancel₀ (unit_pos s m).ne' ((steps_mul_unit s m).trans ha)
  exact h (eq_below_iff.2 (by rw [hst, Nat.floor_natCast]))

/-- A magnitude has fewer units than two binades hold. -/
theorem steps_lt (hm : 0 < m) : s.steps m < ((2 ^ (s.f + 1) : Nat) : ℚ) := by
  have hlt : m < pow2 (s.binadeOf m + 1) := (floorLog2_spec hm).2.trans_le (pow2_le.2 (by unfold binadeOf; omega))
  have hpow : pow2 (s.binadeOf m + 1) = ((2 ^ (s.f + 1) : Nat) : ℚ) * s.unit m := by
    rw [← pow2_natCast, unit, ← pow2_add]; congr 1; omega
  rw [hpow, ← steps_mul_unit s m] at hlt
  simpa [steps_mul_unit] using lt_of_mul_lt_mul_right (by simpa [steps_mul_unit] using hlt) (unit_pos s m).le

/-- Above the lowest binade, a magnitude has the units of a binade at least. -/
theorem le_floor_steps (hm : 0 < m) (h : 1 - (s.bias : Int) < s.binadeOf m) : 2 ^ s.f ≤ ⌊s.steps m⌋₊ := by
  have hx : s.binadeOf m = floorLog2 m := by unfold binadeOf at h ⊢; omega
  refine Nat.le_floor ?_
  rw [steps, hx, ← pow2_natCast, show (s.f : Int) = floorLog2 m + (s.f - floorLog2 m) by omega, pow2_add]
  refine mul_le_mul_of_nonneg_right (floorLog2_spec hm).1 ?_ |>.trans_eq ?_
  · exact (pow2_pos _).le
  · congr 2; omega

theorem pow2_le_below {x : Int} (hm : pow2 x ≤ m) (hx : 1 - (s.bias : Int) < x) : pow2 x ≤ s.below m := by
  have hpos : 0 < m := (pow2_pos x).trans_le hm
  have hxm : x ≤ s.binadeOf m := le_max_of_le_left (Int.lt_add_one_iff.1 (pow2_lt.1 (hm.trans_lt (floorLog2_spec hpos).2)))
  calc pow2 x ≤ pow2 (s.f + (s.binadeOf m - s.f)) := pow2_le.2 (by omega)
    _ = ((2 ^ s.f : Nat) : ℚ) * s.unit m := by rw [pow2_add, pow2_natCast, unit]
    _ ≤ s.below m := mul_le_mul_of_nonneg_right (Nat.cast_le.2 (le_floor_steps hpos (hx.trans_le hxm))) (unit_pos ..).le

/-- A number of the format is a whole number of the units of a magnitude, or it is below the magnitude's neighbours. -/
theorem OnGrid.multiple_or_le {w : ℚ} (hw : s.OnGrid w) (hm : 0 < m) : (∃ j : Nat, w = j * s.unit m) ∨ w ≤ s.below m := by
  obtain ⟨k, x, hk, hx, -, rfl⟩ := hw
  by_cases hxm : s.binadeOf m ≤ x
  · obtain ⟨d, hd⟩ := Int.eq_ofNat_of_zero_le (sub_nonneg.2 hxm)
    refine .inl ⟨k * 2 ^ d, ?_⟩
    rw [Nat.cast_mul, mul_assoc, ← pow2_natCast, unit, ← pow2_add]
    congr 2; omega
  · have hlow : pow2 (x + 1) ≤ m := (pow2_le.2 (by unfold binadeOf at hxm; omega)).trans (floorLog2_spec hm).1
    refine .inr ?_
    calc (k : ℚ) * pow2 (x - s.f) ≤ ((2 ^ (s.f + 1) : Nat) : ℚ) * pow2 (x - s.f) := mul_le_mul_of_nonneg_right (Nat.cast_le.2 hk.le) (pow2_pos _).le
      _ = pow2 (x + 1) := by rw [← pow2_natCast, ← pow2_add]; congr 1; omega
      _ ≤ s.below m := pow2_le_below hlow (by omega)

/-- No number of the format lies strictly between a magnitude and its neighbour below. -/
theorem OnGrid.le_below {w : ℚ} (hw : s.OnGrid w) (hm : 0 < m) (h : w ≤ m) : w ≤ s.below m := by
  rcases hw.multiple_or_le hm with ⟨j, rfl⟩ | hle
  · rw [← steps_mul_unit s m] at h
    have hj : (j : ℚ) ≤ s.steps m := by
      refine le_of_mul_le_mul_right ?_ (unit_pos s m)
      simpa [steps_mul_unit] using h
    exact mul_le_mul_of_nonneg_right (Nat.cast_le.2 (Nat.le_floor hj)) (unit_pos ..).le
  · exact hle

/-- Nor between it and its neighbour above. -/
theorem OnGrid.above_le {w : ℚ} (hw : s.OnGrid w) (hm : 0 < m) (h : m ≤ w) : s.above m ≤ w := by
  rcases hw.multiple_or_le hm with ⟨j, rfl⟩ | hle
  · have hj : s.steps m ≤ (j : ℚ) := le_of_mul_le_mul_right (by rwa [steps_mul_unit]) (unit_pos s m)
    exact mul_le_mul_of_nonneg_right (Nat.cast_le.2 (Nat.ceil_le.2 hj)) (unit_pos ..).le
  · have heq : m = s.below m := le_antisymm (h.trans hle) (below_le hm.le)
    rw [below_eq_above heq, ← heq]; exact h

end

/-! ### What round_to answers -/

section
variable {s : FShape} {fmt : Fmt} {mode : RMode} {q : ℚ}

theorem rounded_eq (s : FShape) (mode : RMode) (q : ℚ) : s.rounded mode q = s.below |q| ∨ s.rounded mode q = s.above |q| := by
  unfold rounded count
  rcases roundMag_fst mode (decide (q < 0)) (steps_nonneg (s := s) (abs_nonneg q)) with h | h
  · exact .inl (by rw [h]; rfl)
  · exact .inr (by rw [h]; rfl)

theorem rounded_eq_abs_iff : s.rounded mode q = |q| ↔ |q| = s.below |q| := by
  constructor
  · intro h
    by_contra hne
    rcases rounded_eq s mode q with hr | hr
    · exact hne (h.symm.trans hr)
    · exact ne_above hne (h.symm.trans hr)
  · intro h
    rcases rounded_eq s mode q with hr | hr
    · exact hr.trans h.symm
    · exact (hr.trans (below_eq_above h)).trans h.symm

theorem rounded_nonneg (s : FShape) (mode : RMode) (q : ℚ) : 0 ≤ s.rounded mode q := mul_nonneg (Nat.cast_nonneg _) (unit_pos ..).le

theorem count_le (mode : RMode) (hq : q ≠ 0) : s.count mode q ≤ 2 ^ (s.f + 1) := by
  have hst := steps_lt (s := s) (abs_pos.2 hq)
  unfold count
  rcases roundMag_fst mode (decide (q < 0)) (steps_nonneg (s := s) (abs_nonneg q)) with h | h <;> rw [h]
  · exact Nat.floor_le_of_le hst.le
  · exact Nat.ceil_le.2 hst.le

/-- A nearest mode takes the nearer neighbour; halfway RNE the one of an even count of units, RNA the one above. -/
theorem rounded_nearest (hm : mode = .rne ∨ mode = .rna) :
    (s.rounded mode q = s.below |q| ∧ |q| - s.below |q| ≤ s.above |q| - |q|
      ∧ (|q| - s.below |q| = s.above |q| - |q| → |q| ≠ s.below |q| → mode = .rne ∧ s.count mode q % 2 = 0))
    ∨ (s.rounded mode q = s.above |q| ∧ s.above |q| - |q| ≤ |q| - s.below |q|
      ∧ (s.above |q| - |q| = |q| - s.below |q| → mode = .rne → s.count mode q % 2 = 0)) := by
  have hu := unit_pos s |q|
  have hbelow : |q| - s.below |q| = (s.steps |q| - ⌊s.steps |q|⌋₊) * s.unit |q| := by rw [sub_mul, steps_mul_unit]; rfl
  have habove (hne : |q| ≠ s.below |q|) := above_eq_below_add (abs_nonneg q) hne
  rcases roundMag_nearest (t := s.steps |q|) (decide (q < 0)) hm with ⟨hc, hr, htie⟩ | ⟨hc, hr, htie⟩
  · refine .inl ⟨by rw [rounded, count, hc]; rfl, ?_, fun heq hne => ?_⟩
    · by_cases he : |q| = s.below |q|
      · rw [← he, sub_self, sub_nonneg]; exact le_above s |q|
      · rw [habove he]; nlinarith
    · rw [habove hne] at heq
      have hhalf : s.steps |q| - ⌊s.steps |q|⌋₊ = 1 / 2 := mul_right_cancel₀ hu.ne' (by linarith)
      rw [count, hc]
      exact htie hhalf
  · have hne : |q| ≠ s.below |q| := fun he => by
      rw [eq_below_iff.1 he, Nat.floor_natCast, sub_self] at hr
      norm_num at hr
    have hceil := ceil_eq_floor_add_one (steps_nonneg (abs_nonneg q)) (eq_below_iff.not.1 hne)
    refine .inr ⟨by rw [rounded, count, hc, ← hceil]; rfl, by rw [habove hne]; nlinarith, fun heq hrne => ?_⟩
    rw [habove hne] at heq
    have hhalf : s.steps |q| - ⌊s.steps |q|⌋₊ = 1 / 2 := mul_right_cancel₀ hu.ne' (by linarith)
    rw [count, hc]
    exact htie hhalf hrne

theorem neg_or_self (q : ℚ) : (if decide (q < 0) = true then -q else q) = |q| := by
  by_cases h : q < 0
  · simp [h, abs_of_neg h]
  · simp [h, abs_of_nonneg (not_lt.1 h)]

/-- A number whose rounded magnitude the format has. -/
theorem round_of_le (h : s.rounded mode q ≤ s.maxFinite fmt) : s.round fmt mode q =
    (s.sign (decide (q < 0)) + s.pack (s.count mode q) (s.binadeOf |q|),
      if |q| ≠ s.below |q| then (if s.rounded mode q < pow2 (1 - (s.bias : Int)) then fUF ||| fNX else fNX) else 0) := by
  have hinx : (roundMag mode (decide (q < 0)) (s.steps |q|)).2 = decide (|q| ≠ s.below |q|) := by
    rw [roundMag_snd]; exact decide_eq_decide.2 eq_below_iff.not.symm
  have h' : ¬ s.maxFinite fmt < s.rounded mode q := not_lt.2 h
  simp only [round, neg_or_self]
  refine (if_neg h').trans ?_
  change (_, if (roundMag mode (decide (q < 0)) (s.steps |q|)).2 = true then _ else _) = _
  simp only [hinx, decide_eq_true_eq]
  rfl

/-- A number whose rounded magnitude is too large. -/
theorem round_of_gt (h : s.maxFinite fmt < s.rounded mode q) : s.round fmt mode q =
    (s.sign (decide (q < 0)) + (if mode.toInf (decide (q < 0)) then s.infBits fmt else s.maxBits fmt), fOF ||| fNX) := by
  simp only [round, neg_or_self]
  refine (if_pos h).trans ?_
  cases mode <;> rfl

end
end FShape
end Sys2Proof.Machine
end

section
/-! PROOFS. round_to mode by mode (R82, R85): what it answers in the formats shaped as IEEE 754, and with which flags. -/
namespace Sys2Proof.Machine
open Sys2Proof

namespace Fmt.Ieee
section
variable {fmt : Fmt} {s : FShape} {mode : RMode} {q : ℚ}

theorem value_eq (h : fmt.Ieee s) (n : Nat) : fmt.value n = s.value fmt n := by simp only [Fmt.value, h.shape]
theorem roundTo_num (h : fmt.Ieee s) (mode : RMode) (hq : q ≠ 0) : roundTo fmt mode (.num q) = s.round fmt mode q := by
  simp only [roundTo, h.shape, hq, if_false]

theorem onGrid (h : fmt.Ieee s) {n : Nat} {v : ℚ} (hv : fmt.Holds n v) : s.OnGrid |v| := by
  unfold Fmt.Holds at hv
  rw [h.value_eq] at hv
  exact FShape.onGrid_of_value h.standard h.ne_e4m3 hv
theorem abs_le_maxFinite (h : fmt.Ieee s) {n : Nat} {v : ℚ} (hv : fmt.Holds n v) : |v| ≤ s.maxFinite fmt := (h.onGrid hv).le_maxFinite h.standard fmt

/-- A number not above the greatest has its rounded magnitude in the format. -/
theorem rounded_le (h : fmt.Ieee s) (mode : RMode) (hq : q ≠ 0) (hle : |q| ≤ s.maxFinite fmt) : s.rounded mode q ≤ s.maxFinite fmt := by
  rcases FShape.rounded_eq s mode q with hr | hr <;> rw [hr]
  · exact (FShape.below_le (abs_nonneg q)).trans hle
  · exact (FShape.onGrid_maxFinite h.standard fmt).above_le (abs_pos.2 hq) hle

/-- The rounded magnitude, where the format has it, is what round_to gives, with the number's sign. -/
theorem holds_round (h : fmt.Ieee s) (hq : q ≠ 0) (hle : s.rounded mode q ≤ s.maxFinite fmt) :
    fmt.Holds (s.round fmt mode q).1 (withSign (decide (q < 0)) (s.rounded mode q)) := by
  have hlow : 2 ^ s.f ≤ s.count mode q ∨ s.binadeOf |q| = 1 - s.bias := by
    by_cases hx : s.binadeOf |q| = 1 - s.bias
    · exact .inr hx
    · have hfl := FShape.le_floor_steps (s := s) (abs_pos.2 hq) (lt_of_le_of_ne (le_max_right ..) (Ne.symm hx))
      refine .inl (hfl.trans ?_)
      rcases roundMag_fst mode (decide (q < 0)) (FShape.steps_nonneg (s := s) (abs_nonneg q)) with hc | hc <;> rw [FShape.count, hc]
      exact Nat.floor_le_ceil _
  have hval : s.value fmt (s.round fmt mode q).1 =
      if s.count mode q = 0 then .zero (decide (q < 0)) else .num (withSign (decide (q < 0)) (s.rounded mode q)) := by
    rw [FShape.round_of_le hle]
    exact FShape.value_pack h.standard h.ne_e4m3 _ (FShape.count_le mode hq) (le_max_right ..) hlow hle
  unfold Fmt.Holds
  rw [h.value_eq, hval]
  by_cases hc : s.count mode q = 0
  · exact .inr ⟨by simp [FShape.rounded, hc, withSign], _, if_pos hc⟩
  · exact .inl (if_neg hc)

/-- A number too large: an infinity, or the greatest value, as the mode says. -/
theorem value_round_of_gt (h : fmt.Ieee s) (hgt : s.maxFinite fmt < s.rounded mode q) : fmt.value (s.round fmt mode q).1 =
    if mode.toInf (decide (q < 0)) then .inf (decide (q < 0)) else .num (withSign (decide (q < 0)) (s.maxFinite fmt)) := by
  rw [h.value_eq, FShape.round_of_gt hgt]
  split
  · exact FShape.value_infBits h.standard _
  · exact FShape.value_maxBits h.standard h.ne_e4m3 _

/-- Where that is a number, it is of the greatest magnitude. -/
theorem abs_of_gt (h : fmt.Ieee s) (hgt : s.maxFinite fmt < s.rounded mode q) {v : ℚ} (hv : fmt.Holds (s.round fmt mode q).1 v) :
    |v| = s.maxFinite fmt := by
  have hval := h.value_round_of_gt hgt
  split at hval
  · rcases hv with hv | ⟨-, _, hv⟩ <;> rw [hval] at hv <;> cases hv
  · rw [← hv.rat_eq, hval, FVal.rat, abs_withSign, abs_of_pos (FShape.maxFinite_pos h.standard fmt)]

theorem lt_abs_of_gt (h : fmt.Ieee s) (hq : q ≠ 0) (hgt : s.maxFinite fmt < s.rounded mode q) : s.maxFinite fmt < |q| :=
  not_le.1 fun hle => hgt.not_ge (h.rounded_le mode hq hle)

/-! ### Flags -/

/-- A number the format has, exactly: one that is its own neighbour below, and not too large. -/
theorem exists_value_iff (h : fmt.Ieee s) (mode : RMode) (hq : q ≠ 0) :
    (∃ n, fmt.value n = .num q) ↔ |q| = s.below |q| ∧ s.rounded mode q ≤ s.maxFinite fmt := by
  constructor
  · rintro ⟨n, hn⟩
    have hh : fmt.Holds n q := .inl hn
    exact ⟨le_antisymm ((h.onGrid hh).le_below (abs_pos.2 hq) le_rfl) (FShape.below_le (abs_nonneg q)), h.rounded_le mode hq (h.abs_le_maxFinite hh)⟩
  · rintro ⟨he, hle⟩
    have hr : s.rounded mode q = |q| := FShape.rounded_eq_abs_iff.2 he
    have hh := h.holds_round hq hle
    rw [hr, withSign_abs] at hh
    exact ⟨_, hh.value_of_ne_zero hq⟩

/-- The flags of a rounding that is not too large. -/
theorem inexact_flags (inx small : Prop) [Decidable inx] [Decidable small] :
    let fl : Flags := if inx then (if small then fUF ||| fNX else fNX) else 0
    (fl = 0 ↔ ¬ inx) ∧ (fl &&& fNX ≠ 0 ↔ inx) ∧ (fl &&& fUF ≠ 0 ↔ inx ∧ small) := by
  by_cases hi : inx
  · by_cases hs : small
    · simp only [hi, hs, if_true]; decide
    · simp only [hi, hs, if_true, if_false]; decide
  · simp only [hi, if_false, false_and]; decide

/-- No flag exactly for a number the format has; NX where the result is another number, and UF beside it below the smallest normal value. -/
theorem round_flags (h : fmt.Ieee s) (mode : RMode) (hq : q ≠ 0) :
    ((s.round fmt mode q).2 = 0 ↔ ∃ n, fmt.value n = .num q)
    ∧ ((s.round fmt mode q).2 &&& fNX ≠ 0 ↔ fmt.value (s.round fmt mode q).1 ≠ .num q)
    ∧ ∀ v, fmt.Holds (s.round fmt mode q).1 v → ((s.round fmt mode q).2 &&& fUF ≠ 0 ↔ v ≠ q ∧ |v| < pow2 (1 - (s.bias : Int))) := by
  rw [h.exists_value_iff mode hq]
  rcases le_or_gt (s.rounded mode q) (s.maxFinite fmt) with hle | hgt
  · have hh := h.holds_round hq hle
    have hiff : withSign (decide (q < 0)) (s.rounded mode q) = q ↔ |q| = s.below |q| := by
      conv_lhs => rhs; rw [← withSign_abs q]
      exact (withSign_injective _).eq_iff.trans FShape.rounded_eq_abs_iff
    have hvalue : fmt.value (s.round fmt mode q).1 = .num q ↔ |q| = s.below |q| :=
      ⟨fun hn => hiff.1 (hh.unique (.inl hn)), fun he => Fmt.Holds.value_of_ne_zero (by rwa [hiff.2 he] at hh) hq⟩
    obtain ⟨hzero, hnx, huf⟩ := inexact_flags (|q| ≠ s.below |q|) (s.rounded mode q < pow2 (1 - (s.bias : Int)))
    rw [congrArg Prod.snd (FShape.round_of_le (fmt := fmt) hle)]
    refine ⟨by rw [hzero, not_not, and_iff_left hle], by rw [hnx, Ne, Ne, hvalue], fun v hv => ?_⟩
    obtain rfl := hv.unique hh
    rw [huf, Ne, Ne, hiff, abs_withSign, abs_of_nonneg (FShape.rounded_nonneg ..)]
  · have hlt := h.lt_abs_of_gt hq hgt
    have hflags : (s.round fmt mode q).2 = fOF ||| fNX := congrArg Prod.snd (FShape.round_of_gt hgt)
    rw [hflags]
    refine ⟨iff_of_false (by decide) fun hle => hgt.not_ge hle.2, iff_of_true (by decide) fun hn => ?_, fun v hv => iff_of_false (by decide) ?_⟩
    · exact hlt.ne' (h.abs_of_gt hgt (.inl hn))
    · rintro ⟨-, hsmall⟩
      rw [h.abs_of_gt hgt hv] at hsmall
      have hbias := h.standard.bias
      exact hsmall.not_ge ((pow2_le.2 (by omega)).trans (FShape.pow2_bias_le_maxFinite h.standard fmt))

/-! ### Towards 0 and away from it -/

/-- A mode that cuts off: the greatest magnitude of the format not above the number's. -/
theorem holds_round_down (h : fmt.Ieee s) (hq : q ≠ 0) (hc : s.count mode q = ⌊s.steps |q|⌋₊) (hi : mode.toInf (decide (q < 0)) = false) :
    ∃ v, fmt.Holds (s.round fmt mode q).1 (withSign (decide (q < 0)) v) ∧ 0 ≤ v ∧ v ≤ |q| ∧ ∀ n w, fmt.Holds n w → |w| ≤ |q| → |w| ≤ v := by
  have hr : s.rounded mode q = s.below |q| := by rw [FShape.rounded, hc]; rfl
  rcases le_or_gt (s.rounded mode q) (s.maxFinite fmt) with hle | hgt
  · refine ⟨s.rounded mode q, h.holds_round hq hle, FShape.rounded_nonneg .., by rw [hr]; exact FShape.below_le (abs_nonneg q), fun n w hw hwq => ?_⟩
    rw [hr]
    exact (h.onGrid hw).le_below (abs_pos.2 hq) hwq
  · have hval := h.value_round_of_gt hgt
    rw [hi] at hval
    exact ⟨s.maxFinite fmt, .inl hval, (FShape.maxFinite_pos h.standard fmt).le, (h.lt_abs_of_gt hq hgt).le, fun _ _ hw _ => h.abs_le_maxFinite hw⟩

/-- A mode that adds the rest of a unit: the least magnitude of the format not below the number's, or an infinity where there is none. -/
theorem holds_round_up (h : fmt.Ieee s) (hq : q ≠ 0) (hc : s.count mode q = ⌈s.steps |q|⌉₊) (hi : mode.toInf (decide (q < 0)) = true) :
    (∃ v, fmt.Holds (s.round fmt mode q).1 (withSign (decide (q < 0)) v) ∧ |q| ≤ v ∧ ∀ n w, fmt.Holds n w → |q| ≤ |w| → v ≤ |w|)
    ∨ (fmt.value (s.round fmt mode q).1 = .inf (decide (q < 0)) ∧ ∀ n w, fmt.Holds n w → |w| < |q|) := by
  have hr : s.rounded mode q = s.above |q| := by rw [FShape.rounded, hc]; rfl
  rcases le_or_gt (s.rounded mode q) (s.maxFinite fmt) with hle | hgt
  · refine .inl ⟨s.rounded mode q, h.holds_round hq hle, by rw [hr]; exact FShape.le_above s |q|, fun n w hw hwq => ?_⟩
    rw [hr]
    exact (h.onGrid hw).above_le (abs_pos.2 hq) hwq
  · have hval := h.value_round_of_gt hgt
    rw [hi] at hval
    exact .inr ⟨hval, fun _ _ hw => (h.abs_le_maxFinite hw).trans_lt (h.lt_abs_of_gt hq hgt)⟩

/-- RDN: the greatest value not above the number, or −∞ where there is none. -/
theorem round_rdn (h : fmt.Ieee s) (hq : q ≠ 0) :
    (∃ v, fmt.Holds (s.round fmt .rdn q).1 v ∧ v ≤ q ∧ ∀ n w, fmt.Holds n w → w ≤ q → w ≤ v)
    ∨ (fmt.value (s.round fmt .rdn q).1 = .inf true ∧ ∀ n w, fmt.Holds n w → q < w) := by
  have hnn := FShape.steps_nonneg (s := s) (abs_nonneg q)
  rcases lt_or_gt_of_ne hq with hneg | hpos
  · have hd : decide (q < 0) = true := decide_eq_true hneg
    have hc : s.count .rdn q = ⌈s.steps |q|⌉₊ := by rw [FShape.count, hd, roundMag_rdn_true hnn]
    have key := h.holds_round_up (mode := .rdn) hq hc hd
    rw [hd, abs_of_neg hneg] at key
    rcases key with ⟨v, hv, hqv, hmin⟩ | ⟨hinf, hall⟩
    · refine .inl ⟨-v, hv, by linarith, fun n w hw hwq => ?_⟩
      have := hmin n w hw (by rw [abs_of_neg (hwq.trans_lt hneg)]; linarith)
      rw [abs_of_neg (hwq.trans_lt hneg)] at this
      linarith
    · refine .inr ⟨hinf, fun n w hw => ?_⟩
      have := hall n w hw
      linarith [neg_abs_le w]
  · have hd : decide (q < 0) = false := decide_eq_false hpos.not_gt
    have hc : s.count .rdn q = ⌊s.steps |q|⌋₊ := by rw [FShape.count, hd, roundMag_rdn_false]
    obtain ⟨v, hv, h0, hvq, hmax⟩ := h.holds_round_down (mode := .rdn) hq hc hd
    rw [hd] at hv
    rw [abs_of_pos hpos] at hvq hmax
    refine .inl ⟨v, hv, hvq, fun n w hw hwq => ?_⟩
    rcases le_or_gt w 0 with hw0 | hw0
    · exact hw0.trans h0
    · have := hmax n w hw (by rwa [abs_of_pos hw0])
      rwa [abs_of_pos hw0] at this

/-- RUP: the least value not below the number, or +∞ where there is none. -/
theorem round_rup (h : fmt.Ieee s) (hq : q ≠ 0) :
    (∃ v, fmt.Holds (s.round fmt .rup q).1 v ∧ q ≤ v ∧ ∀ n w, fmt.Holds n w → q ≤ w → v ≤ w)
    ∨ (fmt.value (s.round fmt .rup q).1 = .inf false ∧ ∀ n w, fmt.Holds n w → w < q) := by
  have hnn := FShape.steps_nonneg (s := s) (abs_nonneg q)
  rcases lt_or_gt_of_ne hq with hneg | hpos
  · have hd : decide (q < 0) = true := decide_eq_true hneg
    have hc : s.count .rup q = ⌊s.steps |q|⌋₊ := by rw [FShape.count, hd, roundMag_rup_true]
    obtain ⟨v, hv, h0, hvq, hmax⟩ := h.holds_round_down (mode := .rup) hq hc (by rw [hd]; rfl)
    rw [hd] at hv
    rw [abs_of_neg hneg] at hvq hmax
    refine .inl ⟨-v, hv, by linarith, fun n w hw hwq => ?_⟩
    rcases le_or_gt 0 w with hw0 | hw0
    · linarith
    · have := hmax n w hw (by rw [abs_of_neg hw0]; linarith)
      rw [abs_of_neg hw0] at this
      linarith
  · have hd : decide (q < 0) = false := decide_eq_false hpos.not_gt
    have hc : s.count .rup q = ⌈s.steps |q|⌉₊ := by rw [FShape.count, hd, roundMag_rup_false hnn]
    have key := h.holds_round_up (mode := .rup) hq hc (by rw [hd]; rfl)
    rw [hd, abs_of_pos hpos] at key
    rcases key with ⟨v, hv, hqv, hmin⟩ | ⟨hinf, hall⟩
    · refine .inl ⟨v, hv, hqv, fun n w hw hwq => ?_⟩
      have := hmin n w hw (by rwa [abs_of_pos (hpos.trans_le hwq)])
      rwa [abs_of_pos (hpos.trans_le hwq)] at this
    · exact .inr ⟨hinf, fun n w hw => (le_abs_self w).trans_lt (hall n w hw)⟩

/-- RTZ: of these two the one nearer 0. -/
theorem round_rtz (s : FShape) (fmt : Fmt) (hq : q ≠ 0) :
    (s.round fmt .rtz q).1 = if 0 < q then (s.round fmt .rdn q).1 else (s.round fmt .rup q).1 := by
  rcases lt_or_gt_of_ne hq with hneg | hpos
  · have hd : decide (q < 0) = true := decide_eq_true hneg
    simp only [if_neg hneg.not_gt, FShape.round, hd]
    rfl
  · have hd : decide (q < 0) = false := decide_eq_false hpos.not_gt
    simp only [if_pos hpos, FShape.round, hd]
    rfl

/-! ### To the nearest -/

/-- Of the magnitudes of the format, the rounded one is nearest. -/
theorem abs_sub_rounded_le (h : fmt.Ieee s) (hm : mode = .rne ∨ mode = .rna) (hq : q ≠ 0) {n : Nat} {w : ℚ} (hw : fmt.Holds n w) :
    |(|q| - s.rounded mode q)| ≤ |(|q| - |w|)| := by
  have hpos := abs_pos.2 hq
  have hb := FShape.below_le (s := s) hpos.le
  have ha := FShape.le_above s |q|
  rcases le_total |w| |q| with hle | hle
  · have hwb := (h.onGrid hw).le_below hpos hle
    rw [abs_of_nonneg (sub_nonneg.2 hle)]
    rcases FShape.rounded_nearest (s := s) (q := q) hm with ⟨hr, -, -⟩ | ⟨hr, hnear, -⟩ <;> rw [hr]
    · rw [abs_of_nonneg (sub_nonneg.2 hb)]; linarith
    · rw [abs_sub_comm, abs_of_nonneg (sub_nonneg.2 ha)]; linarith
  · have hwa := (h.onGrid hw).above_le hpos hle
    rw [abs_sub_comm |q| |w|, abs_of_nonneg (sub_nonneg.2 hle)]
    rcases FShape.rounded_nearest (s := s) (q := q) hm with ⟨hr, hnear, -⟩ | ⟨hr, -, -⟩ <;> rw [hr]
    · rw [abs_of_nonneg (sub_nonneg.2 hb)]; linarith
    · rw [abs_sub_comm, abs_of_nonneg (sub_nonneg.2 ha)]; linarith

/-- Another magnitude of the format as near: RNE has taken the even count, RNA the greater magnitude. -/
theorem tie_of_abs_sub_eq (h : fmt.Ieee s) (hm : mode = .rne ∨ mode = .rna) (hq : q ≠ 0) {n : Nat} {w : ℚ} (hw : fmt.Holds n w)
    (hne : |w| ≠ s.rounded mode q) (heq : |(|q| - |w|)| = |(|q| - s.rounded mode q)|) :
    if mode = .rne then s.count mode q % 2 = 0 else |w| < s.rounded mode q := by
  have hpos := abs_pos.2 hq
  have hb := FShape.below_le (s := s) hpos.le
  have ha := FShape.le_above s |q|
  have hexact : |q| ≠ s.below |q| := fun he => hne <| by
    rw [FShape.rounded_eq_abs_iff.2 he, sub_self, abs_zero, abs_eq_zero, sub_eq_zero] at heq
    rw [FShape.rounded_eq_abs_iff.2 he, heq]
  rcases FShape.rounded_nearest (s := s) (q := q) hm with ⟨hr, hnear, htie⟩ | ⟨hr, hnear, htie⟩
  · rw [hr, abs_of_nonneg (sub_nonneg.2 hb)] at heq
    rcases le_total |w| |q| with hle | hle
    · rw [abs_of_nonneg (sub_nonneg.2 hle)] at heq
      exact absurd (by rw [hr]; linarith) hne
    · have hwa := (h.onGrid hw).above_le hpos hle
      rw [abs_sub_comm, abs_of_nonneg (sub_nonneg.2 hle)] at heq
      obtain ⟨hrne, heven⟩ := htie (by linarith) hexact
      rwa [if_pos hrne]
  · rw [hr, abs_sub_comm |q| (s.above |q|), abs_of_nonneg (sub_nonneg.2 ha)] at heq
    rcases le_total |q| |w| with hle | hle
    · rw [abs_sub_comm, abs_of_nonneg (sub_nonneg.2 hle)] at heq
      exact absurd (by rw [hr]; linarith) hne
    · have hwb := (h.onGrid hw).le_below hpos hle
      rw [abs_of_nonneg (sub_nonneg.2 hle)] at heq
      split
      next hrne => exact htie (by linarith) hrne
      next => exact lt_of_le_of_ne (by rw [hr]; exact hle.trans ha) hne

/-- From half a unit above the greatest value on, the nearest modes answer an infinity (R85). -/
def limit (fmt : Fmt) (s : FShape) : ℚ := s.maxFinite fmt + pow2 ((s.bias : Int) - s.f - 1)

/-- Just above the greatest value, that is the neighbour below, of an odd count of units, and the next power of 2 the neighbour above. -/
theorem grid_above_maxFinite (h : fmt.Ieee s) (hgt : s.maxFinite fmt < |q|) (hlt : |q| < pow2 ((s.bias : Int) + 1)) :
    s.below |q| = s.maxFinite fmt ∧ s.above |q| = pow2 ((s.bias : Int) + 1) ∧ ⌊s.steps |q|⌋₊ % 2 = 1 := by
  have hpos : 0 < |q| := (FShape.maxFinite_pos h.standard fmt).trans hgt
  obtain ⟨hlow, hhigh⟩ := floorLog2_spec hpos
  have h1 := pow2_lt.1 (hlow.trans_lt hlt)
  have h2 := pow2_lt.1 (((FShape.pow2_bias_le_maxFinite h.standard fmt).trans_lt hgt).trans hhigh)
  have hbias := h.standard.bias
  have hx : s.binadeOf |q| = s.bias := by unfold FShape.binadeOf; omega
  have hu : s.unit |q| = pow2 ((s.bias : Int) - s.f) := by rw [FShape.unit, hx]
  have hfl : ⌊s.steps |q|⌋₊ = 2 ^ (s.f + 1) - 1 := by
    refine le_antisymm (Nat.le_sub_one_of_lt (Nat.floor_lt (FShape.steps_nonneg hpos.le) |>.2 (FShape.steps_lt hpos))) (Nat.le_floor ?_)
    refine le_of_mul_le_mul_right ?_ (FShape.unit_pos s |q|)
    rw [FShape.steps_mul_unit, hu, ← FShape.maxFinite_eq h.standard fmt]
    exact hgt.le
  have hbelow : s.below |q| = s.maxFinite fmt := by rw [FShape.below, hfl, hu, FShape.maxFinite_eq h.standard]
  have hpow : 2 ^ (s.f + 1) = 2 * 2 ^ s.f := pow_succ' ..
  have hone : 0 < 2 ^ s.f := by positivity
  refine ⟨hbelow, ?_, by omega⟩
  rw [FShape.above_eq_below_add hpos.le (by rw [hbelow]; exact hgt.ne'), hbelow, hu, FShape.maxFinite_add_unit h.standard]

theorem two_mul_half_unit (s : FShape) : pow2 ((s.bias : Int) - s.f) = 2 * pow2 ((s.bias : Int) - s.f - 1) := by
  rw [← pow2_succ]; congr 1; omega

/-- From the limit on, the nearest modes round beyond the greatest value. -/
theorem lt_rounded_of_limit_le (h : fmt.Ieee s) (hm : mode = .rne ∨ mode = .rna) (hle : limit fmt s ≤ |q|) : s.maxFinite fmt < s.rounded mode q := by
  have hgt : s.maxFinite fmt < |q| := lt_of_lt_of_le (lt_add_of_pos_right _ (pow2_pos _)) hle
  have hpos : 0 < |q| := (FShape.maxFinite_pos h.standard fmt).trans hgt
  rcases FShape.rounded_nearest (s := s) (q := q) hm with ⟨hr, hnear, htie⟩ | ⟨hr, -, -⟩
  · rcases lt_or_ge |q| (pow2 ((s.bias : Int) + 1)) with hlt | hge
    · obtain ⟨hbelow, habove, hodd⟩ := h.grid_above_maxFinite hgt hlt
      rw [limit] at hle
      rw [hbelow, habove, ← FShape.maxFinite_add_unit h.standard fmt, two_mul_half_unit] at hnear htie
      have hcount : s.count mode q = ⌊s.steps |q|⌋₊ := Nat.cast_injective (mul_right_cancel₀ (FShape.unit_pos s |q|).ne' hr)
      obtain ⟨-, heven⟩ := htie (by linarith) hgt.ne'
      omega
    · rw [hr]
      exact (FShape.maxFinite_lt h.standard fmt).trans_le (FShape.pow2_le_below hge (by have := h.standard.bias; omega))
  · rw [hr]; exact hgt.trans_le (FShape.le_above s |q|)

/-- Below the limit they do not. -/
theorem rounded_le_of_lt_limit (h : fmt.Ieee s) (hm : mode = .rne ∨ mode = .rna) (hq : q ≠ 0) (hlt : |q| < limit fmt s) :
    s.rounded mode q ≤ s.maxFinite fmt := by
  rcases le_or_gt |q| (s.maxFinite fmt) with hle | hgt
  · exact h.rounded_le mode hq hle
  · have hhalf := two_mul_half_unit s
    have hsum := FShape.maxFinite_add_unit h.standard fmt
    have hpos := pow2_pos ((s.bias : Int) - s.f - 1)
    rw [limit] at hlt
    obtain ⟨hbelow, habove, -⟩ := h.grid_above_maxFinite hgt (by linarith)
    rcases FShape.rounded_nearest (s := s) (q := q) hm with ⟨hr, -, -⟩ | ⟨-, hnear, -⟩
    · exact (hr.trans hbelow).le
    · rw [hbelow, habove] at hnear
      linarith

/-- RNE and RNA: from the limit on an infinity, below it a nearest value; of two, RNE gives the one of even bits and RNA the one of greater
magnitude. -/
theorem round_nearest (h : fmt.Ieee s) (hm : mode = .rne ∨ mode = .rna) (hq : q ≠ 0) :
    (limit fmt s ≤ |q| → fmt.value (s.round fmt mode q).1 = .inf (decide (q < 0)))
    ∧ (|q| < limit fmt s → ∃ v, fmt.Holds (s.round fmt mode q).1 v ∧ (∀ n w, fmt.Holds n w → |q - v| ≤ |q - w|)
      ∧ ∀ n w, fmt.Holds n w → w ≠ v → |q - w| = |q - v| → if mode = .rne then (s.round fmt mode q).1 % 2 = 0 else |w| < |v|) := by
  constructor
  · intro hle
    rw [h.value_round_of_gt (h.lt_rounded_of_limit_le hm hle), if_pos (by rcases hm with rfl | rfl <;> rfl)]
  · intro hlt
    have hle := h.rounded_le_of_lt_limit hm hq hlt
    have hnn := FShape.rounded_nonneg s mode q
    refine ⟨_, h.holds_round hq hle, fun n w hw => ?_, fun n w hw hne heq => ?_⟩
    · rw [abs_sub_withSign]
      exact (h.abs_sub_rounded_le hm hq hw).trans (abs_abs_sub_abs_le_abs_sub q w)
    · rw [abs_withSign, abs_of_nonneg hnn]
      have hbits : (s.round fmt mode q).1 % 2 = s.count mode q % 2 := by
        rw [FShape.round_of_le hle, FShape.sign_add_mod_two h.standard, FShape.pack_mod_two h.standard (FShape.count_le mode hq)]
      rw [hbits]
      rw [abs_sub_withSign] at heq
      refine h.tie_of_abs_sub_eq hm hq hw ?_ (le_antisymm ?_ (h.abs_sub_rounded_le hm hq hw))
      · intro hwr
        have hwv : w = withSign (decide (q < 0)) (-s.rounded mode q) := by
          rw [← neg_withSign]
          exact (abs_eq_abs.1 (hwr.trans (by rw [abs_withSign, abs_of_nonneg hnn]))).resolve_left hne
        have hr : 0 < s.rounded mode q := lt_of_le_of_ne hnn fun h0 => hne (by rw [hwv, ← h0, neg_zero])
        have hsum : |q - w| = |q| + s.rounded mode q := by
          rw [hwv, abs_sub_withSign, sub_neg_eq_add, abs_of_nonneg (add_nonneg (abs_nonneg q) hnn)]
        have hlt' : |(|q| - s.rounded mode q)| < |q| + s.rounded mode q := abs_lt.2 ⟨by linarith [abs_pos.2 hq], by linarith⟩
        linarith
      · exact (abs_abs_sub_abs_le_abs_sub q w).trans heq.le

end
end Fmt.Ieee
end Sys2Proof.Machine
end

section
/-! PROOFS. The five formats shaped as IEEE 754 (R73), what round_to answers in each of them (R82, R85), and the obligation. -/
namespace Sys2Proof.Machine
open Sys2Proof Host

theorem Fmt.Ieee.limit_eq {fmt : Fmt} {s : FShape} (h : fmt.Ieee s) :
    Fmt.Ieee.limit fmt s = pow2 ((s.bias : Int) + 1) - pow2 ((s.bias : Int) - s.f - 1) := by
  rw [Fmt.Ieee.limit, ← FShape.maxFinite_add_unit h.standard fmt, Fmt.Ieee.two_mul_half_unit]
  ring

theorem ieee_fp32 : Fmt.fp32.Ieee ⟨8, 23, 127, true⟩ := ⟨rfl, ⟨rfl, by decide, by decide, by decide⟩, by decide⟩
theorem ieee_fp64 : Fmt.fp64.Ieee ⟨11, 52, 1023, true⟩ := ⟨rfl, ⟨rfl, by decide, by decide, by decide⟩, by decide⟩
theorem ieee_fp16 : Fmt.fp16.Ieee ⟨5, 10, 15, true⟩ := ⟨rfl, ⟨rfl, by decide, by decide, by decide⟩, by decide⟩
theorem ieee_bf16 : Fmt.bf16.Ieee ⟨8, 7, 127, true⟩ := ⟨rfl, ⟨rfl, by decide, by decide, by decide⟩, by decide⟩
theorem ieee_e5m2 : Fmt.e5m2.Ieee ⟨5, 2, 15, true⟩ := ⟨rfl, ⟨rfl, by decide, by decide, by decide⟩, by decide⟩

/-- The formats of the list are shaped as IEEE 754, with its limit and its lowest exponent. -/
theorem ieee_of_mem {fmt : Fmt} {lim : ℚ} {emin : Int}
    (h : (fmt, lim, emin) ∈ [(Fmt.fp32, pow2 128 - pow2 103, (-126 : Int)), (.fp64, pow2 1024 - pow2 970, -1022), (.fp16, 65520, -14),
      (.bf16, pow2 128 - pow2 119, -126), (.e5m2, 61440, -14)]) :
    ∃ s, fmt.Ieee s ∧ lim = Fmt.Ieee.limit fmt s ∧ emin = 1 - s.bias := by
  simp only [List.mem_cons, Prod.mk.injEq, List.not_mem_nil, or_false] at h
  rcases h with ⟨rfl, rfl, rfl⟩ | ⟨rfl, rfl, rfl⟩ | ⟨rfl, rfl, rfl⟩ | ⟨rfl, rfl, rfl⟩ | ⟨rfl, rfl, rfl⟩
  · exact ⟨_, ieee_fp32, by rw [ieee_fp32.limit_eq]; norm_num, by decide⟩
  · exact ⟨_, ieee_fp64, by rw [ieee_fp64.limit_eq]; norm_num, by decide⟩
  · exact ⟨_, ieee_fp16, by rw [ieee_fp16.limit_eq]; norm_num [pow2_eq], by decide⟩
  · exact ⟨_, ieee_bf16, by rw [ieee_bf16.limit_eq]; norm_num, by decide⟩
  · exact ⟨_, ieee_e5m2, by rw [ieee_e5m2.limit_eq]; norm_num [pow2_eq], by decide⟩

/-- What round_to answers for a nonzero number in a format shaped as IEEE 754. -/
theorem roundTo_ieee {fmt : Fmt} {s : FShape} (h : fmt.Ieee s) {q : ℚ} (hq : q ≠ 0) :
    let num := fun (n : Nat) (v : Rat) => fmt.value n = .num v ∨ (v = 0 ∧ ∃ sg, fmt.value n = .zero sg)
    let R := fun (mode : RMode) => roundTo fmt mode (.num q)
    let near := fun (v : Rat) => ∀ n w, num n w → |q - v| ≤ |q - w|
    (∀ mode, ((R mode).2 = 0 ↔ ∃ n, fmt.value n = .num q) ∧ ((R mode).2 &&& fNX ≠ 0 ↔ fmt.value (R mode).1 ≠ .num q)
      ∧ (∀ v, num (R mode).1 v → ((R mode).2 &&& fUF ≠ 0 ↔ v ≠ q ∧ |v| < pow2 (1 - (s.bias : Int)))))
    ∧ ((∃ v, num (R .rdn).1 v ∧ v ≤ q ∧ ∀ n w, num n w → w ≤ q → w ≤ v) ∨ (fmt.value (R .rdn).1 = .inf true ∧ ∀ n w, num n w → q < w))
    ∧ ((∃ v, num (R .rup).1 v ∧ q ≤ v ∧ ∀ n w, num n w → q ≤ w → v ≤ w) ∨ (fmt.value (R .rup).1 = .inf false ∧ ∀ n w, num n w → w < q))
    ∧ (R .rtz).1 = (if 0 < q then (R .rdn).1 else (R .rup).1)
    ∧ (∀ mode, (mode = .rne ∨ mode = .rna) → (Fmt.Ieee.limit fmt s ≤ |q| → fmt.value (R mode).1 = .inf (decide (q < 0)))
      ∧ (|q| < Fmt.Ieee.limit fmt s → ∃ v, num (R mode).1 v ∧ near v
        ∧ ∀ n w, num n w → w ≠ v → |q - w| = |q - v| → if mode = .rne then (R mode).1 % 2 = 0 else |w| < |v|)) := by
  intro num R near
  have hR : R = fun mode => s.round fmt mode q := funext fun mode => h.roundTo_num mode hq
  rw [hR]
  exact ⟨fun mode => h.round_flags mode hq, h.round_rdn hq, h.round_rup hq, Fmt.Ieee.round_rtz s fmt hq, fun mode hm => h.round_nearest hm hq⟩

/-- Settles O11: compares and conversions from what the instructions do for a thread; compares by the order of the exact values; round_to by the
grid of values about the number. -/
theorem floatComparesAndConversions : Obligations.FloatComparesAndConversions := by
  unfold Obligations.FloatComparesAndConversions
  refine ⟨⟨fun st c p a b => ?_, fCmp_numbers, fCmp_nan, fCmp_iv⟩, ?_, fun st d a c m rm dir fxw frac => ?_⟩
  · obtain ⟨h1, h2, h3, h4⟩ := compares_give st c p a b
    exact ⟨h1, h2, h3, h4, compares_trap st c p a b⟩
  · intro fmt lim emin q hq hmem
    obtain ⟨s, hs, rfl, rfl⟩ := ieee_of_mem hmem
    exact roundTo_ieee hs hq
  · obtain ⟨h1, h2, h3, h4, h5, h6⟩ := conversions32_give st d a c m
    obtain ⟨h7, h8⟩ := conversions64_give st d a c m
    exact ⟨h1, h2, h3, h4, h5, h6, h7, h8, cvtfx_gives st d a rm dir fxw frac⟩

end Sys2Proof.Machine
end

section
/-! PROOFS. Bit fields and carries (R98 to R101): lane and uniform words from what the instructions do for a thread, the field a descriptor
names, and the carry of IADDC and ISUBB. -/
namespace Sys2Proof.Machine
open Sys2Proof Host

/-! ### Words -/

section Word
variable {i : Instr} {d : BitVec 7} {srcs : List (BitVec 7)}

/-- A lane instruction that writes one word for every active thread. -/
theorem laneWord_of {r : Env → Nat → Word} {f : Env → Nat → TRes} (hexec : ∀ s, exec i s = issueLane i f s) (hr : ∀ stl d a t, i ≠ .rdlane stl d a t)
    (hlat : fixedLatency i = 3) (hf : ∀ e t, f e t = { vw := [(e.g.num d, ⟨r e t, srcs.any fun f => (e.vec f t).poison⟩)] }) : LaneWord i d srcs r := by
  rw [LaneWord, ← hlat]
  exact laneGives_of hexec hr fun e _ => ⟨fun _ _ => BitVec.zero_and, fun t _ => hf e t⟩

/-- A uniform instruction that writes one word. -/
theorem uniWord_of {r : Env → Word} {f : Env → URes} (hexec : ∀ s, exec i s = issueUniform i f s)
    (hlat : fixedLatency i = 2) (hf : ∀ e, f e = { sw := [(d.toNat, ⟨r e, srcs.any fun f => (e.uni f).poison⟩)] }) : UniWord i d srcs r := by
  rw [UniWord, ← hlat]
  exact uniGives_of hexec fun e _ => ⟨BitVec.zero_and, hf e⟩

end Word

section Shapes
variable (d a b : BitVec 7)

theorem laneBin_eq (f : Word → Word → Word) (e : Env) (t : Nat) : laneBin d a b f e t =
    { vw := [(e.g.num d, ⟨f (e.vec a t).val (e.vec b t).val, [a, b].any fun r => (e.vec r t).poison⟩)] } := by
  simp [laneBin]
theorem laneTri_eq (f : Word → Word → Word → Word) (e : Env) (t : Nat) : laneTri d a b f e t =
    { vw := [(e.g.num d, ⟨f (e.vec a t).val (e.vec b t).val (e.vec d t).val, [a, b, d].any fun r => (e.vec r t).poison⟩)] } := by
  simp [laneTri, Bool.or_assoc]
theorem uniBin_eq (f : Word → Word → Word) (e : Env) : uniBin d a b f e =
    { sw := [(d.toNat, ⟨f (e.uni a).val (e.uni b).val, [a, b].any fun r => (e.uni r).poison⟩)] } := by
  simp [uniBin]
theorem uniTri_eq (f : Word → Word → Word → Word) (e : Env) : uniTri d a b f e =
    { sw := [(d.toNat, ⟨f (e.uni a).val (e.uni b).val (e.uni d).val, [a, b, d].any fun r => (e.uni r).poison⟩)] } := by
  simp [uniTri, Bool.or_assoc]

end Shapes

/-! ### Bit fields (R99) -/

theorem fieldLen_le (b : Word) : fieldLen b ≤ 32 := by
  simp only [fieldLen]
  split <;> omega

/-- Sign extension as a number: the bits above the sign are set where it is. -/
theorem signExtend_eq_ofNat {n : Nat} (hn : n ≤ 32) (x : BitVec n) :
    x.signExtend 32 = BitVec.ofNat 32 (if 2 ^ (n - 1) ≤ x.toNat then x.toNat + (2 ^ 32 - 2 ^ n) else x.toNat) := by
  refine BitVec.eq_of_toNat_eq ?_
  have hpow : 2 ^ n ≤ 2 ^ 32 := Nat.pow_le_pow_right (by decide) hn
  have hx := x.isLt
  simp only [BitVec.toNat_signExtend, BitVec.msb_eq_decide, BitVec.toNat_setWidth, BitVec.toNat_ofNat, decide_eq_true_eq]
  split <;> omega

theorem bitExtract_empty (a b : Word) (h : fieldLen b = 0) : bitExtract a b = 0 := by
  simp [bitExtract, h]

theorem bitExtract_unsigned (a b : Word) (h : fieldLen b ≠ 0) (hs : b.getLsbD 16 = false) :
    bitExtract a b = BitVec.ofNat 32 (a.toNat / 2 ^ (b.toNat % 256) % 2 ^ fieldLen b) := by
  simp only [bitExtract, h, hs, if_false, Bool.false_and, Bool.false_eq_true]

theorem bitExtract_signed (a b : Word) (h : fieldLen b ≠ 0) (hs : b.getLsbD 16 = true) :
    bitExtract a b = ((a >>> (b.toNat % 256)).setWidth (fieldLen b)).signExtend 32 := by
  have field : ((a >>> (b.toNat % 256)).setWidth (fieldLen b)).toNat = a.toNat / 2 ^ (b.toNat % 256) % 2 ^ fieldLen b := by
    rw [BitVec.toNat_setWidth, BitVec.toNat_ushiftRight, Nat.shiftRight_eq_div_pow]
  rw [signExtend_eq_ofNat (fieldLen_le b), field]
  simp only [bitExtract, h, hs, if_false, Bool.true_and, decide_eq_true_eq]
  split <;> rfl

/-- The bits of a field of n bits from `pos`. -/
theorem getLsbD_fieldMask (n pos : Nat) {k : Nat} (hk : k < 32) :
    (BitVec.ofNat 32 ((2 ^ n - 1) * 2 ^ pos)).getLsbD k = decide (pos ≤ k ∧ k < pos + n) := by
  rw [BitVec.getLsbD_ofNat, Nat.testBit_mul_two_pow, Nat.testBit_two_pow_sub_one, ← Bool.decide_and, decide_eq_true hk, Bool.true_and]
  exact decide_eq_decide.2 (by omega)

theorem getLsbD_bitInsert (a b d : Word) {k : Nat} (hk : k < 32) :
    (bitInsert a b d).getLsbD k = if b.toNat % 256 ≤ k ∧ k < b.toNat % 256 + fieldLen b then a.getLsbD (k - b.toNat % 256) else d.getLsbD k := by
  by_cases h0 : fieldLen b = 0
  · simp only [bitInsert, h0, if_true, Nat.add_zero]
    rw [if_neg (by omega)]
  · simp only [bitInsert, h0, if_false, BitVec.getLsbD_or, BitVec.getLsbD_and, BitVec.getLsbD_not, BitVec.getLsbD_shiftLeft, getLsbD_fieldMask _ _ hk, hk,
      decide_true, Bool.true_and]
    by_cases hin : b.toNat % 256 ≤ k ∧ k < b.toNat % 256 + fieldLen b
    · simp [hin]
    · simp [hin]

/-- Settles O6: the field of `bitExtract` and `bitInsert` bit by bit, and the four instructions by what they do for a thread. -/
theorem bitFieldResults : Obligations.BitFieldResults := by
  unfold Obligations.BitFieldResults
  refine ⟨fun a b => ⟨bitExtract_empty a b, bitExtract_unsigned a b, bitExtract_signed a b⟩, fun a b d k hk => getLsbD_bitInsert a b d hk,
    fun st d a b => ⟨?_, ?_, ?_, ?_⟩⟩
  · exact laneWord_of (fun _ => rfl) nofun rfl (laneBin_eq d a b _)
  · exact laneWord_of (fun _ => rfl) nofun rfl (laneTri_eq d a b _)
  · exact uniWord_of (fun _ => rfl) rfl (uniBin_eq d a b _)
  · exact uniWord_of (fun _ => rfl) rfl (uniTri_eq d a b _)

/-! ### Carries (R98, R100, R101) -/

section Carry
variable {d a b : BitVec 7} {f : Word → Word → Bool → Word × Bool} {e : Env}

theorem laneCarry_clean {t : Nat} (ha : (e.vec a t).poison = false) (hb : (e.vec b t).poison = false) : laneCarry d a b f e t =
    { vw := [(e.g.num d, ⟨(f (e.vec a t).val (e.vec b t).val (e.g.pr 6 t)).1, false⟩)], pw := [(6, (f (e.vec a t).val (e.vec b t).val (e.g.pr 6 t)).2)] } := by
  simp [laneCarry, ha, hb]
theorem laneCarry_poison {t : Nat} (h : (e.vec a t).poison = true ∨ (e.vec b t).poison = true) :
    laneCarry d a b f e t = { err := some ⟨0x0B, 0⟩ } := by
  rcases h with h | h <;> simp [laneCarry, h, trap, Cause.code]
theorem uniCarry_clean (ha : (e.uni a).poison = false) (hb : (e.uni b).poison = false) : uniCarry d a b f e =
    { sw := [(d.toNat, ⟨(f (e.uni a).val (e.uni b).val (e.g.qr 6)).1, false⟩)], qw := [(6, (f (e.uni a).val (e.uni b).val (e.g.qr 6)).2)] } := by
  simp [uniCarry, ha, hb]

end Carry

/-- The difference of ISUBB as a difference of integers. -/
theorem subBorrow_fst (x y : Word) (c : Bool) : (subBorrow x y c).1 = BitVec.ofInt 32 (x.toNat - y.toNat - c.toNat) := by
  have hx := x.isLt
  have hy := y.isLt
  have hc : c.toNat ≤ 1 := c.toNat_le
  refine BitVec.eq_of_toNat_eq ?_
  simp only [subBorrow, BitVec.toNat_sub, BitVec.toNat_ofInt, BitVec.toNat_ofNat]
  omega

section CarryForms
variable {i : Instr} {d a b : BitVec 7} {f : Word → Word → Bool → Word × Bool}

/-- A lane carry operation writes its result and its carry. -/
theorem laneCarry_gives (hexec : ∀ s, exec i s = issueLane i (laneCarry d a b f) s) (hr : ∀ stl d a t, i ≠ .rdlane stl d a t) :
    LaneGives i (fixedLatency i) (fun e => ∀ t ∈ threadsOf e.p.mask, (e.vec a t).poison = false ∧ (e.vec b t).poison = false)
      (fun e t => [(e.g.num d, ⟨(f (e.vec a t).val (e.vec b t).val (e.g.pr 6 t)).1, false⟩)])
      (fun e t => [(6, (f (e.vec a t).val (e.vec b t).val (e.g.pr 6 t)).2)]) (fun _ _ => 0) false :=
  laneGives_of hexec hr fun _ hc => ⟨fun _ _ => BitVec.zero_and, fun t ht => laneCarry_clean (hc t ht).1 (hc t ht).2⟩

/-- A lane carry operation with a poisoned source in every thread traps. -/
theorem laneCarry_traps (hexec : ∀ s, exec i s = issueLane i (laneCarry d a b f) s) (hr : ∀ stl d a t, i ≠ .rdlane stl d a t) :
    AllTrap i ⟨0x0B, 0⟩ fun e t => (e.vec a t).poison = true ∨ (e.vec b t).poison = true := fun s _ h hc hm hb =>
  (hexec s).trans (issueLane_allTrap h hc hr hm (by decide) fun t ht => laneCarry_poison (hb t ht))

/-- A uniform carry operation writes its result and its carry. -/
theorem uniCarry_gives (hexec : ∀ s, exec i s = issueUniform i (uniCarry d a b f) s) :
    UniGives i (fixedLatency i) (fun e => (e.uni a).poison = false ∧ (e.uni b).poison = false)
      (fun e => [(d.toNat, ⟨(f (e.uni a).val (e.uni b).val (e.g.qr 6)).1, false⟩)])
      (fun e => [(6, (f (e.uni a).val (e.uni b).val (e.g.qr 6)).2)]) (fun _ => []) (fun _ => 0) false (fun _ => none) :=
  uniGives_of hexec fun _ hc => ⟨BitVec.zero_and, uniCarry_clean hc.1 hc.2⟩

end CarryForms

/-- Settles O7: the carry operations for any result and carry, then those of IADDC and ISUBB. -/
theorem carryResults : Obligations.CarryResults := by
  unfold Obligations.CarryResults
  intro st d a b
  simp only [← subBorrow_fst]
  exact ⟨laneCarry_gives (f := addCarry) (fun _ => rfl) nofun, laneCarry_gives (f := subBorrow) (fun _ => rfl) nofun,
    uniCarry_gives (f := addCarry) (fun _ => rfl), uniCarry_gives (f := subBorrow) (fun _ => rfl),
    laneCarry_traps (fun _ => rfl) nofun, laneCarry_traps (fun _ => rfl) nofun⟩

end Sys2Proof.Machine
end

section
/-! PROOFS. Lane branches whose threads have one target (R105), and a branch to the next instruction, which splits nothing: the counterexample
to the split of every BRC whose threads part. -/
namespace Sys2Proof.Machine
open Sys2Proof Host

/-- Threads with one target are one set. -/
theorem targetSets_const (pc : DWord) (t : Nat) (ts : List Nat) : targetSets ((t :: ts).map fun u => (u, pc)) = [(pc, t :: ts)] := by
  induction ts generalizing t with
  | nil => rfl
  | cons u ts ih =>
    rw [List.map_cons, targetSets, ih u]
    simp

/-- A lane branch all of whose threads have one target takes the path there (R105). -/
theorem Env.branch_together {s : State} {e : Env} (h : s.env = some e) (i : Instr) (pc : DWord) (hm : e.p.mask ≠ 0) :
    e.branch i [] ((threadsOf e.p.mask).map fun t => (t, pc)) s = e.goesOn i pc e.g := by
  obtain ⟨hs, -, hg, -, -⟩ := State.env_eq_some h
  obtain ⟨t, ts, hts⟩ := List.exists_cons_of_ne_nil (threadsOf_ne_nil hm)
  have whole : maskOf (t :: ts) = e.p.mask := hts ▸ maskOf_threadsOf _
  rw [hts, Env.branch, targetSets_const]
  simp only [List.map_cons, List.map_nil, State.addPaths, whole, State.updPath_some hg, Env.goesOn, hs]

/-- A BRC all of whose threads go on at one address, be it the target or the next instruction. -/
theorem exec_brc_together {st : BitVec 3} {off : BitVec 14} {k n : BitVec 1} {p : BitVec 3} {s : State} {e : Env} {pc : DWord} (h : s.env = some e)
    (hc : e.issueTrap (.brc st off k n p) = none) (hm : e.p.mask ≠ 0)
    (hpc : ∀ t ∈ threadsOf e.p.mask, (if e.pred k n p t then e.relative off else e.p.pc + 4) = pc) :
    exec (.brc st off k n p) s = .next (e.goesOn (.brc st off k n p) pc e.g) := by
  have targets : (threadsOf e.p.mask).map (fun t => (t, if e.pred k n p t then e.relative off else e.p.pc + 4)) = (threadsOf e.p.mask).map fun t => (t, pc) :=
    List.map_congr_left fun t ht => by rw [hpc t ht]
  rw [show exec (.brc st off k n p) s = execBrc st off k n p s from rfl, execBrc, issueWith_clear h hc, targets, Env.branch_together h _ _ hm]

/-- A BRC to the next instruction goes on there with all its threads, whichever way each goes. -/
theorem exec_brc_next {st : BitVec 3} {k n : BitVec 1} {p : BitVec 3} {s : State} {e : Env} (h : s.env = some e)
    (hc : e.issueTrap (.brc st 1 k n p) = none) (hm : e.p.mask ≠ 0) :
    exec (.brc st 1 k n p) s = .next (e.goesOn (.brc st 1 k n p) (e.p.pc + 4) e.g) :=
  exec_brc_together h hc hm fun _ _ => ite_self _

/-! ### A path of two threads that part -/

/-- One path, of threads 0 and 1, the predicate p0 set in thread 1 alone. -/
def partingGroup : Grp :=
  { Grp.start 0 0 0 0 0 0 0 with paths := { Path.free with st := .live, mask := 3 } :: List.replicate 7 Path.free, p := [(0, 2)] }
/-- The machine after reset with this group at issue, in the block of a placed program. -/
def partingState : State := { State.reset with issuer := some (0, 0), groups := [(0, partingGroup)], blocks := [(0, Blk.placed')] }
/-- What its instruction sees. -/
def partingEnv : Env := ⟨partingState, 0, partingGroup, Blk.placed', 0, partingGroup.path 0⟩

/-- Refutes O16: a BRC with offset 1 has PC + 4 for both its targets, so that threads which differ in the predicate go on together, and the lowest
FREE entry stays free, where the second part of the statement has the others' path. -/
theorem not_laneBranches : ¬ Obligations.LaneBranches := by
  unfold Obligations.LaneBranches
  rintro ⟨-, split, -⟩
  have henv : partingState.env = some partingEnv := rfl
  have hc : partingEnv.issueTrap (.brc 0 1 0 0 0) = none := by decide
  obtain ⟨t, g', ht, hg, -, hother, -⟩ := split 0 1 0 0 0 partingState partingEnv 1 0 [1] henv hc rfl (by decide) (by decide) rfl (by decide) (by decide)
  have hfree : (g'.path 1).st = .free := by
    rw [exec_brc_next henv hc (by decide)] at ht
    cases ht
    rw [Env.goesOn, show partingEnv.gk = 0 from rfl, State.grp_setGrp] at hg
    cases hg
    rfl
  rw [hother] at hfree
  exact absurd hfree (by decide)

end Sys2Proof.Machine
end

section
/-! PROOFS. The ends of paths (R107, R108) and the traps a program asks for (R89, R115). -/
namespace Sys2Proof.Machine
open Sys2Proof Host

/-! ### JOIN, EXIT and EXITG -/

/-- Parking from the state of issue. -/
theorem Env.park_self {s : State} {e : Env} (h : s.env = some e) (i : Instr) (w : Wait) : e.park i w s = s.setGrp e.gk (Path.set e.g e.pi
    { e.advance i e.p.pc e.p with st := .parked, wait := w, resume := e.nextPc i }) := by
  obtain ⟨-, -, hg, -, hp⟩ := State.env_eq_some h
  rw [Env.park, State.updPath_some hg, ← hp]
  rfl

/-- A path of the table is one of its entries, or free. -/
theorem Grp.path_mem_or_free (g : Grp) (k : Nat) : g.path k ∈ g.paths ∨ g.path k = Path.free := by
  by_cases hk : k < g.paths.length
  · exact .inl (by rw [Grp.path, List.getD_eq_getElem _ _ hk]; exact List.getElem_mem hk)
  · exact .inr (List.getD_eq_default _ _ (not_lt.1 hk))

/-- Where no path is queued for the handler, none enters it (R260). -/
theorem handlerNext_unqueued {s : State} {gk : Nat} {g : Grp} (hg : s.grp gk = some g) (hq : ∀ k c f m, (g.path k).wait ≠ .handler c f m) :
    s.handlerNext gk = s := by
  simp only [State.handlerNext, hg]
  split
  · rfl
  · rw [List.filter_eq_nil_iff.2 fun k _ => ?_]
    · rfl
    · split
      · exact absurd ‹_› (hq k _ _ _)
      · exact Bool.false_ne_true

/-- The path's threads leave a group in which threads remain and no path is queued for the handler (R107). -/
theorem exitPath_remaining {s : State} {gk pi : Nat} {g : Grp} (hg : s.grp gk = some g) (halive : g.alive &&& ~~~(g.path pi).mask ≠ 0)
    (hq : ∀ q ∈ g.paths, ∀ c f m, q.wait ≠ .handler c f m) :
    s.exitPath gk pi = s.setGrp gk (Path.set { g with alive := g.alive &&& ~~~(g.path pi).mask } pi Path.free) := by
  have unqueued (k c f m) : ((Path.set { g with alive := g.alive &&& ~~~(g.path pi).mask } pi Path.free).path k).wait ≠ .handler c f m := by
    rcases Grp.path_mem_or_free (Path.set { g with alive := g.alive &&& ~~~(g.path pi).mask } pi Path.free) k with hmem | hfree
    · rcases List.mem_or_eq_of_mem_set hmem with hold | hnew
      · exact hq _ hold c f m
      · rw [hnew]; exact Wait.noConfusion
    · rw [hfree]; exact Wait.noConfusion
  simp only [State.exitPath, State.updGrp_some hg]
  rw [handlerNext_unqueued (State.grp_setGrp ..) unqueued]
  simp only [State.grp_setGrp]
  exact if_neg (mt eq_of_beq halive)

/-- Settles O17. -/
theorem joinAndExit : Obligations.JoinAndExit := by
  unfold Obligations.JoinAndExit
  intro st s e h
  obtain ⟨-, -, hg, -, hp⟩ := State.env_eq_some h
  refine ⟨fun hc halone => ?alone, fun hc hothers => ?parks, fun hc halive hq => ?exit, fun hc => ?exitg⟩
  case alone =>
    rw [show exec (.join st) s = execJoin st s from rfl, execJoin, issueWith_clear h hc, halone, if_pos List.isEmpty_nil, Env.finish_self h]
    rfl
  case parks =>
    rw [show exec (.join st) s = execJoin st s from rfl, execJoin, issueWith_clear h hc, if_neg (mt List.isEmpty_iff.1 hothers), Env.park_self h]
    rfl
  case exit =>
    rw [hp] at halive ⊢
    rw [show exec (.exit st) s = execExit st s from rfl, execExit, issueWith_clear h hc, exitPath_remaining hg halive hq]
  case exitg =>
    rw [show exec (.exitg st) s = execExitg st s from rfl, execExitg, issueWith_clear h hc, State.exitGroup, State.updGrp_some (by exact hg)]

/-! ### TRAP, TRAPP and BKPT -/

theorem lowestVa_sameTrap_const (tr : Trap) (va : Nat) {ts : List Nat} (h : ts ≠ []) : lowestVa (sameTrap tr (fun _ => va) ts) = va := by
  obtain ⟨⟨-, -, hat⟩, -⟩ := lowestVa_sameTrap tr (fun _ => va) h
  exact hat

/-! ### FPEXC -/

/-- The results of threads all of which trap FPEXC with these flags (R89). -/
def fpexcResults (fl : Nat → Flags) (ts : List Nat) : List (Nat × TRes) := ts.map fun t => (t, { err := some (trap .fpexc), fl := fl t })

section Fpexc
variable (fl : Nat → Flags) (ts : List Nat)

theorem failsOf_fpexcResults : failsOf (fpexcResults fl ts) = sameTrap (trap .fpexc) (fun _ => noVa) ts := by
  simp [failsOf, fpexcResults, sameTrap, List.filterMap_map]

/-- Their flags are raised, and nothing else is pending for them. -/
theorem laneFix_fpexcResults (ready : Nat) (m : Mask) : laneFix ready m (fpexcResults fl ts) =
    { ready := ready, mask := m, vw := [], sw := [], pw := [], qw := [], xw := [], flags := ts.foldl (fun f t => f ||| fl t) 0, spec := none } := by
  have stops : stoppedOf (fpexcResults fl ts) = 0 := by
    have none_stops : (fpexcResults fl ts).filter (fun r => r.2.stops) = [] := List.filter_eq_nil_iff.2 fun r hr => by
      obtain ⟨t, -, rfl⟩ := List.mem_map.1 hr
      exact Bool.false_ne_true
    rw [stoppedOf, none_stops]
    rfl
  have commit : (fpexcResults fl ts).filter (fun r => r.2.err.isNone) = [] := List.filter_eq_nil_iff.2 fun r hr => by
    obtain ⟨t, -, rfl⟩ := List.mem_map.1 hr
    exact Bool.false_ne_true
  have flags : flagsOf (fpexcResults fl ts) = ts.foldl (fun f t => f ||| fl t) 0 := by
    simp only [flagsOf, fpexcResults, List.foldl_map, trap, beq_self_eq_true, if_true]
  rw [laneFix, stops, commit, flags, and_not_zero]
  rfl

theorem srn_fpexcResults : (fpexcResults fl ts).filter (fun r => r.2.srn) = [] := List.filter_eq_nil_iff.2 fun r hr => by
  obtain ⟨t, -, rfl⟩ := List.mem_map.1 hr
  exact Bool.false_ne_true

end Fpexc

/-- The pending result of a lane instruction that only raises flags. -/
theorem Env.laneFix_flags (e : Env) (lat : Nat) (fl : Nat → Flags) : e.laneFix lat (fun _ => []) (fun _ => []) fl =
    { ready := e.s.clock + lat, mask := e.p.mask, vw := [], sw := [], pw := [], qw := [], xw := []
      flags := (threadsOf e.p.mask).foldl (fun f t => f ||| fl t) 0, spec := none } := by
  simp [Env.laneFix]

/-- A lane instruction every thread of which raises an enabled flag: all trap FPEXC, and of the result only the flags are pending (R89). -/
theorem issueLane_allFpexc {s : State} {e : Env} {i : Instr} {f : Env → Nat → TRes} (h : s.env = some e) (hc : e.Clear i)
    (hr : ∀ stl d a t, i ≠ .rdlane stl d a t) (hm : e.p.mask ≠ 0)
    (hf : ∀ t ∈ threadsOf e.p.mask, (f e t).err = none ∧ (f e t).fl &&& e.g.enables ≠ 0) :
    issueLane i f s = .next ((s.setGrp e.gk { e.seeChorusBut i e.p.mask e.p.mask e.g with
      fixed := e.g.fixed ++ [e.laneFix (fixedLatency i) (fun _ => []) (fun _ => []) fun t => (f e t).fl] }).trapEntry e.gk e.pi ⟨0x17, 0⟩ e.p.mask noVa) := by
  obtain ⟨hs, -, hg, -, -⟩ := State.env_eq_some h
  have results : e.laneResults i f = fpexcResults (fun t => (f e t).fl) (threadsOf e.p.mask) := by
    refine List.map_congr_left fun t ht => ?_
    have hd : e.deferred i t = none := hc.2 t (by rwa [Env.mem_readers (rdlaneMask_of hr _)])
    simp only [hd, hf t ht, Option.isNone_none, Bool.true_and, bne_iff_ne, ne_eq, not_false_eq_true, if_true]
  simp only [issueLane, h, hc.1, results, failsOf_fpexcResults, laneFix_fpexcResults, srn_fpexcResults, Env.finish, Env.finishAs_sameTrap e _ _ _ _ hm,
    lowestVa_sameTrap_const _ _ (threadsOf_ne_nil hm), Env.seeFails, Fails.mask_sameTrap, Fails.named_sameTrap _ _ hm, hm, if_false, List.map_nil, bumpSeq,
    List.foldl_nil, State.updGrp_some hg, Env.seeChorusBut_fixed, Env.laneFix_flags, hs]
  rfl

/-- Settles O21. -/
theorem softwareAndFloatTraps : Obligations.SoftwareAndFloatTraps := by
  unfold Obligations.SoftwareAndFloatTraps
  refine ⟨fun st code k n p s e h => ?_, fun st d a b s e h hc hm hen => issueLane_allFpexc h hc nofun hm fun t ht => ⟨rfl, hen t ht⟩⟩
  obtain ⟨hs, -, -, -, -⟩ := State.env_eq_some h
  refine ⟨fun hc => ?trap, fun hc hnone => ?trapp_none, fun hc hm hall => ?trapp, fun hc hdbg => ?bkpt, fun hc hdbg hopen => ?holds⟩
  case trap => exact issueWith_clear h hc
  case trapp_none =>
    rw [show exec (.trapp st code k n p) s = execTrapp st code k n p s from rfl, execTrapp, issueWith_clear h hc,
      List.filter_eq_nil_iff.2 fun t ht => by rw [hnone t ht]; exact Bool.false_ne_true]
    exact congrArg _ (Env.finish_self h ..)
  case trapp =>
    rw [show exec (.trapp st code k n p) s = execTrapp st code k n p s from rfl, execTrapp, issueWith_clear h hc, List.filter_eq_self.2 hall]
    refine congrArg _ ((e.finishAs_sameTrap _ (trapI .swtrap code.toNat) (fun _ => noVa) s hm).trans ?_)
    rw [lowestVa_sameTrap_const _ _ (threadsOf_ne_nil hm), Env.trapAll, hs]
    rfl
  case bkpt =>
    rw [show exec (.bkpt st code) s = execBkpt st code s from rfl, execBkpt, issueWith_clear h hc, hdbg]
    rfl
  case holds =>
    rw [show exec (.bkpt st code) s = execBkpt st code s from rfl, execBkpt, issueWith_clear h hc, hdbg, hopen]
    rfl

end Sys2Proof.Machine
end

section
/-! PROOFS. Special registers: what SREAD delivers and latches, what SWRITE leaves pending and its landing makes of the register (R84, R86, R110,
R113, R119). -/
namespace Sys2Proof.Machine
open Sys2Proof Host

/-! ### Reading -/

theorem determSpecial_iff {n : Nat} : determSpecial n = true ↔ n ∈ [0x09, 0x14, 0x15, 0x16, 0x18, 0x1C] := List.contains_iff_mem

/-- Only a read of CYCLE latches (R110). -/
theorem latchCycle_of_ne {s : State} {gk core : Nat} {n : BitVec 7} (h : n ≠ 0x16) : s.latchCycle gk core n.toNat = s :=
  if_neg fun h16 => h (BitVec.eq_of_toNat_eq h16)

/-- What an instruction sees after the high half of CYCLE, as it stands in `s`, has been latched (R110). -/
def Env.latched (e : Env) (s : State) : Env := { e with g := { e.g with cycleh := BitVec.ofNat 32 (s.cycleOf e.b.core / 2 ^ 32) } }

theorem Env.env_latchCycle {e : Env} (h : e.s.env = some e) :
    (e.s.latchCycle e.gk e.b.core 0x16).env = some { e.latched e.s with s := e.s.setGrp e.gk (e.latched e.s).g } := by
  obtain ⟨-, hi, hg, hb, hp⟩ := State.env_eq_some h
  have latch : e.s.latchCycle e.gk e.b.core 0x16 = e.s.setGrp e.gk (e.latched e.s).g := (if_pos rfl).trans (State.updGrp_some hg _)
  rw [latch, State.env_of (s := e.s.setGrp e.gk (e.latched e.s).g) hi (State.grp_setGrp ..) hb]
  simp only [Env.latched, hp]
  rfl

/-- A completion writes the group whole: what the state of issue held of it does not matter. -/
theorem Env.laneDone_over_setGrp (e : Env) (g : Grp) (i : Instr) (lat : Nat) (vw : Nat → List (Nat × RegVal)) (pw : Nat → List (Nat × Bool))
    (fl : Nat → Flags) (sr : Bool) : ({ e with s := e.s.setGrp e.gk g } : Env).laneDone i lat vw pw fl sr = e.laneDone i lat vw pw fl sr := by
  simp only [Env.laneDone, Env.goesOn, State.setGrp_setGrp]
  rfl
theorem Env.uniDone_over_setGrp (e : Env) (g : Grp) (i : Instr) (pc : DWord) (lat : Nat) (sw : List (Nat × RegVal)) (qw : List (Nat × Bool))
    (xw : List (Nat × Word)) (fl : Flags) (sr : Bool) (spec : Option (Nat × Word)) :
    ({ e with s := e.s.setGrp e.gk g } : Env).uniDone i pc lat sw qw xw fl sr spec = e.uniDone i pc lat sw qw xw fl sr spec := by
  simp only [Env.uniDone, Env.goesOn, State.setGrp_setGrp]
  rfl

section Sread
variable {st : BitVec 3} {d n : BitVec 7} {s : State} {e : Env} (h : s.env = some e)
include h

theorem exec_sread_determ (hc : e.issueTrap (.sread st d n) = none) (hdet : e.b.det = true) (hn : determSpecial n.toNat = true) :
    exec (.sread st d n) s = .next (e.trapAll ⟨0x12, 0⟩) := by
  rw [show exec (.sread st d n) s = execSread st d n s from rfl, execSread, issueWith_clear h hc, hdet, hn]
  rfl
theorem exec_sreadU_determ (hc : e.issueTrap (.sreadU st d n) = none) (hdet : e.b.det = true) (hn : determSpecial n.toNat = true) :
    exec (.sreadU st d n) s = .next (e.trapAll ⟨0x12, 0⟩) := by
  rw [show exec (.sreadU st d n) s = execSreadU st d n s from rfl, execSreadU, issueWith_clear h hc, hdet, hn]
  rfl

theorem exec_sread_reads (hc : e.issueTrap (.sread st d n) = none) (hd : (e.b.det && determSpecial n.toNat) = false) :
    exec (.sread st d n) s = issueLane (.sread st d n) (fun e t => { vw := [(e.g.num d, ⟨e.special n.toNat t, false⟩)] })
      (s.latchCycle e.gk e.b.core n.toNat) := by
  rw [show exec (.sread st d n) s = execSread st d n s from rfl, execSread, issueWith_clear h hc, if_neg (Bool.not_eq_true _ ▸ hd)]
theorem exec_sreadU_reads (hc : e.issueTrap (.sreadU st d n) = none) (hd : (e.b.det && determSpecial n.toNat) = false) :
    exec (.sreadU st d n) s = issueUniform (.sreadU st d n) (fun e => { sw := [(d.toNat, ⟨e.special n.toNat 127, false⟩)] })
      (s.latchCycle e.gk e.b.core n.toNat) := by
  rw [show exec (.sreadU st d n) s = execSreadU st d n s from rfl, execSreadU, issueWith_clear h hc, if_neg (Bool.not_eq_true _ ▸ hd)]

end Sread

section Numbers
variable {st : BitVec 3} {d n : BitVec 7} {s : State} {e : Env}

/-- A number other than CYCLE's that does not trap under DET. -/
theorem not_determ (hn : ¬(e.b.det = true ∧ n.toNat ∈ [0x09, 0x14, 0x15, 0x16, 0x18, 0x1C])) : (e.b.det && determSpecial n.toNat) = false := by
  rwa [← Bool.not_eq_true, Bool.and_eq_true, determSpecial_iff]

theorem sread_gives : LaneGives (.sread st d n) 3 (fun e => n ≠ 0x16 ∧ ¬(e.b.det = true ∧ n.toNat ∈ [0x09, 0x14, 0x15, 0x16, 0x18, 0x1C]))
    (fun e t => [(e.g.num d, ⟨e.special n.toNat t, false⟩)]) (fun _ _ => []) (fun _ _ => 0) false := by
  rintro s e h hc ⟨hne, hdet⟩
  rw [exec_sread_reads h hc.1 (not_determ hdet), latchCycle_of_ne hne,
    issueLane_clear h hc nofun (fun _ _ => ⟨rfl, BitVec.zero_and⟩) (sr := false) fun _ _ => rfl]
  rfl
theorem sreadU_gives : UniGives (.sreadU st d n) 2 (fun e => n ≠ 0x16 ∧ ¬(e.b.det = true ∧ n.toNat ∈ [0x09, 0x14, 0x15, 0x16, 0x18, 0x1C]))
    (fun e => [(d.toNat, ⟨e.special n.toNat 127, false⟩)]) (fun _ => []) (fun _ => []) (fun _ => 0) false (fun _ => none) := by
  rintro s e h hc ⟨hne, hdet⟩
  rw [exec_sreadU_reads h hc.1 (not_determ hdet), latchCycle_of_ne hne, issueUniform_clear h hc rfl BitVec.zero_and]
  rfl

/-- SREAD of CYCLE delivers the low half and latches the high one (R110). -/
theorem sread_cycle (h : s.env = some e) (hc : e.Clear (.sread st d 0x16)) (hdet : e.b.det = false) :
    exec (.sread st d 0x16) s = .next ((e.latched s).laneDone (.sread st d 0x16) 3
      (fun _ => [(e.g.num d, ⟨BitVec.ofNat 32 (s.cycleOf e.b.core), false⟩)]) (fun _ => []) (fun _ => 0) false) := by
  obtain ⟨rfl, -⟩ := State.env_eq_some h
  have clear : Env.Clear { e.latched e.s with s := e.s.setGrp e.gk (e.latched e.s).g } (.sread st d 0x16) := hc
  rw [exec_sread_reads h hc.1 (by rw [hdet]; rfl)]
  exact (issueLane_clear (Env.env_latchCycle h) clear nofun (fun _ _ => ⟨rfl, BitVec.zero_and⟩) (sr := false) fun _ _ => rfl).trans
    (congrArg _ ((e.latched e.s).laneDone_over_setGrp ..))
theorem sreadU_cycle (h : s.env = some e) (hc : e.Clear (.sreadU st d 0x16)) (hdet : e.b.det = false) :
    exec (.sreadU st d 0x16) s = .next ((e.latched s).uniDone (.sreadU st d 0x16) (e.nextPc (.sreadU st d 0x16)) 2
      [(d.toNat, ⟨BitVec.ofNat 32 (s.cycleOf e.b.core), false⟩)] [] [] 0 false none) := by
  obtain ⟨rfl, -⟩ := State.env_eq_some h
  have clear : Env.Clear { e.latched e.s with s := e.s.setGrp e.gk (e.latched e.s).g } (.sreadU st d 0x16) := hc
  rw [exec_sreadU_reads h hc.1 (by rw [hdet]; rfl)]
  exact (issueUniform_clear (Env.env_latchCycle h) clear rfl BitVec.zero_and).trans (congrArg _ ((e.latched e.s).uniDone_over_setGrp ..))

end Numbers

/-! ### Writing -/

section Swrite
variable {st : BitVec 3} {n a : BitVec 7}

theorem swrite_gives : UniGives (.swrite st n a) 2 (fun e => (e.uni a).poison = false) (fun _ => []) (fun _ => []) (fun _ => []) (fun _ => 0) false
    (fun e => some (n.toNat, (e.uni a).val)) := by
  intro s e h hc hz
  have pending : (if (e.uni a).poison then { err := some (trap .poison) } else { spec := some (n.toNat, (e.uni a).val) } : URes) =
      { spec := some (n.toNat, (e.uni a).val) } := by rw [hz]; rfl
  rw [show exec (.swrite st n a) s = execSwrite st n a s from rfl, execSwrite,
    issueUniform_clear h hc (by rw [pending]) (by rw [pending]; exact BitVec.zero_and), pending]
  rfl

theorem swrite_traps {s : State} {e : Env} (h : s.env = some e) (hc : e.Clear (.swrite st n a)) (hz : (e.uni a).poison = true) :
    exec (.swrite st n a) s = .next ((s.setGrp e.gk (e.seeChorus (.swrite st n a) e.g)).trapEntry e.gk e.pi ⟨0x0B, 0⟩ e.p.mask noVa) :=
  issueUniformTo_traps h hc (by rw [hz]; rfl)

end Swrite

theorem toNat_append_eq (m n : Nat) (x : BitVec m) (y : BitVec n) : (x ++ y).toNat = x.toNat * 2 ^ n + y.toNat := by
  rw [BitVec.toNat_append, ← Nat.shiftLeft_add_eq_or_of_lt y.isLt, Nat.shiftLeft_eq]

/-- RMODE as a number after SWRITE: the stream, and MODE where the new one is legal (R84). -/
theorem toNat_rmodeWritten (old x : Word) : (rmodeWritten old x).toNat =
    x.toNat / 2 ^ 16 * 2 ^ 16 + if x.toNat % 8 ≤ 4 then x.toNat % 8 else old.toNat % 8 := by
  have mode (y : Word) : (y.extractLsb' 0 3).toNat = y.toNat % 8 := by rw [BitVec.extractLsb'_toNat, Nat.shiftRight_zero]
  have stream : (x.extractLsb' 16 16).toNat = x.toNat / 2 ^ 16 := by
    rw [BitVec.extractLsb'_toNat, Nat.shiftRight_eq_div_pow]
    omega
  simp only [rmodeWritten, toNat_append_eq, stream, mode]
  rw [show (0 : BitVec 13).toNat = 0 from rfl]
  split <;> simp only [mode] <;> omega

/-- A group size PARTN takes (R110). -/
theorem partn_legal_iff {x : Word} : [2, 4, 8, 16, 32].contains x.toNat = true ↔ x ∈ ([2, 4, 8, 16, 32] : List Word) := by
  simp only [List.contains_iff_mem, List.mem_cons, List.not_mem_nil, or_false, ← BitVec.toNat_inj]
  rfl

section WriteSpecial
variable (g : Grp) (x : Word)

theorem writeSpecial_partn : g.writeSpecial 0x1A x = if x ∈ ([2, 4, 8, 16, 32] : List Word) then { g with partn := x.toNat } else g := by
  rw [← if_congr partn_legal_iff rfl rfl]
  rfl

theorem writeSpecial_other {n : Nat} (hn : n ∉ [0x0D, 0x13, 0x1A, 0x1B]) : g.writeSpecial n x = g := by
  simp only [List.mem_cons, List.not_mem_nil, or_false, not_or] at hn
  obtain ⟨hflags, hbankc, hpartn, hrmode⟩ := hn
  unfold Grp.writeSpecial
  split
  · exact absurd rfl hflags
  · exact absurd rfl hbankc
  · exact absurd rfl hpartn
  · exact absurd rfl hrmode
  · rfl

end WriteSpecial

/-- Settles O22. -/
theorem specialRegisters : Obligations.SpecialRegisters := by
  unfold Obligations.SpecialRegisters
  refine ⟨fun st d n => ⟨sread_gives, sreadU_gives, fun s e => sread_cycle, fun s e => sreadU_cycle, fun s e h hdet hn => ?determ, fun e t => ?values⟩,
    fun st n a => ⟨swrite_gives, fun s e => swrite_traps⟩, fun g n x => ⟨?flags, ?bankc, ?partn, ?rmode, writeSpecial_other g x⟩⟩
  case determ =>
    exact ⟨fun hc => exec_sread_determ h hc hdet (determSpecial_iff.2 hn), fun hc => exec_sreadU_determ h hc hdet (determSpecial_iff.2 hn)⟩
  case values => exact ⟨rfl, rfl, rfl, rfl, rfl, rfl, rfl, rfl, rfl, BitVec.toNat_ofNat .., rfl, rfl⟩
  case flags => rintro rfl; rfl
  case bankc => rintro rfl; rfl
  case partn =>
    rintro rfl
    rw [writeSpecial_partn]
    exact ⟨fun hx => if_pos hx, fun hx => if_neg hx⟩
  case rmode =>
    rintro rfl
    exact toNat_rmodeWritten g.rmode x

end Sys2Proof.Machine
end

section
/-! PROOFS. WAITBLK (R117), and the extended set: which groups wait for it, granting it and giving it up (R118). -/
namespace Sys2Proof.Machine
open Sys2Proof Host

/-! ### Tables -/

theorem SMap.mem_of_find? {α : Type} {m : SMap α} {k : Nat} {v : α} (h : SMap.find? m k = some v) : (k, v) ∈ m := by
  induction m with
  | nil => cases h
  | cons x m ih =>
    simp only [SMap.find?] at h
    split at h
    · cases h
      subst k
      exact List.mem_cons_self
    · exact List.mem_cons_of_mem _ (ih h)

/-- A table whose values are changed, its keys left. -/
theorem SMap.find?_mapVals {α : Type} (f : α → α) (m : SMap α) (k : Nat) :
    SMap.find? (m.map fun x => (x.1, f x.2)) k = (SMap.find? m k).map f := by
  induction m with
  | nil => rfl
  | cons x m ih =>
    simp only [List.map_cons, SMap.find?]
    split
    · rfl
    · exact ih

/-! ### Releases and acquires leave everything but their lists -/

/-- What every step of a fold keeps, the fold keeps. -/
theorem foldl_keeps {σ α β : Type} {π : σ → β} {f : σ → α → σ} (h : ∀ s x, π (f s x) = π s) (l : List α) (s : σ) : π (l.foldl f s) = π s := by
  induction l generalizing s with
  | nil => rfl
  | cons x l ih => exact (ih (f s x)).trans (h s x)

/-- What an acquire of one path keeps, the acquires of all keep. -/
theorem acquireAll_keeps {β : Type} {π : State → β} (h : ∀ s gk m deps, π (s.syncTo gk m deps) = π s) (s : State) (who : Grp → Bool) (f : Wait → Bool)
    (deps : List Nat) : π (s.acquireAll who f deps) = π s := by
  unfold State.acquireAll
  split
  · rfl
  · exact foldl_keeps (fun s (x : Nat × Grp) => foldl_keeps (fun s m => h s x.1 m deps) _ s) _ s

theorem syncTo_groups (s : State) (gk : Nat) (m : Mask) (deps : List Nat) : (s.syncTo gk m deps).groups = s.groups := by
  simp only [State.syncTo]; split <;> rfl
theorem syncTo_blocks (s : State) (gk : Nat) (m : Mask) (deps : List Nat) : (s.syncTo gk m deps).blocks = s.blocks := by
  simp only [State.syncTo]; split <;> rfl
theorem syncTo_mem (s : State) (gk : Nat) (m : Mask) (deps : List Nat) : (s.syncTo gk m deps).mem = s.mem := by
  simp only [State.syncTo]; split <;> rfl

/-- The end and the joining of a release change the releases of their block, and nothing else. -/
theorem endRel_blk {s : State} {bk : Nat} {b : Blk} (h : s.blk bk = some b) (k : Nat) : ∃ rels, (s.endRel bk k).blk bk = some { b with rels := rels } := by
  simp only [State.endRel, h]
  split
  · exact ⟨b.rels, h⟩
  · exact ⟨_, State.blk_setBlk ..⟩
theorem addRel_blk {s : State} {bk : Nat} {b : Blk} (h : s.blk bk = some b) (k gk : Nat) (m : Mask) :
    ∃ rels, (s.addRel bk k gk m).blk bk = some { b with rels := rels } := by
  simp only [State.addRel]
  split
  · exact ⟨b.rels, h⟩
  · rw [State.updBlk_some h]
    exact ⟨_, State.blk_setBlk ..⟩
theorem endRel_groups (s : State) (bk k : Nat) : (s.endRel bk k).groups = s.groups := by
  unfold State.endRel; split <;> [split <;> rfl; rfl]
theorem endRel_mem (s : State) (bk k : Nat) : (s.endRel bk k).mem = s.mem := by
  unfold State.endRel; split <;> [split <;> rfl; rfl]
theorem addRel_groups (s : State) (bk k gk : Nat) (m : Mask) : (s.addRel bk k gk m).groups = s.groups := by
  simp only [State.addRel]; split <;> [rfl; exact State.updBlk_groups ..]
theorem addRel_mem (s : State) (bk k gk : Nat) (m : Mask) : (s.addRel bk k gk m).mem = s.mem := by
  simp only [State.addRel]; split <;> [rfl; exact State.updBlk_mem ..]

/-! ### Who waits for the set -/

/-- The wait of a path that waits in RACQ. -/
def Wait.isRacq : Wait → Bool | .racq => true | _ => false

theorem Wait.isRacq_iff {w : Wait} : w.isRacq = true ↔ w = .racq := by cases w <;> simp [Wait.isRacq]

/-- No path of the machine waits in RACQ. -/
def State.NoneWaits (s : State) : Prop := ∀ x ∈ s.groups, ∀ q, (q ∈ x.2.paths ∨ q ∈ x.2.spilled.map (·.2)) → q.wait ≠ .racq

theorem racqWaiters_eq (s : State) (bk : Nat) : s.racqWaiters bk = ((s.groupsOf bk).filter fun x => x.2.waits Wait.isRacq).map (·.2.gix) := rfl

theorem racqWaiters_of_groups {s t : State} {bk : Nat} (h : t.groups = s.groups) : t.racqWaiters bk = s.racqWaiters bk := by
  simp only [State.racqWaiters, State.groupsOf, h]

theorem mem_racqWaiters {s : State} {bk gix : Nat} :
    gix ∈ s.racqWaiters bk ↔ ∃ x ∈ s.groups, x.2.blk = bk ∧ x.2.waits Wait.isRacq = true ∧ x.2.gix = gix := by
  simp only [racqWaiters_eq, State.groupsOf, List.mem_map, List.mem_filter, beq_iff_eq, and_assoc]

/-- A group one path of the table of which waits as picked. -/
theorem Grp.waits_of_path {g : Grp} {f : Wait → Bool} {k : Nat} (hk : k < g.paths.length) (hst : (g.path k).st = .parked) (hf : f (g.path k).wait = true) :
    g.waits f = true := by
  refine Bool.or_eq_true_iff.2 (.inl (List.any_eq_true.2 ⟨g.path k, ?_, by rw [hst, hf]; rfl⟩))
  rw [Grp.path, List.getD_eq_getElem _ _ hk]
  exact List.getElem_mem hk

/-- A group no path of which waits as picked. -/
theorem Grp.waits_eq_false {g : Grp} {f : Wait → Bool} (h : ∀ q, (q ∈ g.paths ∨ q ∈ g.spilled.map (·.2)) → f q.wait = false) : g.waits f = false := by
  simp only [Grp.waits, Bool.or_eq_false_iff, List.any_eq_false, Bool.and_eq_true, not_and, Bool.not_eq_true]
  exact ⟨fun q hq _ => h q (.inl hq), fun x hx => h x.2 (.inr (List.mem_map_of_mem hx))⟩

theorem State.NoneWaits.waits {s : State} (h : s.NoneWaits) {x : Nat × Grp} (hx : x ∈ s.groups) : x.2.waits Wait.isRacq = false :=
  Grp.waits_eq_false fun q hq => Bool.not_eq_true _ ▸ mt Wait.isRacq_iff.1 (h x hx q hq)

theorem State.NoneWaits.racqWaiters {s : State} (h : s.NoneWaits) (bk : Nat) : s.racqWaiters bk = [] :=
  List.eq_nil_iff_forall_not_mem.2 fun _ hg => by
    obtain ⟨x, hx, -, hw, -⟩ := mem_racqWaiters.1 hg
    rw [h.waits hx] at hw
    exact Bool.false_ne_true hw

/-! ### Granting the set -/

/-- Waiters as picked go on, in the groups picked. -/
theorem State.grp_release (s : State) (who : Grp → Bool) (f : Wait → Bool) (k : Nat) :
    (s.release who f).grp k = (s.grp k).map fun g => if who g then g.resumeWait f else g :=
  SMap.find?_mapVals (fun g => if who g then g.resumeWait f else g) s.groups k

/-- The least of numbers all of which are equal. -/
theorem foldl_min_const {w : Nat} {ws : List Nat} (h : ∀ x ∈ ws, x = w) : ws.foldl min w = w := by
  induction ws with
  | nil => rfl
  | cons x ws ih =>
    obtain rfl := h x List.mem_cons_self
    rw [List.foldl_cons, min_self]
    exact ih fun y hy => h y (List.mem_cons_of_mem _ hy)

section Grant
variable {s : State} {bk : Nat} {b : Blk} (h : s.blk bk = some b)
include h

/-- A set that is held, or for which none waits, is not granted; only the turn may move. -/
theorem grantSet_stays (hs : b.holder.isSome = true ∨ s.racqWaiters bk = []) : ∃ turn, s.grantSet bk = s.setBlk bk { b with turn := turn } := by
  refine ⟨s.passTurn bk b.gpb b.gpb b.turn, ?_⟩
  simp only [State.grantSet, h]
  rcases hs with hheld | hnone
  · exact if_pos hheld
  · split
    · rfl
    · rw [show ∀ b', (s.setBlk bk b').racqWaiters bk = [] from fun _ => hnone]
      rfl

/-- A free set for which one group waits is granted to it: it holds the set, and its path goes on. -/
theorem grantSet_grants {gix : Nat} (hfree : b.holder = none) (hdet : b.det = false) (hne : s.racqWaiters bk ≠ []) (honly : ∀ g ∈ s.racqWaiters bk, g = gix) :
    (s.grantSet bk).mem = s.mem ∧ (∃ turn, (s.grantSet bk).blk bk = some { b with turn := turn, holder := some gix })
      ∧ ∀ k, (s.grantSet bk).grp k = (s.grp k).map fun g => if g.blk == bk && g.gix == gix then g.resumeWait Wait.isRacq else g := by
  let turn := s.passTurn bk b.gpb b.gpb b.turn
  let who (g : Grp) : Bool := g.blk == bk && g.gix == gix
  let s1 := (s.setBlk bk { b with turn := turn }).acquireAll who Wait.isRacq (b.relDeps 32)
  have hblk : s1.blk bk = some { b with turn := turn } :=
    (congrArg (SMap.find? · bk) (acquireAll_keeps syncTo_blocks ..)).trans (State.blk_setBlk ..)
  have hgrant : s.grantSet bk = (s1.setBlk bk { b with turn := turn, holder := some gix }).release who Wait.isRacq := by
    obtain ⟨w, ws, hws⟩ := List.exists_cons_of_ne_nil hne
    rw [hws] at honly
    obtain rfl := honly w List.mem_cons_self
    have lowest : ws.foldl min w = w := foldl_min_const fun x hx => honly x (List.mem_cons_of_mem _ hx)
    have asked (b' : Blk) : (s.setBlk bk b').racqWaiters bk = w :: ws := hws
    have free : b.holder.isSome = false := by rw [hfree]; rfl
    have anyTurn (x : Bool) : (!b.det || x) = true := by rw [hdet]; rfl
    rw [← State.updBlk_some hblk fun b => { b with holder := some w }]
    simp only [State.grantSet, h, free, Bool.false_eq_true, if_false, asked, anyTurn, List.filter_true, lowest]
    rfl
  refine ⟨?_, ⟨turn, ?_⟩, fun k => ?_⟩
  · rw [hgrant]
    exact acquireAll_keeps syncTo_mem ..
  · rw [hgrant]
    exact State.blk_setBlk ..
  · rw [hgrant, State.grp_release, State.grp_setBlk]
    rw [State.grp, acquireAll_keeps (π := State.groups) syncTo_groups]
    rfl

/-- A group that gives the set up where none waits for it leaves it free (R118). -/
theorem releaseSet_unwanted (gk gix : Nat) (m : Mask) (hheld : b.holder = some gix) (hnone : s.racqWaiters bk = []) :
    (s.releaseSet bk gk gix m).groups = s.groups ∧ (s.releaseSet bk gk gix m).mem = s.mem
      ∧ ∃ b', (s.releaseSet bk gk gix m).blk bk = some b' ∧ b'.holder = none ∧ b'.xr = b.xr := by
  obtain ⟨rels, hend⟩ := endRel_blk h 32
  obtain ⟨rels', hadd⟩ := addRel_blk hend 32 gk m
  have hgroups : ((s.endRel bk 32).addRel bk 32 gk m).groups = s.groups := (addRel_groups ..).trans (endRel_groups ..)
  have hmem : ((s.endRel bk 32).addRel bk 32 gk m).mem = s.mem := (addRel_mem ..).trans (endRel_mem ..)
  have hwaiters (b' : Blk) : (((s.endRel bk 32).addRel bk 32 gk m).setBlk bk b').racqWaiters bk = [] :=
    (racqWaiters_of_groups ((State.setBlk_groups ..).trans hgroups)).trans hnone
  obtain ⟨turn, hgrant⟩ := grantSet_stays (State.blk_setBlk _ bk { b with rels := rels', holder := none, turn := (gix + 1) % b.gpb }) (.inr (hwaiters _))
  simp only [State.releaseSet, h, hheld, beq_self_eq_true, if_true, State.updBlk_some hadd]
  rw [hgrant, State.setBlk_groups, State.setBlk_groups, State.setBlk_mem, State.setBlk_mem]
  exact ⟨hgroups, hmem, _, State.blk_setBlk .., rfl, rfl⟩

end Grant

/-! ### Paths that go on -/

theorem Path.set_sameRegs (g : Grp) (k : Nat) (p : Path) : (Path.set g k p).SameRegs g :=
  ⟨rfl, rfl, rfl, rfl, rfl, rfl, rfl, rfl, rfl, rfl, rfl, rfl, rfl⟩

theorem Grp.SameRegs.trans {g h k : Grp} (hgh : g.SameRegs h) (hhk : h.SameRegs k) : g.SameRegs k where
  v := hgh.v.trans hhk.v
  s := hgh.s.trans hhk.s
  p := hgh.p.trans hhk.p
  q := hgh.q.trans hhk.q
  x := hgh.x.trans hhk.x
  flags := hgh.flags.trans hhk.flags
  rmode := hgh.rmode.trans hhk.rmode
  bankc := hgh.bankc.trans hhk.bankc
  partn := hgh.partn.trans hhk.partn
  trapCause := hgh.trapCause.trans hhk.trapCause
  trapPc := hgh.trapPc.trans hhk.trapPc
  trapMask := hgh.trapMask.trans hhk.trapMask
  alive := hgh.alive.trans hhk.alive

theorem Grp.resumeWait_sameRegs (f : Wait → Bool) (g : Grp) : (g.resumeWait f).SameRegs g := by
  simp only [Grp.resumeWait]
  split <;> exact ⟨rfl, rfl, rfl, rfl, rfl, rfl, rfl, rfl, rfl, rfl, rfl, rfl, rfl⟩

/-- A parked path of the table whose wait is picked goes on. -/
theorem Grp.path_resumeWait {g : Grp} {f : Wait → Bool} {k : Nat} (hk : k < g.paths.length) (hst : (g.path k).st = .parked) (hf : f (g.path k).wait = true) :
    (g.resumeWait f).path k = (g.path k).goes := by
  have hget : g.path k = g.paths[k] := List.getD_eq_getElem _ _ hk
  have hany : (g.paths.any fun p => p.st == .parked && f p.wait) = true :=
    List.any_eq_true.2 ⟨g.path k, hget ▸ List.getElem_mem hk, by rw [hst, hf]; rfl⟩
  simp only [Grp.resumeWait, hany, if_true]
  rw [Grp.path, List.getD_eq_getElem _ _ (by simpa using hk), List.getElem_map, ← hget, hst, hf]
  rfl

/-! ### RACQ and RREL -/

/-- The issuing group with its path parked in RACQ. -/
def Env.racqGroup (e : Env) (st : BitVec 3) : Grp :=
  Path.set e.g e.pi { e.advance (.racq st) e.p.pc e.p with st := .parked, wait := .racq, resume := e.p.pc + 4 }

section Racq
variable {st : BitVec 3} {s : State} {e : Env}

theorem Env.racqGroup_path (hpi : e.pi < e.g.paths.length) : (e.racqGroup st).path e.pi =
    { e.advance (.racq st) e.p.pc e.p with st := .parked, wait := .racq, resume := e.p.pc + 4 } := Path.set_path_self _ hpi

/-- Where none waited before, the group that parks in RACQ is the one that waits. -/
theorem racqWaiters_parked (hidle : s.NoneWaits) (hpi : e.pi < e.g.paths.length) :
    (s.setGrp e.gk (e.racqGroup st)).racqWaiters e.g.blk ≠ [] ∧ ∀ g ∈ (s.setGrp e.gk (e.racqGroup st)).racqWaiters e.g.blk, g = e.g.gix := by
  have hpath := e.racqGroup_path (st := st) hpi
  have hwaits : (e.racqGroup st).waits Wait.isRacq = true :=
    Grp.waits_of_path (k := e.pi) (by simpa [Env.racqGroup, Path.set] using hpi) (by rw [hpath]) (by rw [hpath]; rfl)
  constructor
  · exact List.ne_nil_of_mem (mem_racqWaiters.2 ⟨_, SMap.mem_of_find? (State.grp_setGrp s e.gk (e.racqGroup st)), rfl, hwaits, rfl⟩)
  · intro g hg
    obtain ⟨x, hx, -, hw, rfl⟩ := mem_racqWaiters.1 hg
    rcases SMap.mem_put hx with rfl | hold
    · rfl
    · rw [hidle.waits hold] at hw
      exact absurd hw Bool.false_ne_true

variable (h : s.env = some e) (hc : e.issueTrap (.racq st) = none) (hx : e.b.xregs ≠ 0)
include h hc hx

theorem exec_racq_holder (hh : e.b.holder = some e.g.gix) : exec (.racq st) s = .next (e.goesOn (.racq st) (e.p.pc + 4) e.g) := by
  rw [show exec (.racq st) s = execRacq st s from rfl, execRacq, issueWith_clear h hc, if_neg hx, hh, if_pos (beq_self_eq_true _), Env.finish_self h]
  rfl

theorem exec_racq_asks (hh : e.b.holder ≠ some e.g.gix) : exec (.racq st) s = .next ((s.setGrp e.gk (e.racqGroup st)).grantSet e.g.blk) := by
  rw [show exec (.racq st) s = execRacq st s from rfl, execRacq, issueWith_clear h hc, if_neg hx, if_neg (by simpa using hh), Env.park_self h]
  rfl

/-- RACQ of a set that another group holds: the path parks. -/
theorem exec_racq_parks {k : Nat} (hpi : e.pi < e.g.paths.length) (hh : e.b.holder = some k) (hk : k ≠ e.g.gix) :
    ∃ t g', exec (.racq st) s = .next t ∧ t.grp e.gk = some g' ∧ (g'.path e.pi).st = .parked ∧ (g'.path e.pi).wait = .racq
      ∧ (g'.path e.pi).resume = e.p.pc + 4 ∧ g'.SameRegs e.g ∧ t.mem = s.mem ∧ ∃ b', t.blk e.g.blk = some b' ∧ b'.holder = some k := by
  obtain ⟨-, -, -, hb, -⟩ := State.env_eq_some h
  obtain ⟨turn, hgrant⟩ := grantSet_stays (s := s.setGrp e.gk (e.racqGroup st)) hb (.inl (by rw [hh]; rfl))
  have hpath := e.racqGroup_path (st := st) hpi
  refine ⟨_, e.racqGroup st, (exec_racq_asks h hc hx (by simpa [hh] using hk)).trans (congrArg _ hgrant), State.grp_setGrp .., ?_, ?_, ?_,
    Path.set_sameRegs .., rfl, _, State.blk_setBlk .., hh⟩
  all_goals rw [hpath]

/-- RACQ of a free set that no group waits for: the group holds it and goes on. -/
theorem exec_racq_takes (hpi : e.pi < e.g.paths.length) (hfree : e.b.holder = none) (hdet : e.b.det = false) (hidle : s.NoneWaits) :
    ∃ t g' b', exec (.racq st) s = .next t ∧ t.grp e.gk = some g' ∧ (g'.path e.pi).st = .live ∧ (g'.path e.pi).pc = e.p.pc + 4
      ∧ (g'.path e.pi).mask = e.p.mask ∧ g'.SameRegs e.g ∧ t.mem = s.mem ∧ t.blk e.g.blk = some b' ∧ b'.holder = some e.g.gix ∧ b'.xr = e.b.xr := by
  obtain ⟨-, -, -, hb, -⟩ := State.env_eq_some h
  obtain ⟨hne, honly⟩ := racqWaiters_parked (st := st) hidle hpi
  obtain ⟨hmem, ⟨turn, hblk⟩, hgrp⟩ := grantSet_grants (s := s.setGrp e.gk (e.racqGroup st)) hb hfree hdet hne honly
  have hpath := e.racqGroup_path (st := st) hpi
  have goes : ((e.racqGroup st).resumeWait Wait.isRacq).path e.pi = ((e.racqGroup st).path e.pi).goes :=
    Grp.path_resumeWait (by simpa [Env.racqGroup, Path.set] using hpi) (by rw [hpath]) (by rw [hpath]; rfl)
  rw [hpath] at goes
  refine ⟨_, (e.racqGroup st).resumeWait Wait.isRacq, _, exec_racq_asks h hc hx (by simp [hfree]), ?grp, ?st, ?pc, ?mask, ?regs, hmem, hblk, rfl, rfl⟩
  case grp =>
    rw [hgrp, State.grp_setGrp]
    exact congrArg some (if_pos (Bool.and_eq_true_iff.2 ⟨beq_self_eq_true _, beq_self_eq_true _⟩))
  case regs => exact (Grp.resumeWait_sameRegs ..).trans (Path.set_sameRegs ..)
  all_goals rw [goes]; rfl

end Racq

section Rrel
variable {st : BitVec 3} {s : State} {e : Env} (h : s.env = some e) (hc : e.issueTrap (.rrel st) = none)
include h hc

theorem exec_rrel_other (hh : e.b.holder ≠ some e.g.gix) : exec (.rrel st) s = .next (e.goesOn (.rrel st) (e.p.pc + 4) e.g) := by
  have body : (if e.b.holder == some e.g.gix then s.releaseSet e.g.blk e.gk e.g.gix e.p.mask else s) = s := if_neg (by simpa using hh)
  rw [show exec (.rrel st) s = execRrel st s from rfl, execRrel, issueEffect_clear h hc (congrArg Except.ok body)]
  exact congrArg _ (Env.finish_self h ..)

/-- RREL of the holder where none waits for the set: it is free, what it holds left as it is. -/
theorem exec_rrel_holder (hpi : e.pi < e.g.paths.length) (hh : e.b.holder = some e.g.gix) (hidle : s.NoneWaits) :
    ∃ t g' b', exec (.rrel st) s = .next t ∧ t.grp e.gk = some g' ∧ e.onward (.rrel st) g' ∧ g'.SameRegs e.g ∧ t.mem = s.mem
      ∧ t.blk e.g.blk = some b' ∧ b'.holder = none ∧ b'.xr = e.b.xr := by
  obtain ⟨-, -, hg, hb, hp⟩ := State.env_eq_some h
  obtain ⟨hgroups, hmem, b', hblk, hfree, hxr⟩ := releaseSet_unwanted hb e.gk e.g.gix e.p.mask hh (hidle.racqWaiters _)
  have hgrp : (s.releaseSet e.g.blk e.gk e.g.gix e.p.mask).grp e.gk = some e.g := (congrArg (SMap.find? · e.gk) hgroups).trans hg
  have body : (if e.b.holder == some e.g.gix then s.releaseSet e.g.blk e.gk e.g.gix e.p.mask else s) = s.releaseSet e.g.blk e.gk e.g.gix e.p.mask :=
    if_pos (by rw [hh]; exact beq_self_eq_true _)
  have hexec : exec (.rrel st) s = .next ((s.releaseSet e.g.blk e.gk e.g.gix e.p.mask).setGrp e.gk
      (Path.set e.g e.pi (e.advance (.rrel st) (e.nextPc (.rrel st)) e.p))) := by
    rw [show exec (.rrel st) s = execRrel st s from rfl, execRrel, issueEffect_clear h hc (congrArg Except.ok body), State.updPath_some hgrp, ← hp]
  exact ⟨_, _, b', hexec, State.grp_setGrp .., Path.set_path_self _ hpi, Path.set_sameRegs .., hmem, hblk, hfree, hxr⟩

end Rrel

/-! ### WAITBLK -/

section Waitblk
variable {st : BitVec 3} {a : BitVec 7} {s : State} {e : Env} (h : s.env = some e) (hc : e.issueTrap (.waitblk st a) = none)
include h hc

theorem exec_waitblk_traps {t : Trap} (ht : e.b.det = false ∧ t = ⟨0x14, 0⟩ ∨ e.b.det = true ∧ ((e.uni a).poison = true ∧ t = ⟨0x0B, 0⟩
    ∨ (e.uni a).poison = false ∧ e.b.bid < (e.uni a).val.toNat ∧ t = ⟨0x14, 0⟩)) : exec (.waitblk st a) s = .next (e.trapAll t) := by
  rw [show exec (.waitblk st a) s = execWaitblk st a s from rfl, execWaitblk, issueWith_clear h hc]
  rcases ht with ⟨hdet, rfl⟩ | ⟨hdet, ⟨hz, rfl⟩ | ⟨hz, hn, rfl⟩⟩
  · simp only [hdet]; rfl
  · simp only [hdet, hz]; rfl
  · simp only [hdet, hz, hn]; rfl

variable (hdet : e.b.det = true) (hz : (e.uni a).poison = false) (hn : (e.uni a).val.toNat ≤ e.b.bid)
include hdet hz hn

theorem exec_waitblk_goes (hpre : (e.uni a).val.toNat ≤ s.prefixOf e.b) : exec (.waitblk st a) s =
    .next (e.goesOn (.waitblk st a) (e.p.pc + 4) { e.g with retpfx := max e.g.retpfx (e.uni a).val.toNat }) := by
  rw [show exec (.waitblk st a) s = execWaitblk st a s from rfl, execWaitblk, issueWith_clear h hc]
  simp only [hdet, hz, not_lt.2 hn, hpre, Bool.not_true, Bool.false_eq_true, if_false, if_true]
  exact congrArg _ (Env.finish_nil h _ _ _ rfl)

theorem exec_waitblk_parks (hpre : s.prefixOf e.b < (e.uni a).val.toNat) : exec (.waitblk st a) s = .next (s.setGrp e.gk (Path.set e.g e.pi
    { e.advance (.waitblk st a) e.p.pc e.p with st := .parked, wait := .waitblk (e.uni a).val.toNat, resume := e.p.pc + 4 })) := by
  rw [show exec (.waitblk st a) s = execWaitblk st a s from rfl, execWaitblk, issueWith_clear h hc]
  simp only [hdet, hz, not_lt.2 hn, not_le.2 hpre, Bool.not_true, Bool.false_eq_true, if_false]
  exact congrArg _ (Env.park_self h ..)

end Waitblk

/-- Settles O23. -/
theorem waitBlockAndExtendedSet : Obligations.WaitBlockAndExtendedSet := by
  unfold Obligations.WaitBlockAndExtendedSet
  refine ⟨fun st a s e h => ?waitblk, fun st s e h hpi => ?set⟩
  case waitblk =>
    intro i n hc
    exact ⟨fun hdet => exec_waitblk_traps h hc (.inl ⟨hdet, rfl⟩), fun hdet hz => exec_waitblk_traps h hc (.inr ⟨hdet, .inl ⟨hz, rfl⟩⟩),
      fun hdet hz hn => exec_waitblk_traps h hc (.inr ⟨hdet, .inr ⟨hz, hn, rfl⟩⟩), exec_waitblk_goes h hc, exec_waitblk_parks h hc⟩
  case set =>
    intro idle
    exact ⟨fun hc hx => (issueWith_clear h hc).trans (if_pos hx), fun hc hx => exec_racq_holder h hc hx,
      fun k hc hx hh hk _ => exec_racq_parks h hc hx hpi hh hk, fun hc hx hfree hdet _ hidle => exec_racq_takes h hc hx hpi hfree hdet hidle,
      exec_rrel_other h, fun hc hh hidle => exec_rrel_holder h hc hpi hh hidle⟩

end Sys2Proof.Machine
end

section
/-! PROOFS. Waits and fences: monitor waits and stage rings on words that hold no latent error (R171, R172, R430), FENCE (R162) and WAITR (R116). -/
namespace Sys2Proof.Machine
open Sys2Proof Host

/-! ### Words and requests -/

/-- No error is latent in the lines of n bytes. -/
def State.Sound (s : State) (pa n : Nat) : Prop := ∀ l ∈ linesOf pa n, SMap.get 0 s.mem.latent l = 0

/-- Lines without a latent error are met without effect (R426). -/
theorem State.Sound.meetWord {s : State} {pa n : Nat} (h : s.Sound pa n) (ctx : Option Nat) : s.meetWord ctx pa n = (s, s.mem.anyPoison pa n) := by
  have stays : ∀ ls : List Nat, (∀ l ∈ ls, SMap.get 0 s.mem.latent l = 0) → ls.foldl (fun s l => s.meetLine l 2 ctx) s = s := by
    intro ls
    induction ls with
    | nil => exact fun _ => rfl
    | cons l ls ih =>
      intro hl
      have hmeet : s.meetLine l 2 ctx = s := by simp only [State.meetLine, hl l List.mem_cons_self]
      rw [List.foldl_cons, hmeet]
      exact ih fun k hk => hl k (List.mem_cons_of_mem _ hk)
  rw [State.meetWord, stays _ h]

/-- Writing one group keeps all but it. -/
theorem State.SameBut.setGrp {t s : State} {gk : Nat} (h : t.SameBut s gk) (g : Grp) : (t.setGrp gk g).SameBut s gk where
  mem := h.mem
  blocks := h.blocks
  cores := h.cores
  ctxs := h.ctxs
  tasks := h.tasks
  windows := h.windows
  dev := h.dev
  errlog := h.errlog
  clock := h.clock
  groups k hk := (State.grp_setGrp_ne _ _ hk).trans (h.groups k hk)

/-- The path goes on in a state in which its group stands with its path as at issue. -/
theorem Env.finish_in {e : Env} {t : State} {g : Grp} (hg : t.grp e.gk = some g) (hp : g.path e.pi = e.p) (i : Instr) (pc : DWord) :
    e.finish i pc [] t = t.setGrp e.gk (Path.set g e.pi (e.advance i pc e.p)) := by
  simp only [Env.finish, Env.finishAs, State.updPath_some hg, hp]

/-- A uniform result of one word on its way (R32). -/
theorem uniformResult_one {s : State} {gk : Nat} {g : Grp} (hg : s.grp gk = some g) (dest : Nat) (w : Word) (z : Bool) :
    s.uniformResult gk dest [w] z = ({ s with
      seq := s.seq + 1
      results := s.results ++ [{ id := s.seq, gk := gk, cls := .other, mask := ~~~0, vw := [], sw := [(dest, ⟨w, z⟩)], flags := 0 }] } : State).setGrp gk
        { g with pend := g.pend ++ [⟨.s dest, ~~~0, s.seq, .other⟩] } := by
  simp only [State.uniformResult, State.updGrp_some hg]
  rfl

/-! ### MWAIT -/

section Mwait
variable {st : BitVec 3} {d a b : BitVec 7} {s : State} {e : Env} {p : Part} (h : s.env = some e) (hc : e.issueTrap (.mwait st d a b) = none)
  (hok : e.memCheck (.mwait st d a b) true (e.upair a) 4 .read true false 127 = .ok [p])
include h hc hok

theorem exec_mwait_access (hp : p.host = true ∨ p.ord = 2) : exec (.mwait st d a b) s = .next (e.trapAll ⟨0x07, 0⟩ p.va) := by
  rw [show exec (.mwait st d a b) s = execMwait st d a b s from rfl, execMwait, issueWith_clear h hc]
  simp only [hok]
  exact if_pos (by simpa using hp)

/-- MWAIT of a word in the package, in its order: poisoned, held back, different, or to be waited for. -/
theorem exec_mwait_looks (hhost : p.host = false) (hord : p.ord ≠ 2) (hs : s.Sound p.home 4) :
    exec (.mwait st d a b) s = .next (
      if s.mem.anyPoison p.home 4 then e.trapAll ⟨0x0B, 0⟩ p.va
      else if s.readHeld e.gk e.p.mask p.home 4 p.ord then e.park (.mwait st d a b) (.mwait p.home p.ord (e.uni b).val 0 d.toNat (e.uni b).poison) s
      else if s.mem.readLE p.home 4 ≠ (e.uni b).val.toNat then
        e.finish (.mwait st d a b) (e.nextPc (.mwait st d a b)) [] (s.uniformResult e.gk d.toNat [0] (e.uni b).poison)
      else e.park (.mwait st d a b) (.mwait p.home p.ord (e.uni b).val 1 d.toNat (e.uni b).poison) s) := by
  obtain ⟨hes, -⟩ := State.env_eq_some h
  have near : (p.host || p.ord == 2) = false := by simpa [hhost] using hord
  rw [show exec (.mwait st d a b) s = execMwait st d a b s from rfl, execMwait, issueWith_clear h hc]
  simp only [hok, near, Bool.false_eq_true, if_false, hs.meetWord, Env.trapAll, hes, ← apply_ite Outcome.next]
  rfl

/-- MWAIT of a word that already differs: 0 is on its way, and the path goes on. -/
theorem exec_mwait_differs (hpi : e.pi < e.g.paths.length) (hhost : p.host = false) (hord : p.ord ≠ 2) (hs : s.Sound p.home 4)
    (hclean : s.mem.anyPoison p.home 4 = false) (hheld : s.readHeld e.gk e.p.mask p.home 4 p.ord = false)
    (hne : s.mem.readLE p.home 4 ≠ (e.uni b).val.toNat) :
    ∃ t g', exec (.mwait st d a b) s = .next t ∧ t.grp e.gk = some g' ∧ e.onward (.mwait st d a b) g'
      ∧ g'.SameRegs e.g ∧ g'.pend = e.g.pend ++ [⟨.s d.toNat, ~~~0, s.seq, .other⟩] ∧ t.SameBut s e.gk
      ∧ t.results = s.results ++ [{ id := s.seq, gk := e.gk, cls := .other, mask := ~~~0, vw := [], sw := [(d.toNat, ⟨0, (e.uni b).poison⟩)], flags := 0 }] := by
  obtain ⟨-, -, hg, -, hp⟩ := State.env_eq_some h
  let sent : State := { s with
    seq := s.seq + 1
    results := s.results ++ [{ id := s.seq, gk := e.gk, cls := .other, mask := ~~~0, vw := [], sw := [(d.toNat, ⟨0, (e.uni b).poison⟩)], flags := 0 }] }
  let g1 : Grp := { e.g with pend := e.g.pend ++ [⟨.s d.toNat, ~~~0, s.seq, .other⟩] }
  have hsent : s.uniformResult e.gk d.toNat [0] (e.uni b).poison = sent.setGrp e.gk g1 := uniformResult_one hg ..
  have kept : sent.SameBut s e.gk := ⟨rfl, rfl, rfl, rfl, rfl, rfl, rfl, rfl, rfl, fun _ _ => rfl⟩
  have hexec := exec_mwait_looks h hc hok hhost hord hs
  rw [if_neg (by simp [hclean]), if_neg (by simp [hheld]), if_pos hne, hsent, Env.finish_in (g := g1) (State.grp_setGrp ..) hp.symm] at hexec
  exact ⟨_, _, hexec, State.grp_setGrp .., Path.set_path_self _ hpi,
    ⟨rfl, rfl, rfl, rfl, rfl, rfl, rfl, rfl, rfl, rfl, rfl, rfl, rfl⟩, rfl, (kept.setGrp _).setGrp _, rfl⟩

end Mwait

/-! ### Stage rings -/

section Ring
variable {st : BitVec 3} {g a b : BitVec 7} {s : State} {e : Env} {p : Part} (h : s.env = some e) (hs : s.Sound p.home 4)
include h hs

/-- SWAITP of a word, in its order: poisoned, its stage bit as awaited, or to be waited for. -/
theorem exec_swaitp_looks (hc : e.issueTrap (.swaitp st g a b) = none) (hring : e.ringHome (.swaitp st g a b) a = .ok p) :
    exec (.swaitp st g a b) s = .next (
      if s.mem.anyPoison p.home 4 then e.trapAll ⟨0x0B, 0⟩ p.va
      else if !s.readHeld e.gk e.p.mask p.home 4 1 && s.ringBit p.home g.toNat ((e.uni b).val.getLsbD 0) then
        e.finish (.swaitp st g a b) (e.nextPc (.swaitp st g a b)) [] s
      else e.park (.swaitp st g a b) (.swaitp p.home g.toNat ((e.uni b).val.getLsbD 0)) s) := by
  obtain ⟨hes, -⟩ := State.env_eq_some h
  rw [show exec (.swaitp st g a b) s = execSwaitp st g a b s from rfl, execSwaitp, issueWith_clear h hc]
  simp only [hring, hs.meetWord, Env.trapAll, hes, ← apply_ite Outcome.next]
  rfl

theorem exec_ssig_poison (hc : e.issueTrap (.ssig st g a) = none) (hring : e.ringHome (.ssig st g a) a = .ok p)
    (hz : s.mem.anyPoison p.home 4 = true) : exec (.ssig st g a) s = .next (e.trapAll ⟨0x0B, 0⟩ p.va) := by
  obtain ⟨hes, -⟩ := State.env_eq_some h
  rw [show exec (.ssig st g a) s = execSsig st g a s from rfl, execSsig, issueWith_clear h hc]
  simp only [hring, hs.meetWord, hz, if_true, Env.trapAll, hes]
  rfl

/-- SSIG: the toggle of the stage bit stands among the requests, as a release. -/
theorem exec_ssig_sends (hpi : e.pi < e.g.paths.length) (hc : e.issueTrap (.ssig st g a) = none) (hring : e.ringHome (.ssig st g a) a = .ok p)
    (hclean : s.mem.anyPoison p.home 4 = false) :
    ∃ t g' r, exec (.ssig st g a) s = .next t ∧ t.grp e.gk = some g' ∧ e.onward (.ssig st g a) g' ∧ g'.SameRegs e.g ∧ g'.pend = e.g.pend ∧ t.SameBut s e.gk
      ∧ t.reqs = s.reqs ++ [r] ∧ r.kind = .atomic ∧ r.aop = 3 ∧ r.rel = true ∧ r.parts = touches e.p.mask 127 0 [p]
      ∧ r.atoms = [⟨s.seq, e.gk, 128, 2 ^ g.toNat, 0, false, false⟩] := by
  obtain ⟨-, -, hg, -, hp⟩ := State.env_eq_some h
  let mk (rid : Nat) (ps : List Touch) : MemReq :=
    { e.request s.seq .atomic false true rid ps with aop := 3, atoms := [⟨s.seq, e.gk, 128, 2 ^ g.toNat, 0, false, false⟩] }
  let sent : State := State.send { s with seq := s.seq + 1 } mk [touches e.p.mask 127 0 [p]]
  have kept : sent.SameBut s e.gk := ⟨rfl, rfl, rfl, rfl, rfl, rfl, rfl, rfl, rfl, fun _ _ => rfl⟩
  have hexec : exec (.ssig st g a) s = .next (e.finish (.ssig st g a) (e.nextPc (.ssig st g a)) [] sent) := by
    rw [show exec (.ssig st g a) s = execSsig st g a s from rfl, execSsig, issueWith_clear h hc]
    simp only [hring, hs.meetWord, hclean, Bool.false_eq_true, if_false]
    rfl
  rw [Env.finish_in (t := sent) hg hp.symm] at hexec
  exact ⟨_, _, mk (s.seq + 1 + 0) (touches e.p.mask 127 0 [p]), hexec, State.grp_setGrp .., Path.set_path_self _ hpi, Path.set_sameRegs .., rfl,
    kept.setGrp _, rfl, rfl, rfl, rfl, rfl, rfl⟩

end Ring

/-! ### FENCE and WAITR -/

section Fence
variable {st : BitVec 3} {k c : BitVec 7} {s : State} {e : Env} (h : s.env = some e) (hc : e.issueTrap (.fence st k c) = none)
include h hc

theorem exec_fence_idle (hout : (s.outBefore e.gk e.p.mask s.seq fun x => !x.kind.isFence) = false) :
    exec (.fence st k c) s = .next (e.goesOn (.fence st k c) (e.p.pc + 4) e.g) := by
  have body : s.fence e.gk e.p.mask k.toNat = s := if_neg (by simp [hout])
  rw [show exec (.fence st k c) s = execFence st k c s from rfl, execFence, issueEffect_clear h hc (congrArg Except.ok body)]
  exact congrArg _ (Env.finish_self h ..)

/-- FENCE behind requests that are out stands among them. -/
theorem exec_fence_stands (hpi : e.pi < e.g.paths.length) (hout : (s.outBefore e.gk e.p.mask s.seq fun x => !x.kind.isFence) = true) :
    ∃ t g' r, exec (.fence st k c) s = .next t ∧ t.grp e.gk = some g' ∧ e.onward (.fence st k c) g' ∧ g'.SameRegs e.g ∧ t.SameBut s e.gk
      ∧ t.reqs = s.reqs ++ [r] ∧ r.kind = .fence k.toNat ∧ r.mask = e.p.mask ∧ r.gk = e.gk := by
  obtain ⟨-, -, hg, -, hp⟩ := State.env_eq_some h
  let marked : State := { s.mark (s.bare e.gk e.p.mask (.fence k.toNat)) with seq := s.seq + 1 }
  have kept : marked.SameBut s e.gk := ⟨rfl, rfl, rfl, rfl, rfl, rfl, rfl, rfl, rfl, fun _ _ => rfl⟩
  have body : s.fence e.gk e.p.mask k.toNat = marked := if_pos hout
  have hexec : exec (.fence st k c) s = .next (e.finish (.fence st k c) (e.nextPc (.fence st k c)) [] marked) := by
    rw [show exec (.fence st k c) s = execFence st k c s from rfl, execFence, issueEffect_clear h hc (congrArg Except.ok body)]
    rfl
  rw [Env.finish_in (t := marked) hg hp.symm] at hexec
  exact ⟨_, _, s.bare e.gk e.p.mask (.fence k.toNat), hexec, State.grp_setGrp .., Path.set_path_self _ hpi, Path.set_sameRegs ..,
    kept.setGrp _, rfl, rfl, rfl, rfl⟩

end Fence

/-- WAITR goes on where nothing of its classes is out, and parks on what is. -/
theorem exec_waitr {st q : BitVec 3} {s : State} {e : Env} (h : s.env = some e) (hc : e.issueTrap (.waitr st q) = none) :
    exec (.waitr st q) s = .next (if e.outOps q = [] then e.goesOn (.waitr st q) (e.p.pc + 4) e.g else e.park (.waitr st q) (.waitr (e.outOps q)) s) := by
  rw [show exec (.waitr st q) s = execWaitr st q s from rfl, execWaitr, issueWith_clear h hc]
  simp only [List.isEmpty_iff, Env.finish_self h]
  rfl

/-- Settles O35. -/
theorem waitsAndFences : Obligations.WaitsAndFences := by
  unfold Obligations.WaitsAndFences
  intro st q g d a b k c s e h hpi parks sound out
  have parks_of {i : Instr} {w : Wait} (hx : exec i s = .next (e.park i w s)) : parks i w := hx.trans (congrArg _ (Env.park_self h ..))
  refine ⟨fun p hc hok => exec_mwait_access h hc hok, fun p hc hok hhost hord hs => ⟨fun hz => ?mwait_poison, fun hz hheld => ?mwait_held⟩,
    fun p hc hok hhost hord hs hz hheld => ⟨fun heq => ?mwait_parks, exec_mwait_differs h hc hok hpi hhost hord hs hz hheld⟩,
    fun p hs hz => ⟨fun hc hring => ?swaitp_poison, fun hc hring => exec_ssig_poison h hs hc hring hz⟩,
    fun p hc hring hs hz hheld => ?swaitp_held, fun p hc hring hs hz hheld => ⟨fun hbit => ?swaitp_goes, fun hbit => ?swaitp_parks⟩,
    fun p hc hring hs => exec_ssig_sends h hs hpi hc hring, exec_fence_idle h, fun hc => exec_fence_stands h hc hpi,
    fun hc hout => ?waitr_goes, fun hc hout => ?waitr_parks⟩
  case mwait_poison => rw [exec_mwait_looks h hc hok hhost hord hs, if_pos hz]
  case mwait_held =>
    apply parks_of
    rw [exec_mwait_looks h hc hok hhost hord hs, if_neg (by simp [hz]), if_pos hheld]
  case mwait_parks =>
    apply parks_of
    rw [exec_mwait_looks h hc hok hhost hord hs, if_neg (by simp [hz]), if_neg (by simp [hheld]), if_neg (not_not.2 heq)]
  case swaitp_poison => rw [exec_swaitp_looks h hs hc hring, if_pos hz]
  case swaitp_held =>
    apply parks_of
    rw [exec_swaitp_looks h hs hc hring, if_neg (by simp [hz]), if_neg (by simp [hheld])]
  case swaitp_goes =>
    have met : s.ringBit p.home g.toNat ((e.uni b).val.getLsbD 0) = true := beq_iff_eq.2 hbit
    rw [exec_swaitp_looks h hs hc hring, if_neg (by simp [hz]), if_pos (by rw [hheld, met]; rfl)]
    exact congrArg _ (Env.finish_self h ..)
  case swaitp_parks =>
    apply parks_of
    have unmet : s.ringBit p.home g.toNat ((e.uni b).val.getLsbD 0) = false := beq_false_of_ne hbit
    rw [exec_swaitp_looks h hs hc hring, if_neg (by simp [hz]), if_neg (by rw [unmet, Bool.and_false]; exact Bool.false_ne_true)]
  case waitr_goes => rw [exec_waitr h hc, if_pos hout]
  case waitr_parks =>
    apply parks_of
    rw [exec_waitr h hc, if_neg hout]

end Sys2Proof.Machine
end

section
/-! PROOFS. Floating-point arithmetic of both sets (R121 to R125, R127, R132): what the instructions answer, and what a sum of products delivers for
numbers, infinities and NaNs. -/
namespace Sys2Proof.Machine
open Sys2Proof Host

/-! ### Lane and uniform instructions by their sources -/

section Forms
variable {i : Instr} {d : BitVec 7} {srcs : List (BitVec 7)} {sr : Bool}

/-- A lane instruction on FP32 sources. -/
theorem laneF32_of_srcs {r : Env → Nat → Nat × Flags} {f : Env → Nat → TRes} (hexec : ∀ s, exec i s = issueLane i f s)
    (hr : ∀ stl d a t, i ≠ .rdlane stl d a t) (hlat : fixedLatency i = 6)
    (hf : ∀ e t, f e t = { vw := [(e.g.num d, ⟨w32 (r e t).1, srcs.any fun x => (e.vec x t).poison⟩)], fl := (r e t).2, srn := sr }) :
    LaneF32 i d srcs sr r := by
  rw [LaneF32, ← hlat]
  exact laneGives_of hexec hr fun e hq => ⟨hq, fun t _ => hf e t⟩

/-- A lane instruction on FP64 sources. -/
theorem laneF64_of_srcs {r : Env → Nat → Nat × Flags} {f : Env → Nat → TRes} (hexec : ∀ s, exec i s = issueLane i f s)
    (hr : ∀ stl d a t, i ≠ .rdlane stl d a t) (hlat : fixedLatency i = 15)
    (hf : ∀ e t, f e t = { vw := e.wrPair d (r e t).1 (srcs.any fun x => (e.pair x t).2), fl := (r e t).2 }) : LaneF64 i d srcs r := by
  rw [LaneF64, ← hlat]
  exact laneGives_of hexec hr fun e hq => ⟨hq, fun t _ => hf e t⟩

/-- A uniform instruction on FP32 sources. -/
theorem uniF32_of_srcs {r : Env → Nat × Flags} {f : Env → URes} (hexec : ∀ s, exec i s = issueUniform i f s) (hlat : fixedLatency i = 4)
    (hf : ∀ e, f e = { sw := [(d.toNat, ⟨w32 (r e).1, srcs.any fun x => (e.uni x).poison⟩)], fl := (r e).2, srn := sr }) : UniF32 i d srcs sr r := by
  rw [UniF32, ← hlat]
  exact uniGives_of hexec fun e hq => ⟨hq, hf e⟩

/-- A uniform instruction on FP64 sources. -/
theorem uniF64_of_srcs {r : Env → Nat × Flags} {f : Env → URes} (hexec : ∀ s, exec i s = issueUniform i f s) (hlat : fixedLatency i = 4)
    (hf : ∀ e, f e = { sw := wrUPair d (r e).1 (srcs.any fun x => (e.upair x).2), fl := (r e).2 }) : UniF64 i d srcs r := by
  rw [UniF64, ← hlat]
  exact uniGives_of hexec fun e hq => ⟨hq, hf e⟩

end Forms

/-! ### The instructions of two sources, and FFMA and DFMA -/

section Binary
variable {i : Instr} {d a b : BitVec 7} (f : RMode → Nat → Nat → Nat × Flags)

/-- The poison of the sources as the model ORs it. -/
theorem any_pair (p : BitVec 7 → Bool) (a b : BitVec 7) : [a, b].any p = (p a || p b) := by simp
theorem any_triple (p : BitVec 7 → Bool) (a b c : BitVec 7) : [a, b, c].any p = (p a || p b || p c) := by simp [Bool.or_assoc]

theorem laneF32_of_bin (hexec : ∀ s, exec i s = issueLane i (f32Bin d a b f) s) (hr : ∀ stl d a t, i ≠ .rdlane stl d a t) (hlat : fixedLatency i = 6) :
    LaneF32 i d [a, b] false fun e t => f (arithMode e.g) (e.vec a t).val.toNat (e.vec b t).val.toNat :=
  laneF32_of_srcs hexec hr hlat fun e t => by rw [any_pair]; rfl
theorem laneF64_of_bin (hexec : ∀ s, exec i s = issueLane i (f64Bin d a b f) s) (hr : ∀ stl d a t, i ≠ .rdlane stl d a t) (hlat : fixedLatency i = 15) :
    LaneF64 i d [a, b] fun e t => f (arithMode e.g) (e.pair a t).1.toNat (e.pair b t).1.toNat :=
  laneF64_of_srcs hexec hr hlat fun e t => by rw [any_pair]; rfl
theorem uniF32_of_bin (hexec : ∀ s, exec i s = issueUniform i (u32Bin d a b f) s) (hlat : fixedLatency i = 4) :
    UniF32 i d [a, b] false fun e => f (arithMode e.g) (e.uni a).val.toNat (e.uni b).val.toNat :=
  uniF32_of_srcs hexec hlat fun e => by rw [any_pair]; rfl
theorem uniF64_of_bin (hexec : ∀ s, exec i s = issueUniform i (u64Bin d a b f) s) (hlat : fixedLatency i = 4) :
    UniF64 i d [a, b] fun e => f (arithMode e.g) (e.upair a).1.toNat (e.upair b).1.toNat :=
  uniF64_of_srcs hexec hlat fun e => by rw [any_pair]; rfl

end Binary

theorem ffma_gives (st : BitVec 3) (d a b : BitVec 7) : LaneF32 (.ffma st d a b) d [a, b, d] false
    fun e t => fFma .fp32 (arithMode e.g) (e.vec a t).val.toNat (e.vec b t).val.toNat (e.vec d t).val.toNat :=
  laneF32_of_srcs (fun _ => rfl) nofun rfl fun e t => by rw [any_triple]
theorem dfma_gives (st : BitVec 3) (d a b : BitVec 7) : LaneF64 (.dfma st d a b) d [a, b, d]
    fun e t => fFma .fp64 (arithMode e.g) (e.pair a t).1.toNat (e.pair b t).1.toNat (e.pair d t).1.toNat :=
  laneF64_of_srcs (fun _ => rfl) nofun rfl fun e t => by rw [any_triple]; rfl
theorem ffmaU_gives (st : BitVec 3) (d a b : BitVec 7) : UniF32 (.ffmaU st d a b) d [a, b, d] false
    fun e => fFma .fp32 (arithMode e.g) (e.uni a).val.toNat (e.uni b).val.toNat (e.uni d).val.toNat :=
  uniF32_of_srcs (fun _ => rfl) rfl fun e => by rw [any_triple]
theorem dfmaU_gives (st : BitVec 3) (d a b : BitVec 7) : UniF64 (.dfmaU st d a b) d [a, b, d]
    fun e => fFma .fp64 (arithMode e.g) (e.upair a).1.toNat (e.upair b).1.toNat (e.upair d).1.toNat :=
  uniF64_of_srcs (fun _ => rfl) rfl fun e => by rw [any_triple]; rfl

/-- FCPYS (R125) as an operation of two elements: the bits of the first with the sign of the second, whatever the mode. -/
def copySign (_ : RMode) (x y : Nat) : Nat × Flags := (x % 2 ^ 31 + y / 2 ^ 31 * 2 ^ 31, 0)

/-- Settles O10: each uniform instruction by its shape. -/
theorem floatUniformResults : Obligations.FloatUniformResults := by
  unfold Obligations.FloatUniformResults
  intro st d a b
  exact ⟨uniF32_of_bin (fAdd .fp32) (fun _ => rfl) rfl, uniF32_of_bin (fSub .fp32) (fun _ => rfl) rfl, uniF32_of_bin (fMul .fp32) (fun _ => rfl) rfl,
    ffmaU_gives st d a b, uniF32_of_bin (fun _ => fMinMax .fp32 false) (fun _ => rfl) rfl, uniF32_of_bin (fun _ => fMinMax .fp32 true) (fun _ => rfl) rfl,
    uniF32_of_bin copySign (fun _ => rfl) rfl, uniF64_of_bin (fAdd .fp64) (fun _ => rfl) rfl, uniF64_of_bin (fMul .fp64) (fun _ => rfl) rfl,
    dfmaU_gives st d a b, uniF64_of_bin (fun _ => fMinMax .fp64 false) (fun _ => rfl) rfl, uniF64_of_bin (fun _ => fMinMax .fp64 true) (fun _ => rfl) rfl⟩

/-! ### Products and sums of values (R121) -/

/-- A term starts from 1, which leaves its first factor as it is. -/
theorem FVal.one_mul (v : FVal) : (FVal.num 1).mul v = (v, false) := by
  have hpos : decide ((1 : ℚ) < 0) = false := by decide
  cases v <;> simp [FVal.mul, FVal.negative, hpos]

theorem Term.value_one (neg : Bool) (v : FVal) : (⟨neg, [v]⟩ : Term).value = (if neg then v.negate else v, false) := by
  simp [Term.value, FVal.one_mul]
theorem Term.value_two (neg : Bool) (v w : FVal) : (⟨neg, [v, w]⟩ : Term).value = (if neg then (v.mul w).1.negate else (v.mul w).1, (v.mul w).2) := by
  simp [Term.value, FVal.one_mul]

/-- The value of a sum of numbers: a zero sum is +0, or −0 under RDN (R121). -/
def numberSum (rdn : Bool) (v : ℚ) : FVal := if v = 0 then .zero rdn else .num v

theorem exactSum_numbers (rdn : Bool) {ps : List ℚ} (h : ps ≠ []) : exactSum rdn (ps.map .num) = (numberSum rdn ps.sum, false) := by
  obtain ⟨p, qs, rfl⟩ := List.exists_cons_of_ne_nil h
  have hsum : ((p :: qs).map FVal.num |>.map FVal.rat).foldl (· + ·) 0 = (p :: qs).sum := by
    rw [List.map_map, List.sum_eq_foldl]
    congr 1
    exact List.map_id _
  have hnan : ((p :: qs).map FVal.num).any FVal.isNan = false := by simp [FVal.isNan]
  simp only [exactSum, hnan, hsum, numberSum]
  simp only [List.sum_cons]
  by_cases hz : p + qs.sum = 0
  · simp [hz]
  · simp [hz]

/-- The exact sum of terms that are numbers is rounded once. -/
theorem sumRound_numbers (fmt : Fmt) (mode : RMode) {ts : List Term} {ps : List ℚ} (h : ps ≠ []) (hv : ts.map Term.value = ps.map fun p => (.num p, false))
    (hs : (ts.any fun t => t.fs.any FVal.isSNan) = false) :
    sumRound fmt mode ts = roundTo fmt mode (numberSum (mode == .rdn) ps.sum) := by
  have h1 : (ts.map Term.value).map (·.1) = ps.map FVal.num := by rw [hv, List.map_map]; rfl
  have h2 : (ts.map Term.value).any (·.2) = false := by rw [hv]; simp
  simp only [sumRound, h1, h2, hs, exactSum_numbers _ h]
  unfold numberSum
  by_cases hz : ps.sum = 0
  · simp [hz]
  · simp [hz]

section Numbers
variable {fmt : Fmt} {mode : RMode} {x y z : Nat} {p q r : ℚ}

theorem fAdd_numbers (mode : RMode) (hx : fmt.value x = .num p) (hy : fmt.value y = .num q) :
    fAdd fmt mode x y = ((roundTo fmt mode (numberSum (mode == .rdn) (p + q))).1, (roundTo fmt mode (numberSum (mode == .rdn) (p + q))).2 ||| siOf fmt [x, y]) := by
  simp only [fAdd, sumProducts]
  rw [sumRound_numbers (ps := [p, q]) fmt mode (by simp) (by simp [Term.value_one, hx, hy]) (by simp [hx, hy, FVal.isSNan])]
  simp
theorem fSub_numbers (mode : RMode) (hx : fmt.value x = .num p) (hy : fmt.value y = .num q) :
    fSub fmt mode x y = ((roundTo fmt mode (numberSum (mode == .rdn) (p - q))).1, (roundTo fmt mode (numberSum (mode == .rdn) (p - q))).2 ||| siOf fmt [x, y]) := by
  simp only [fSub, sumProducts]
  rw [sumRound_numbers (ps := [p, -q]) fmt mode (by simp) (by simp [Term.value_one, hx, hy, FVal.negate]) (by simp [hx, hy, FVal.isSNan])]
  simp [sub_eq_add_neg]
theorem fMul_numbers (mode : RMode) (hx : fmt.value x = .num p) (hy : fmt.value y = .num q) :
    fMul fmt mode x y = ((roundTo fmt mode (numberSum (mode == .rdn) (p * q))).1, (roundTo fmt mode (numberSum (mode == .rdn) (p * q))).2 ||| siOf fmt [x, y]) := by
  simp only [fMul, sumProducts]
  rw [sumRound_numbers (ps := [p * q]) fmt mode (by simp) (by simp [Term.value_two, hx, hy, FVal.mul]) (by simp [hx, hy, FVal.isSNan])]
  simp
theorem fFma_numbers (mode : RMode) (hx : fmt.value x = .num p) (hy : fmt.value y = .num q) (hz : fmt.value z = .num r) :
    fFma fmt mode x y z = ((roundTo fmt mode (numberSum (mode == .rdn) (p * q + r))).1,
      (roundTo fmt mode (numberSum (mode == .rdn) (p * q + r))).2 ||| siOf fmt [x, y, z]) := by
  simp only [fFma, sumProducts]
  rw [sumRound_numbers (ps := [p * q, r]) fmt mode (by simp) (by simp [Term.value_one, Term.value_two, hx, hy, hz, FVal.mul])
    (by simp [hx, hy, hz, FVal.isSNan])]
  simp

/-- The lesser and the greater of two numbers (R124). -/
theorem fMinMax_numbers (hx : fmt.value x = .num p) (hy : fmt.value y = .num q) :
    (fMinMax fmt false x y).1 = (if q < p then y else x) ∧ (fMinMax fmt true x y).1 = (if p < q then y else x) := by
  simp [fMinMax, hx, hy, FVal.isNan, FVal.below, FVal.key]

end Numbers

/-! ### Infinities and NaNs (R121) -/

theorem roundTo_nan {fmt : Fmt} (hf : fmt = .fp32 ∨ fmt = .fp64) (mode : RMode) : roundTo fmt mode (.nan false) = (fmt.qnan, 0) := by
  rcases hf with rfl | rfl <;> rfl

theorem exactSum_nan (rdn : Bool) {vs : List FVal} (h : vs.any FVal.isNan = true) : exactSum rdn vs = (.nan false, false) := if_pos h
theorem exactSum_infinities (rdn sg : Bool) : exactSum rdn [.inf sg, .inf (!sg)] = (.nan false, true) := by cases sg <;> rfl
theorem FVal.isNan_negate (v : FVal) : v.negate.isNan = v.isNan := by cases v <;> rfl
theorem FVal.isNan_nan_mul (sn : Bool) (v : FVal) : ((FVal.nan sn).mul v).1.isNan = true := by cases v <;> rfl
theorem FVal.isNan_mul_nan (sn : Bool) (v : FVal) : (v.mul (.nan sn)).1.isNan = true := by cases v <;> rfl

/-- The canonical NaN, with IV among the flags. -/
def Invalid (fmt : Fmt) (g : Nat × Flags) : Prop := g.1 = fmt.qnan ∧ g.2 &&& fIV ≠ 0

section Nans
variable {fmt : Fmt} (hf : fmt = .fp32 ∨ fmt = .fp64) (mode : RMode) {x y : Nat}
include hf

/-- A sum that is a NaN is delivered as the canonical one; IV is raised where a signalling NaN, an invalid product or infinities of both signs made it. -/
theorem sumProducts_nan {ts : List (Bool × List Nat)} {sn iv : Bool}
    (h : exactSum (mode == .rdn) (ts.map fun t => (⟨t.1, t.2.map fmt.value⟩ : Term).value.1) = (.nan sn, iv)) :
    (sumProducts fmt mode ts).1 = fmt.qnan ∧ ((sumProducts fmt mode ts).2 &&& fIV ≠ 0 ↔
      ((ts.any fun t => (t.2.map fmt.value).any FVal.isSNan) || (ts.any fun t => (⟨t.1, t.2.map fmt.value⟩ : Term).value.2) || iv) = true) := by
  rw [← fIV_or_siOf _ fmt (ts.flatMap (·.2))]
  simp only [sumProducts, sumRound, List.map_map, List.any_map, Function.comp_def, h, roundTo_nan hf]
  simp

theorem fAdd_infinities {sg : Bool} (hx : fmt.value x = .inf sg) (hy : fmt.value y = .inf !sg) : Invalid fmt (fAdd fmt mode x y) := by
  obtain ⟨hn, hiv⟩ := sumProducts_nan hf mode (ts := [(false, [x]), (false, [y])]) (sn := false) (iv := true)
    (by simp [Term.value_one, hx, hy, exactSum_infinities])
  exact ⟨hn, hiv.2 (by simp)⟩
theorem fSub_infinities {sg : Bool} (hx : fmt.value x = .inf sg) (hy : fmt.value y = .inf sg) : Invalid fmt (fSub fmt mode x y) := by
  obtain ⟨hn, hiv⟩ := sumProducts_nan hf mode (ts := [(false, [x]), (true, [y])]) (sn := false) (iv := true)
    (by simp [Term.value_one, hx, hy, FVal.negate, exactSum_infinities])
  exact ⟨hn, hiv.2 (by simp)⟩

/-- An infinity times a zero, in either order. -/
theorem fMul_infinity_zero {sg sh : Bool} (hx : fmt.value x = .inf sg) (hy : fmt.value y = .zero sh) :
    Invalid fmt (fMul fmt mode x y) ∧ Invalid fmt (fMul fmt mode y x) := by
  obtain ⟨hn, hiv⟩ := sumProducts_nan hf mode (ts := [(false, [x, y])]) (sn := false) (iv := false)
    (exactSum_nan _ (by simp [Term.value_two, hx, hy, FVal.mul, FVal.isNan]))
  obtain ⟨hn', hiv'⟩ := sumProducts_nan hf mode (ts := [(false, [y, x])]) (sn := false) (iv := false)
    (exactSum_nan _ (by simp [Term.value_two, hx, hy, FVal.mul, FVal.isNan]))
  exact ⟨⟨hn, hiv.2 (by simp [Term.value_two, hx, hy, FVal.mul])⟩, ⟨hn', hiv'.2 (by simp [Term.value_two, hx, hy, FVal.mul])⟩⟩

/-- A NaN added gives the canonical one, with IV where it is signalling. -/
theorem fAdd_nan {sn : Bool} (h : fmt.value x = .nan sn) :
    (fAdd fmt mode x y).1 = fmt.qnan ∧ (fAdd fmt mode y x).1 = fmt.qnan ∧ (sn = true → Invalid fmt (fAdd fmt mode x y)) := by
  obtain ⟨hn, hiv⟩ := sumProducts_nan hf mode (ts := [(false, [x]), (false, [y])]) (sn := false) (iv := false)
    (exactSum_nan _ (by simp [Term.value_one, h, FVal.isNan]))
  obtain ⟨hn', -⟩ := sumProducts_nan hf mode (ts := [(false, [y]), (false, [x])]) (sn := false) (iv := false)
    (exactSum_nan _ (by simp [Term.value_one, h, FVal.isNan]))
  exact ⟨hn, hn', fun hs => ⟨hn, hiv.2 (by simp [h, hs, FVal.isSNan])⟩⟩

/-- A NaN as a factor gives the canonical one, with IV where it is signalling. -/
theorem fMul_nan {sn : Bool} (h : fmt.value x = .nan sn) :
    (fMul fmt mode x y).1 = fmt.qnan ∧ (fMul fmt mode y x).1 = fmt.qnan ∧ (sn = true → Invalid fmt (fMul fmt mode x y)) := by
  obtain ⟨hn, hiv⟩ := sumProducts_nan hf mode (ts := [(false, [x, y])]) (sn := false) (iv := false)
    (exactSum_nan _ (by simp [Term.value_two, h, FVal.isNan_nan_mul]))
  obtain ⟨hn', -⟩ := sumProducts_nan hf mode (ts := [(false, [y, x])]) (sn := false) (iv := false)
    (exactSum_nan _ (by simp [Term.value_two, h, FVal.isNan_mul_nan]))
  exact ⟨hn, hn', fun hs => ⟨hn, hiv.2 (by simp [h, hs, FVal.isSNan])⟩⟩

end Nans

/-- A zero is delivered with its sign. -/
theorem Fmt.Ieee.value_roundTo_zero {fmt : Fmt} {s : FShape} (h : fmt.Ieee s) (mode : RMode) (neg : Bool) :
    fmt.value (roundTo fmt mode (.zero neg)).1 = .zero neg := by
  have hw := h.standard.width
  have hb : 0 < (2 ^ s.e - 1) * 2 ^ s.f := Nat.mul_pos (by omega) (by positivity)
  simp only [roundTo, h.shape, h.value_eq]
  exact (FShape.value_finite h.ne_e4m3 neg hb).trans (if_pos rfl)

/-- Each operation rounds its exact result once; a zero difference of numbers is +0, or −0 under RDN. -/
theorem arithmetic_numbers (fmt : Fmt) (mode : RMode) (x y z : Nat) (p q r : ℚ) (hf : fmt = .fp32 ∨ fmt = .fp64) (hx : fmt.value x = .num p)
    (hy : fmt.value y = .num q) (hz : fmt.value z = .num r) :
    let si := fun (l : List Nat) => if l.any fmt.subnormal then fSI else 0
    let rounds := fun (g : Nat × Flags) (v : Rat) (l : List Nat) => v ≠ 0 → g = ((roundTo fmt mode (.num v)).1, (roundTo fmt mode (.num v)).2 ||| si l)
    rounds (fAdd fmt mode x y) (p + q) [x, y] ∧ rounds (fSub fmt mode x y) (p - q) [x, y] ∧ rounds (fMul fmt mode x y) (p * q) [x, y]
    ∧ rounds (fFma fmt mode x y z) (p * q + r) [x, y, z]
    ∧ (p = q → fmt.value (fSub fmt mode x y).1 = .zero (decide (mode = .rdn)) ∧ (fSub fmt mode x y).2 = si [x, y])
    ∧ (fMinMax fmt false x y).1 = (if q < p then y else x) ∧ (fMinMax fmt true x y).1 = (if p < q then y else x) := by
  have number {v : ℚ} (hv : v ≠ 0) : numberSum (mode == .rdn) v = .num v := if_neg hv
  refine ⟨fun h => ?_, fun h => ?_, fun h => ?_, fun h => ?_, fun h => ?_, fMinMax_numbers hx hy⟩
  · rw [fAdd_numbers mode hx hy, number h]; rfl
  · rw [fSub_numbers mode hx hy, number h]; rfl
  · rw [fMul_numbers mode hx hy, number h]; rfl
  · rw [fFma_numbers mode hx hy hz, number h]; rfl
  · rw [fSub_numbers mode hx hy, numberSum, if_pos (sub_eq_zero.2 h)]
    rcases hf with rfl | rfl
    · exact ⟨ieee_fp32.value_roundTo_zero mode _, BitVec.zero_or⟩
    · exact ⟨ieee_fp64.value_roundTo_zero mode _, BitVec.zero_or⟩

/-- ∞ − ∞, 0 × ∞ and NaNs. -/
theorem arithmetic_invalid (fmt : Fmt) (mode : RMode) (x y : Nat) (hf : fmt = .fp32 ∨ fmt = .fp64) :
    (∀ sg, fmt.value x = .inf sg → fmt.value y = .inf (!sg) → Invalid fmt (fAdd fmt mode x y))
    ∧ (∀ sg, fmt.value x = .inf sg → fmt.value y = .inf sg → Invalid fmt (fSub fmt mode x y))
    ∧ (∀ sg sh, fmt.value x = .inf sg → fmt.value y = .zero sh → Invalid fmt (fMul fmt mode x y) ∧ Invalid fmt (fMul fmt mode y x))
    ∧ (∀ sn, fmt.value x = .nan sn → (fAdd fmt mode x y).1 = fmt.qnan ∧ (fAdd fmt mode y x).1 = fmt.qnan ∧ (fMul fmt mode x y).1 = fmt.qnan
      ∧ (fMul fmt mode y x).1 = fmt.qnan ∧ (sn = true → Invalid fmt (fAdd fmt mode x y) ∧ Invalid fmt (fMul fmt mode x y))) := by
  refine ⟨fun _ => fAdd_infinities hf mode, fun _ => fSub_infinities hf mode, fun _ _ => fMul_infinity_zero hf mode, fun sn h => ?_⟩
  obtain ⟨ha, ha', hai⟩ := fAdd_nan (y := y) hf mode h
  obtain ⟨hm, hm', hmi⟩ := fMul_nan (y := y) hf mode h
  exact ⟨ha, ha', hm, hm', fun hs => ⟨hai hs, hmi hs⟩⟩

/-- Settles O9: each lane instruction by its shape; its exact result by the values of its terms. -/
theorem floatLaneResults : Obligations.FloatLaneResults := by
  unfold Obligations.FloatLaneResults
  intro st d a b imm
  exact ⟨laneF32_of_bin (fAdd .fp32) (fun _ => rfl) nofun rfl, laneF32_of_bin (fSub .fp32) (fun _ => rfl) nofun rfl,
    laneF32_of_bin (fMul .fp32) (fun _ => rfl) nofun rfl, ffma_gives st d a b,
    laneF32_of_bin (fun _ => fMinMax .fp32 false) (fun _ => rfl) nofun rfl, laneF32_of_bin (fun _ => fMinMax .fp32 true) (fun _ => rfl) nofun rfl,
    laneF32_of_bin copySign (fun _ => rfl) nofun rfl, laneF32_of (fun _ => rfl) nofun rfl fun _ _ => rfl,
    laneF64_of_bin (fAdd .fp64) (fun _ => rfl) nofun rfl, laneF64_of_bin (fMul .fp64) (fun _ => rfl) nofun rfl, dfma_gives st d a b,
    laneF64_of_bin (fun _ => fMinMax .fp64 false) (fun _ => rfl) nofun rfl, laneF64_of_bin (fun _ => fMinMax .fp64 true) (fun _ => rfl) nofun rfl,
    arithmetic_numbers, arithmetic_invalid⟩

end Sys2Proof.Machine
end

section
/-! PROOFS. FP32 elements as numbers (R73): subnormal elements, the numbers FP32 has, and the grid they lie on. -/
namespace Sys2Proof.Machine
open Sys2Proof

namespace FShape
variable {s : FShape} {fmt : Fmt}

/-- An element that holds a number does not hold 0, which is a zero. -/
theorem value_num_ne_zero {n : Nat} {v : ℚ} (h : s.value fmt n = .num v) : v ≠ 0 := by
  have hpow (k : Int) : pow2 k ≠ 0 := (pow2_pos k).ne'
  simp only [value] at h
  split at h
  · split at h <;> cases h
  · split at h
    · cases h
    · split at h
      · cases h
      next hz =>
        cases h
        have hm : (if n / 2 ^ s.f % 2 ^ s.e = 0 then ((n % 2 ^ s.f : Nat) : ℚ) * pow2 (1 - (s.bias : Int) - s.f)
            else ((2 ^ s.f + n % 2 ^ s.f : Nat) : ℚ) * pow2 (((n / 2 ^ s.f % 2 ^ s.e : Nat) : Int) - s.bias - s.f)) ≠ 0 := by
          split
          next h0 => exact mul_ne_zero (Nat.cast_ne_zero.2 fun hf => hz ⟨h0, hf⟩) (hpow _)
          next => exact mul_ne_zero (Nat.cast_ne_zero.2 (by positivity)) (hpow _)
        split
        · exact neg_ne_zero.2 hm
        · exact hm

end FShape

namespace Fmt.Ieee
variable {fmt : Fmt} {s : FShape} {q : ℚ}

/-- A subnormal element holds a number below the smallest normal one. -/
theorem subnormal_value (h : fmt.Ieee s) {n : Nat} (hn : fmt.subnormal n = true) : ∃ v, fmt.value n = .num v ∧ |v| < pow2 (1 - (s.bias : Int)) := by
  simp only [Fmt.subnormal, h.shape, Bool.and_eq_true, decide_eq_true_eq, bne_iff_ne] at hn
  obtain ⟨hex, hfr⟩ := hn
  have hw := h.standard.width
  have hone : ¬ 0 = 2 ^ s.e - 1 := by omega
  refine ⟨withSign (decide (n / 2 ^ (s.e + s.f) % 2 = 1)) (((n % 2 ^ s.f : Nat) : ℚ) * pow2 (1 - (s.bias : Int) - s.f)), ?_, ?_⟩
  · rw [h.value_eq]
    simp [FShape.value, hex, hfr, hone, h.ne_e4m3, withSign]
  · rw [abs_withSign, abs_of_nonneg (mul_nonneg (Nat.cast_nonneg _) (pow2_pos _).le)]
    calc _ < ((2 ^ s.f : Nat) : ℚ) * pow2 (1 - (s.bias : Int) - s.f) :=
          mul_lt_mul_of_pos_right (Nat.cast_lt.2 (Nat.mod_lt _ (by positivity))) (pow2_pos _)
      _ = _ := by rw [← pow2_natCast, ← pow2_add]; congr 1; omega

theorem siOf_of_not_num (h : fmt.Ieee s) {n : Nat} (hn : ∀ v, fmt.value n ≠ .num v) : siOf fmt [n] = 0 := by
  have : fmt.subnormal n = false := Bool.eq_false_iff.2 fun hs => (h.subnormal_value hs).elim fun v hv => hn v hv.1
  simp [siOf, this]
theorem siOf_of_normal (h : fmt.Ieee s) {n : Nat} (hn : fmt.value n = .num q) (hq : pow2 (1 - (s.bias : Int)) ≤ |q|) : siOf fmt [n] = 0 := by
  have : fmt.subnormal n = false := Bool.eq_false_iff.2 fun hs => by
    obtain ⟨v, hv, hlt⟩ := h.subnormal_value hs
    rw [hn] at hv
    cases hv
    exact hlt.not_ge hq
  simp [siOf, this]

/-- A number on the grid of the format is delivered as it is, without a flag. -/
theorem roundTo_onGrid (h : fmt.Ieee s) (mode : RMode) (hq : q ≠ 0) (hg : s.OnGrid |q|) :
    fmt.value (roundTo fmt mode (.num q)).1 = .num q ∧ (roundTo fmt mode (.num q)).2 = 0 := by
  have hbelow : |q| = s.below |q| := le_antisymm (hg.le_below (abs_pos.2 hq) le_rfl) (FShape.below_le (abs_nonneg q))
  have hhas := (h.exists_value_iff mode hq).2 ⟨hbelow, h.rounded_le mode hq (hg.le_maxFinite h.standard fmt)⟩
  obtain ⟨hzero, hnx, -⟩ := h.round_flags mode hq
  rw [h.roundTo_num mode hq]
  refine ⟨not_not.1 fun hne => ?_, hzero.2 hhas⟩
  have := hnx.2 hne
  rw [hzero.2 hhas] at this
  exact this BitVec.zero_and

end Fmt.Ieee

/-! ### FP32 -/

/-- An element's bits above its width take no part in its value. -/
theorem fp32_value_mod (n : Nat) : Fmt.fp32.value (n % 2 ^ 32) = Fmt.fp32.value n := by
  have hhigh : n % 2 ^ 32 / 2 ^ 31 % 2 = n / 2 ^ 31 % 2 := by omega
  have hlow : n % 2 ^ 32 % 2 ^ 31 = n % 2 ^ 31 := by omega
  rw [ieee_fp32.value_eq, ieee_fp32.value_eq, FShape.value_eq_value_sign_add, FShape.value_eq_value_sign_add _ _ n]
  simp only [hhigh, hlow]
theorem fp32_value_ofNat (n : Nat) : Fmt.fp32.value (BitVec.ofNat 32 n).toNat = Fmt.fp32.value n := by
  rw [BitVec.toNat_ofNat, fp32_value_mod]

theorem fp32_holds_ofNat {n : Nat} {v : ℚ} : Fmt.fp32.Holds (BitVec.ofNat 32 n).toNat v ↔ Fmt.fp32.Holds n v := by
  unfold Fmt.Holds
  rw [fp32_value_ofNat]

theorem fp32_num_ne_zero {n : Nat} {q : ℚ} (h : Fmt.fp32.value n = .num q) : q ≠ 0 :=
  FShape.value_num_ne_zero ((ieee_fp32.value_eq n).symm.trans h)

/-- Every number of FP32 is a whole number of its smallest units. -/
theorem fp32_units {n : Nat} {v : ℚ} (h : Fmt.fp32.Holds n v) : ∃ j : Nat, |v| = j * pow2 (-149) := by
  obtain ⟨k, x, -, hx, -, hv⟩ := ieee_fp32.onGrid h
  obtain ⟨d, hd⟩ := Int.eq_ofNat_of_zero_le (show 0 ≤ x - 23 + 149 by simp only at hx; omega)
  refine ⟨k * 2 ^ d, ?_⟩
  rw [hv, Nat.cast_mul, mul_assoc, ← pow2_natCast, ← pow2_add]
  congr 2
  simp only
  omega

theorem fp32_bounds {n : Nat} {q : ℚ} (h : Fmt.fp32.value n = .num q) : pow2 (-149) ≤ |q| ∧ |q| < pow2 128 := by
  refine ⟨?_, (ieee_fp32.abs_le_maxFinite (.inl h)).trans_lt (FShape.maxFinite_lt ieee_fp32.standard _)⟩
  obtain ⟨j, hj⟩ := fp32_units (.inl h)
  have hpos := abs_pos.2 (fp32_num_ne_zero h)
  have hj0 : j ≠ 0 := by rintro rfl; rw [hj, Nat.cast_zero, zero_mul] at hpos; exact lt_irrefl _ hpos
  rw [hj]
  exact le_mul_of_one_le_left (pow2_pos _).le (by exact_mod_cast Nat.one_le_iff_ne_zero.2 hj0)

theorem fp32_onGrid_pow2 {k : Int} (h1 : -149 ≤ k) (h2 : k ≤ 127) : FShape.OnGrid ⟨8, 23, 127, true⟩ (pow2 k) := by
  by_cases hk : -126 ≤ k
  · refine ⟨2 ^ 23, k, by norm_num, by simpa using hk, by simpa using h2, ?_⟩
    rw [← pow2_natCast, ← pow2_add]
    congr 1
    simp only
    omega
  · refine ⟨1, k + 23, by norm_num, by simp only; omega, by simp only; omega, ?_⟩
    rw [Nat.cast_one, one_mul]
    congr 1
    simp only
    omega

theorem fp32_onGrid_intCast {k : Int} (h : k.natAbs < 2 ^ 24) : FShape.OnGrid ⟨8, 23, 127, true⟩ |(k : ℚ)| := by
  refine ⟨k.natAbs, 23, h, by norm_num, by norm_num, ?_⟩
  rw [show ((23 : Int) - (23 : Nat)) = 0 by norm_num, pow2_eq, zpow_zero, mul_one, Nat.cast_natAbs, Int.cast_abs]

end Sys2Proof.Machine
end

section
/-! PROOFS. Square roots (R133, R134): the enclosure of a root between two neighbours 2^−p apart, and why FP32 rounds a number within it as it rounds the
root: the midpoints of FP32 numbers lie on a coarser grid. -/
namespace Sys2Proof.Machine
open Sys2Proof

theorem isqrtAux_eq {fuel n : Nat} (h : n < 4 ^ fuel) : isqrtAux fuel n = Nat.sqrt n := by
  induction fuel generalizing n with
  | zero =>
    obtain rfl : n = 0 := by simpa using h
    rfl
  | succ fuel ih =>
    rw [isqrtAux]
    split
    next h0 => rw [h0, Nat.sqrt_zero]
    next =>
      have hq : n / 4 < 4 ^ fuel := Nat.div_lt_of_lt_mul (by rwa [pow_succ'] at h)
      have hlow := Nat.sqrt_le (n / 4)
      have hup := Nat.lt_succ_sqrt (n / 4)
      simp only [ih hq]
      generalize Nat.sqrt (n / 4) = r at hlow hup
      have hlow' : 2 * r * (2 * r) ≤ n := by
        have : 4 * (r * r) ≤ n := by omega
        linarith
      have hup' : n < (2 * r + 2) * (2 * r + 2) := by
        have : n < 4 * ((r + 1) * (r + 1)) := by simp only [Nat.succ_eq_add_one] at hup; omega
        linarith
      split
      next hle => exact Nat.eq_sqrt.2 ⟨hle, hup'⟩
      next hlt => exact Nat.eq_sqrt.2 ⟨hlow', not_le.1 hlt⟩

theorem isqrt_eq_sqrt (n : Nat) : isqrt n = Nat.sqrt n := by
  refine isqrtAux_eq (Nat.lt_log2_self.trans_le ?_)
  rw [show 4 = 2 ^ 2 by rfl, ← pow_mul]
  exact Nat.pow_le_pow_right (by decide) (by omega)

/-- The number the model rounds for √q: the root itself where it ends within p bits, else the middle of the enclosure. -/
def rootOf (p : Nat) (q : ℚ) : ℚ := if (sqrtIv p q).lo = (sqrtIv p q).hi then (sqrtIv p q).lo else ((sqrtIv p q).lo + (sqrtIv p q).hi) / 2

/-- In units of 2^−p that is the whole part of the root, and half a unit more where the root is not whole. -/
theorem rootOf_eq (p : Nat) (q : ℚ) : let r := Nat.sqrt ⌊q * ((4 ^ p : Nat) : ℚ)⌋₊
    rootOf p q = if (r : ℚ) * r = q * ((4 ^ p : Nat) : ℚ) then r / ((2 ^ p : Nat) : ℚ) else (r + 1 / 2) / ((2 ^ p : Nat) : ℚ) := by
  have hk : ((2 ^ p : Nat) : ℚ) ≠ 0 := by positivity
  simp only [rootOf, sqrtIv, isqrt_eq_sqrt, floor_toNat]
  generalize (Nat.sqrt ⌊q * ((4 ^ p : Nat) : ℚ)⌋₊ : ℚ) = r
  by_cases hr : r * r = q * ((4 ^ p : Nat) : ℚ)
  · simp only [hr, if_true]
  · simp only [hr, if_false]
    rw [if_neg fun he => by have := (div_left_inj' hk).1 he; linarith]
    field_simp
    ring

/-- A number of units of 2^−p is on the same side of the delivered number and of the root. -/
theorem rootOf_cut (p : Nat) {q : ℚ} (hq : 0 ≤ q) (j : Nat) :
    let c : ℚ := j / ((2 ^ p : Nat) : ℚ)
    (rootOf p q ≤ c → q ≤ c * c) ∧ (c ≤ rootOf p q → c * c ≤ q) := by
  intro c
  have hk : (0 : ℚ) < ((2 ^ p : Nat) : ℚ) := by positivity
  have hkk : ((4 ^ p : Nat) : ℚ) = ((2 ^ p : Nat) : ℚ) * ((2 ^ p : Nat) : ℚ) := by
    rw [← Nat.cast_mul, ← mul_pow]
    norm_num
  have hcc : c * c = (j : ℚ) * j / ((4 ^ p : Nat) : ℚ) := by rw [hkk, div_mul_div_comm]
  have hkk0 : (0 : ℚ) < ((4 ^ p : Nat) : ℚ) := by positivity
  rw [rootOf_eq, hcc, le_div_iff₀ hkk0, div_le_iff₀ hkk0]
  set t := q * ((4 ^ p : Nat) : ℚ)
  have ht : 0 ≤ t := mul_nonneg hq hkk0.le
  set r := Nat.sqrt ⌊t⌋₊
  have hlow : (r : ℚ) * r ≤ t := le_trans (by exact_mod_cast Nat.sqrt_le ⌊t⌋₊) (Nat.floor_le ht)
  have hup : t < ((r : ℚ) + 1) * (r + 1) := by
    have : ⌊t⌋₊ + 1 ≤ (r + 1) * (r + 1) := Nat.lt_succ_sqrt ⌊t⌋₊
    exact (Nat.lt_floor_add_one t).trans_le (by exact_mod_cast this)
  have hr0 : (0 : ℚ) ≤ r := Nat.cast_nonneg r
  have hsq {x y : ℚ} (hx : 0 ≤ x) (h : x ≤ y) : x * x ≤ y * y := mul_self_le_mul_self hx h
  by_cases he : (r : ℚ) * r = t
  · rw [if_pos he, div_le_div_iff_of_pos_right hk, div_le_div_iff_of_pos_right hk, ← he]
    exact ⟨hsq hr0, hsq (Nat.cast_nonneg j)⟩
  · rw [if_neg he, div_le_div_iff_of_pos_right hk, div_le_div_iff_of_pos_right hk]
    constructor
    · intro h
      have hj : r + 1 ≤ j := by
        have : (r : ℚ) < j := by linarith
        exact_mod_cast this
      exact hup.le.trans (hsq (by positivity) (by exact_mod_cast hj))
    · intro h
      have hj : j ≤ r := by
        have : (j : ℚ) < r + 1 := by linarith
        exact Nat.lt_succ_iff.1 (by exact_mod_cast this)
      exact (hsq (Nat.cast_nonneg j) (by exact_mod_cast hj)).trans hlow

/-! ### The nearest FP32 number -/

/-- A number at least as near to v as to w is on v's side of the middle. -/
theorem le_midpoint {m v w : ℚ} (h : |m - v| ≤ |m - w|) (hvw : v < w) : m ≤ (v + w) / 2 := by
  by_contra hlt
  have hlt' : |m - w| < m - v := abs_lt.2 ⟨by linarith, by linarith⟩
  linarith [le_abs_self (m - v)]
theorem midpoint_le {m v w : ℚ} (h : |m - v| ≤ |m - w|) (hwv : w < v) : (v + w) / 2 ≤ m := by
  by_contra hlt
  have hlt' : |m - w| < v - m := abs_lt.2 ⟨by linarith, by linarith⟩
  linarith [neg_abs_le (m - v)]

/-- The middle of two FP32 numbers is a number of units of 2^−200. -/
theorem fp32_midpoint_units {n n' : Nat} {v w : ℚ} (hv : Fmt.fp32.Holds n v) (hw : Fmt.fp32.Holds n' w) (hv0 : 0 ≤ v) (hw0 : 0 ≤ w) :
    ∃ j : Nat, (v + w) / 2 = j / ((2 ^ 200 : Nat) : ℚ) := by
  obtain ⟨a, ha⟩ := fp32_units hv
  obtain ⟨b, hb⟩ := fp32_units hw
  rw [abs_of_nonneg hv0] at ha
  rw [abs_of_nonneg hw0] at hb
  refine ⟨(a + b) * 2 ^ 50, ?_⟩
  rw [ha, hb, pow2_eq]
  push_cast
  norm_num
  ring

theorem two_pow_div_two_pow (a b : Nat) : ((2 ^ a : Nat) : ℚ) / ((2 ^ b : Nat) : ℚ) = pow2 ((a : Int) - b) := by
  rw [← pow2_natCast, ← pow2_natCast, div_eq_iff (pow2_pos _).ne', ← pow2_add]
  congr 1
  omega

/-- RNE of the delivered number is the FP32 number nearest √q: the middle to any other is beyond the root. -/
theorem fp32_nearest_root {q : ℚ} (hlo : pow2 (-150) ≤ q) (hhi : q ≤ pow2 150) :
    ∃ r, Fmt.fp32.Holds (roundTo .fp32 .rne (.num (rootOf 200 q))).1 r ∧ 0 < r ∧ ∀ n w, Fmt.fp32.Holds n w →
      (r < w → q ≤ ((r + w) / 2) * ((r + w) / 2)) ∧ (0 ≤ w → w < r → ((r + w) / 2) * ((r + w) / 2) ≤ q) := by
  have hq : 0 < q := (pow2_pos _).trans_le hlo
  have hlow : pow2 (-100) < rootOf 200 q := by
    by_contra hle
    have hcut := (rootOf_cut 200 hq.le (2 ^ 100)).1
    rw [two_pow_div_two_pow, ← pow2_add] at hcut
    exact (hlo.trans (hcut (not_lt.1 hle))).not_gt (pow2_lt.2 (by decide))
  have hhigh : rootOf 200 q < pow2 100 := by
    by_contra hle
    have hcut := (rootOf_cut 200 hq.le (2 ^ 300)).2
    rw [two_pow_div_two_pow, ← pow2_add] at hcut
    exact ((hcut (not_lt.1 hle)).trans hhi).not_gt (pow2_lt.2 (by decide))
  set m := rootOf 200 q
  have hm : 0 < m := (pow2_pos _).trans hlow
  have hlimit : |m| < Fmt.Ieee.limit .fp32 ⟨8, 23, 127, true⟩ := by
    rw [abs_of_pos hm]
    calc m < pow2 127 := hhigh.trans (pow2_lt.2 (by decide))
      _ ≤ _ := FShape.pow2_bias_le_maxFinite ieee_fp32.standard .fp32
      _ ≤ _ := le_add_of_nonneg_right (pow2_pos _).le
  obtain ⟨r, hr, hnear, -⟩ := (ieee_fp32.round_nearest (mode := .rne) (.inl rfl) hm.ne').2 hlimit
  rw [← ieee_fp32.roundTo_num .rne hm.ne'] at hr
  have hr0 : 0 < r := by
    obtain ⟨hsmall, -⟩ := ieee_fp32.roundTo_onGrid .rne (pow2_pos (-100)).ne' (by rw [abs_of_pos (pow2_pos _)]; exact fp32_onGrid_pow2 (by decide) (by decide))
    have h1 := hnear _ _ (.inl hsmall)
    by_contra hle
    rw [abs_of_pos (sub_pos.2 hlow)] at h1
    linarith [le_abs_self (m - r), pow2_pos (-100)]
  refine ⟨r, hr, hr0, fun n w hw => ⟨fun hlt => ?_, fun hw0 hlt => ?_⟩⟩
  · obtain ⟨j, hj⟩ := fp32_midpoint_units hr hw hr0.le (hr0.trans hlt).le
    rw [hj]
    exact (rootOf_cut 200 hq.le j).1 (hj ▸ le_midpoint (hnear n w hw) hlt)
  · obtain ⟨j, hj⟩ := fp32_midpoint_units hr hw hr0.le hw0
    rw [hj]
    exact (rootOf_cut 200 hq.le j).2 (hj ▸ midpoint_le (hnear n w hw) hlt)

end Sys2Proof.Machine
end

section
/-! PROOFS. Special functions (R133, R134): the instructions, the operands with an exact result, and the roots. -/
namespace Sys2Proof.Machine
open Sys2Proof Host

/-! ### The instructions (R32) -/

/-- A lane instruction of variable latency that does the same for every active thread, and raises no enabled flag. -/
theorem variableGives_of {i : Instr} {f : Env → Nat → TRes} {ok : Env → Prop} {vw : Env → Nat → List (Nat × RegVal)} {fl : Env → Nat → Flags}
    (hexec : ∀ s, exec i s = issueVariable i .other f s) (hr : ∀ stl d a t, i ≠ .rdlane stl d a t)
    (hf : ∀ e, ok e → Quiet fl e ∧ ∀ t, f e t = { vw := vw e t, fl := fl e t }) : VariableGives i ok vw fl := by
  intro s e h hc hok
  obtain ⟨hq, hres⟩ := hf e hok
  rw [hexec, issueVariable_clear h hc hr fun t ht => by rw [hres t]; exact ⟨rfl, hq t ht⟩]
  simp only [hres]

/-- A special function delivers its value and flags for every thread. -/
theorem special_gives {i : Instr} {d a : BitVec 7} (fn : SpecFn) (hexec : ∀ s, exec i s = issueVariable i .other (specRes fn d a) s)
    (hr : ∀ stl d a t, i ≠ .rdlane stl d a t) :
    VariableGives i (Quiet fun e t => (fn.eval (e.vec a t).val).2) (fun e t => [(e.g.num d, ⟨(fn.eval (e.vec a t).val).1, (e.vec a t).poison⟩)])
      (fun e t => (fn.eval (e.vec a t).val).2) :=
  variableGives_of hexec hr fun _ hq => ⟨hq, fun _ => rfl⟩

/-! ### The operand's class (R134) -/

section Eval
variable {x : Word} {fn : SpecFn}

theorem SpecFn.eval_nan {sn : Bool} (h : Fmt.fp32.value x.toNat = .nan sn) : fn.eval x = (0x7FC00000, if sn = true then fIV else 0) := by
  simp only [SpecFn.eval, h, ieee_fp32.siOf_of_not_num (n := x.toNat) (by rw [h]; nofun)]
  exact Prod.ext rfl BitVec.or_zero
theorem SpecFn.eval_inf {neg : Bool} (h : Fmt.fp32.value x.toNat = .inf neg) :
    fn.eval x = (BitVec.ofNat 32 (fn.infinite neg).1, (fn.infinite neg).2) := by
  simp only [SpecFn.eval, h, ieee_fp32.siOf_of_not_num (n := x.toNat) (by rw [h]; nofun)]
  exact Prod.ext rfl BitVec.or_zero
theorem SpecFn.eval_zero {neg : Bool} (h : Fmt.fp32.value x.toNat = .zero neg) :
    fn.eval x = (BitVec.ofNat 32 (fn.atZero neg).1, (fn.atZero neg).2) := by
  simp only [SpecFn.eval, h, ieee_fp32.siOf_of_not_num (n := x.toNat) (by rw [h]; nofun)]
  exact Prod.ext rfl BitVec.or_zero
theorem SpecFn.eval_num {q : ℚ} (h : Fmt.fp32.value x.toNat = .num q) :
    fn.eval x = (BitVec.ofNat 32 (fn.finite x q).1, (fn.finite x q).2 ||| siOf .fp32 [x.toNat]) := by
  simp only [SpecFn.eval, h]

/-- A normal operand adds no flag of its own. -/
theorem SpecFn.eval_normal {q : ℚ} (h : Fmt.fp32.value x.toNat = .num q) (hq : 1 / 2 ≤ |q|) :
    fn.eval x = (BitVec.ofNat 32 (fn.finite x q).1, (fn.finite x q).2) := by
  have hlow : pow2 (1 - ((127 : Nat) : Int)) ≤ |q| := le_trans (le_trans (pow2_le.2 (by decide : _ ≤ (-1 : Int))) (by rw [pow2_eq]; norm_num)) hq
  rw [SpecFn.eval_num h, ieee_fp32.siOf_of_normal h hlow]
  exact Prod.ext rfl BitVec.or_zero

theorem SpecFn.holds_eval {q v : ℚ} (h : Fmt.fp32.value x.toNat = .num q) : Fmt.fp32.Holds (fn.eval x).1.toNat v ↔ Fmt.fp32.Holds (fn.finite x q).1 v := by
  rw [SpecFn.eval_num h]
  exact fp32_holds_ofNat

end Eval

/-! ### Integers and halves -/

theorem isInt_intCast (k : Int) : isInt (k : ℚ) = true := by simp [isInt]
theorem isEven_intCast (k : Int) : isEven (k : ℚ) = decide (k % 2 = 0) := by
  rw [isEven, Rat.num_intCast]
  rfl
theorem isInt_half (k : Int) : isInt ((k : ℚ) + 1 / 2) = false := by
  refine Bool.eq_false_iff.2 fun h => ?_
  have hnum : (((k : ℚ) + 1 / 2).num : ℚ) = k + 1 / 2 := (Rat.den_eq_one_iff _).1 (beq_iff_eq.1 h)
  have : (2 * ((k : ℚ) + 1 / 2).num : ℚ) = 2 * k + 1 := by rw [hnum]; ring
  have hint : 2 * ((k : ℚ) + 1 / 2).num = 2 * k + 1 := by exact_mod_cast this
  omega
theorem isInt_two_mul_half (k : Int) : isInt (2 * ((k : ℚ) + 1 / 2)) = true := by
  rw [show 2 * ((k : ℚ) + 1 / 2) = ((2 * k + 1 : Int) : ℚ) by push_cast; ring, isInt_intCast]

section Trig
variable (fn : Nat) (x : Word) (k : Int)

theorem sinPi_intCast : sinPi fn x k = (f32Zero (decide ((k : ℚ) < 0)), 0) := if_pos (isInt_intCast k)
theorem cosPi_intCast : cosPi fn x k = (f32One (!decide (k % 2 = 0)), 0) := by
  rw [cosPi, if_pos (isInt_intCast k), isEven_intCast]
theorem sinPi_half : sinPi fn x (k + 1 / 2) = (f32One (!decide (k % 2 = 0)), 0) := by
  rw [sinPi, if_neg (by rw [isInt_half]; exact Bool.false_ne_true), if_pos (isInt_two_mul_half k),
    show (2 * ((k : ℚ) + 1 / 2) - 1) / 2 = k by ring, isEven_intCast]
theorem cosPi_half : cosPi fn x (k + 1 / 2) = (0, 0) := by
  rw [cosPi, if_neg (by rw [isInt_half]; exact Bool.false_ne_true), if_pos (isInt_two_mul_half k)]

end Trig

/-- The elements of ±1 and ±0 by the condition that chooses them. -/
theorem f32One_not_decide (c : Prop) [Decidable c] : f32One (!decide c) = if c then 0x3F800000 else 0xBF800000 := by
  by_cases h : c <;> simp [h, f32One]
theorem f32Zero_decide (c : Prop) [Decidable c] : f32Zero (decide c) = if c then 0x80000000 else 0 := by
  by_cases h : c <;> simp [h, f32Zero]

/-! ### Exact results of numbers (R134) -/

section Exact
variable {x : Word} {q : ℚ} (h : Fmt.fp32.value x.toNat = .num q)
include h

/-- Below 0, RSQ, SQRT and LOG2 are invalid. -/
theorem SpecFn.eval_negative (hq : q < 0) {fn : SpecFn} (hfn : fn = .rsq ∨ fn = .sqrt ∨ fn = .log2) :
    fn.eval x = (0x7FC00000, fIV ||| (if Fmt.fp32.subnormal x.toNat = true then fSI else 0)) := by
  have hinv : fn.finite x q = (Fmt.fp32.qnan, fIV) := by
    rcases hfn with rfl | rfl | rfl <;> exact if_pos hq
  rw [SpecFn.eval_num h, hinv, siOf, List.any_cons, List.any_nil, Bool.or_false]
  rfl

theorem exp2_overflow (hq : 128 ≤ q) : SpecFn.exp2.eval x = (0x7F800000, fOF ||| fNX) := by
  rw [SpecFn.eval_normal h (by rw [abs_of_nonneg] <;> linarith), show SpecFn.exp2.finite x q = (f32Inf false, fOF ||| fNX) from if_pos hq]
  rfl

/-- EXP2 of an integer is the power of 2, exactly. -/
theorem exp2_integer {k : Int} (hk : q = k) (h1 : -149 ≤ k) (h2 : k ≤ 127) :
    Fmt.fp32.Holds (SpecFn.exp2.eval x).1.toNat (pow2 k) ∧ (SpecFn.exp2.eval x).2 &&& fNX = 0 := by
  have hlow : ¬ (k : ℚ) < -160 := not_lt.2 (by exact_mod_cast (by omega : (-160 : Int) ≤ k))
  have hhigh : ¬ (k : ℚ) ≥ 128 := not_le.2 (by exact_mod_cast (by omega : k < (128 : Int)))
  have hfin : SpecFn.exp2.finite x q = roundTo .fp32 .rne (.num (pow2 k)) := by
    rw [hk]
    simp only [SpecFn.finite, hhigh, hlow, if_false, isInt_intCast, if_true, Rat.num_intCast]
  obtain ⟨hval, hfl⟩ := ieee_fp32.roundTo_onGrid .rne (pow2_pos k).ne' (by rw [abs_of_pos (pow2_pos k)]; exact fp32_onGrid_pow2 h1 h2)
  rw [SpecFn.holds_eval h, SpecFn.eval_num h, hfin, hfl]
  have hnx : (0 ||| siOf .fp32 [x.toNat]) &&& fNX = 0 := by
    unfold siOf
    cases [x.toNat].any (Fmt.subnormal .fp32) <;> decide
  exact ⟨.inl hval, hnx⟩

/-- LOG2 of a power of 2 is its exponent, exactly. -/
theorem log2_pow2 {k : Int} (hk : q = pow2 k) : Fmt.fp32.Holds (SpecFn.log2.eval x).1.toNat k := by
  obtain ⟨hlow, hhigh⟩ := fp32_bounds h
  rw [hk, abs_of_pos (pow2_pos k)] at hlow hhigh
  have hk1 := pow2_le.1 hlow
  have hk2 := pow2_lt.1 hhigh
  obtain ⟨hf1, hf2⟩ := floorLog2_spec (pow2_pos k)
  have hfloor : floorLog2 (pow2 k) = k := le_antisymm (pow2_le.1 hf1) (Int.lt_add_one_iff.1 (pow2_lt.1 hf2))
  have hfin : SpecFn.log2.finite x q = roundTo .fp32 .rne (.ofRat k) := by
    rw [hk]
    simp only [SpecFn.finite, (pow2_pos k).not_gt, if_false, hfloor, if_true]
  rw [SpecFn.holds_eval h, hfin]
  by_cases h0 : k = 0
  · subst h0
    exact .inr ⟨Int.cast_zero, false, by rw [FVal.ofRat, if_pos Int.cast_zero]; exact ieee_fp32.value_roundTo_zero .rne false⟩
  · have hk0 : (k : ℚ) ≠ 0 := Int.cast_ne_zero.2 h0
    rw [FVal.ofRat, if_neg hk0]
    exact .inl (ieee_fp32.roundTo_onGrid .rne hk0 (fp32_onGrid_intCast (by omega))).1

theorem sinpi_cospi_integer {k : Int} (hk : q = k) :
    SpecFn.sinpi.eval x = (if q < 0 then 0x80000000 else 0, 0) ∧ SpecFn.cospi.eval x = (if k % 2 = 0 then 0x3F800000 else 0xBF800000, 0) := by
  have hq := fp32_num_ne_zero h
  subst hk
  have hone : 1 / 2 ≤ |(k : ℚ)| := by
    have : (1 : ℚ) ≤ |(k : ℚ)| := by exact_mod_cast Int.one_le_abs (Int.cast_ne_zero.1 hq)
    linarith
  rw [SpecFn.eval_normal h hone, SpecFn.eval_normal h hone]
  simp only [SpecFn.finite, sinPi_intCast, cosPi_intCast, f32One_not_decide, f32Zero_decide, apply_ite (BitVec.ofNat 32)]
  exact ⟨rfl, rfl⟩

theorem sinpi_cospi_half {k : Int} (hk : q = k + 1 / 2) :
    SpecFn.sinpi.eval x = (if k % 2 = 0 then 0x3F800000 else 0xBF800000, 0) ∧ SpecFn.cospi.eval x = (0, 0) := by
  subst hk
  have hhalf : 1 / 2 ≤ |(k : ℚ) + 1 / 2| := by
    rcases le_or_gt 0 k with h0 | h0
    · have : (0 : ℚ) ≤ k := by exact_mod_cast h0
      rw [abs_of_nonneg] <;> linarith
    · have : (k : ℚ) ≤ -1 := by exact_mod_cast (by omega : k ≤ -1)
      rw [abs_of_neg] <;> linarith
  rw [SpecFn.eval_normal h hhalf, SpecFn.eval_normal h hhalf]
  simp only [SpecFn.finite, sinPi_half, cosPi_half, f32One_not_decide, apply_ite (BitVec.ofNat 32)]
  exact ⟨rfl, rfl⟩

/-- SQRT and RSQ give the FP32 numbers nearest the root and its inverse. -/
theorem sqrt_rsq_nearest (hq : 0 < q) : ∃ r s, Fmt.fp32.Holds (SpecFn.sqrt.eval x).1.toNat r ∧ Fmt.fp32.Holds (SpecFn.rsq.eval x).1.toNat s ∧ 0 < r ∧ 0 < s
    ∧ ∀ (y : Word) w, Fmt.fp32.Holds y.toNat w → (r < w → q ≤ ((r + w) / 2) * ((r + w) / 2)) ∧ (0 ≤ w → w < r → ((r + w) / 2) * ((r + w) / 2) ≤ q)
      ∧ (s < w → 1 ≤ ((s + w) / 2) * ((s + w) / 2) * q) ∧ (0 ≤ w → w < s → ((s + w) / 2) * ((s + w) / 2) * q ≤ 1) := by
  have rounds (v : ℚ) : (if (sqrtIv 200 v).lo = (sqrtIv 200 v).hi then roundTo .fp32 .rne (.num (sqrtIv 200 v).lo)
      else roundTo .fp32 .rne (.num (((sqrtIv 200 v).lo + (sqrtIv 200 v).hi) / 2))) = roundTo .fp32 .rne (.num (rootOf 200 v)) := by
    unfold rootOf; split <;> rfl
  have hsqrt : SpecFn.sqrt.finite x q = roundTo .fp32 .rne (.num (rootOf 200 q)) := (if_neg hq.not_gt).trans (rounds q)
  have hrsq : SpecFn.rsq.finite x q = roundTo .fp32 .rne (.num (rootOf 200 (1 / q))) := (if_neg hq.not_gt).trans (rounds (1 / q))
  obtain ⟨hlow, hhigh⟩ := fp32_bounds h
  rw [abs_of_pos hq] at hlow hhigh
  have inverse (k : Int) : pow2 (-k) * pow2 k = 1 := by rw [← pow2_add, neg_add_cancel, pow2_eq, zpow_zero]
  obtain ⟨r, hr, hr0, hrn⟩ := fp32_nearest_root ((pow2_le.2 (by decide)).trans hlow) (hhigh.le.trans (pow2_le.2 (by decide)))
  obtain ⟨s, hs, hs0, hsn⟩ := fp32_nearest_root (q := 1 / q)
    (by rw [le_div_iff₀ hq, ← inverse 150]; exact mul_le_mul_of_nonneg_left (hhigh.le.trans (pow2_le.2 (by decide))) (pow2_pos _).le)
    (by rw [div_le_iff₀ hq, ← inverse (-150)]; exact mul_le_mul_of_nonneg_left ((pow2_le.2 (by decide)).trans hlow) (pow2_pos _).le)
  refine ⟨r, s, (SpecFn.holds_eval h).2 (hsqrt ▸ hr), (SpecFn.holds_eval h).2 (hrsq ▸ hs), hr0, hs0, fun y w hw => ?_⟩
  obtain ⟨hr1, hr2⟩ := hrn _ w hw
  obtain ⟨hs1, hs2⟩ := hsn _ w hw
  exact ⟨hr1, hr2, fun hlt => (div_le_iff₀ hq).1 (hs1 hlt), fun hw0 hlt => (le_div_iff₀ hq).1 (hs2 hw0 hlt)⟩

end Exact

/-- Settles O12: the listed operands by their class, the roots by the grid of FP32. -/
theorem specialFunctionResults : Obligations.SpecialFunctionResults := by
  unfold Obligations.SpecialFunctionResults
  intro st d a
  refine ⟨special_gives .rcp (fun _ => rfl) nofun, special_gives .rsq (fun _ => rfl) nofun, special_gives .sqrt (fun _ => rfl) nofun,
    special_gives .exp2 (fun _ => rfl) nofun, special_gives .log2 (fun _ => rfl) nofun, special_gives .sinpi (fun _ => rfl) nofun,
    special_gives .cospi (fun _ => rfl) nofun, special_gives .tanh (fun _ => rfl) nofun, special_gives .sigm (fun _ => rfl) nofun,
    special_gives .erf (fun _ => rfl) nofun, special_gives .gelu (fun _ => rfl) nofun, special_gives .silu (fun _ => rfl) nofun,
    fun x => ⟨fun fn sn _ hv => SpecFn.eval_nan hv, fun hv r hr => ?pos_inf, fun hv r hr => ?neg_inf, fun sg hv => ?zero, fun q hv =>
      ⟨fun hq fn hfn => SpecFn.eval_negative hv hq hfn, exp2_overflow hv, fun k => exp2_integer hv, fun k => log2_pow2 hv, fun k => sinpi_cospi_integer hv,
        fun k => sinpi_cospi_half hv, by rw [SpecFn.eval_num hv]; rfl, sqrt_rsq_nearest hv⟩⟩⟩
  case pos_inf => rw [SpecFn.eval_inf hv]; revert r; decide
  case neg_inf => rw [SpecFn.eval_inf hv]; revert r; decide
  case zero =>
    intro z i r hr
    rw [SpecFn.eval_zero hv]
    cases sg
    · revert r; decide
    · revert r; decide

end Sys2Proof.Machine
end

section
/-! PROOFS. Lookups that trap (R54, R218): a TEX of poisoned coordinates uses up an operation number, the counterexample to the frame of its trap. -/
namespace Sys2Proof.Machine
open Sys2Proof Host

/-- The results of the threads of a lane instruction all of which meet the trap. -/
def allTrapped (tr : Trap) (ts : List Nat) : List (Nat × TRes) := ts.map fun t => (t, { err := some tr })

section AllTrapped
variable (tr : Trap) (ts : List Nat)

theorem failsOf_allTrapped : failsOf (allTrapped tr ts) = sameTrap tr (fun _ => noVa) ts := by
  simp [failsOf, allTrapped, sameTrap, List.filterMap_map]
theorem filter_allTrapped : (allTrapped tr ts).filter (fun r => r.2.err.isNone) = [] :=
  List.filter_eq_nil_iff.2 fun r hr => by obtain ⟨t, -, rfl⟩ := List.mem_map.1 hr; exact Bool.false_ne_true
/-- Threads that trap, and not FPEXC, leave nothing on its way. -/
theorem stops_allTrapped (ht : tr.cause ≠ Cause.fpexc.code) : ∀ r ∈ allTrapped tr ts, r.2.stops = true := fun r hr => by
  obtain ⟨t, -, rfl⟩ := List.mem_map.1 hr
  exact bne_iff_ne.2 ht

end AllTrapped

/-- A lookup every thread of which meets the same trap, other than FPEXC: the threads trap, no result is sent and no destination is pending, but
the operation has taken its number. -/
theorem issueLookup_allTrap {s : State} {e : Env} {i : Instr} {cls : OpClass} {looks : Env → Nat → Option Look} {f : Env → Nat → TRes} {tr : Trap}
    (h : s.env = some e) (hc : e.Clear i) (hr : ∀ stl d a t, i ≠ .rdlane stl d a t) (hm : e.p.mask ≠ 0) (ht : tr.cause ≠ Cause.fpexc.code)
    (hf : ∀ t ∈ threadsOf e.p.mask, f e t = { err := some tr }) : issueLookup i cls looks f s =
      .next ({ s.setGrp e.gk (e.seeChorusBut i e.p.mask e.p.mask e.g) with seq := s.seq + 1 }.trapEntry e.gk e.pi tr e.p.mask noVa) := by
  obtain ⟨hissue, hd⟩ := hc
  rw [Env.mem_readers (rdlaneMask_of hr _)] at hd
  obtain ⟨-, -, hg, -, -⟩ := State.env_eq_some h
  have hstops := stops_allTrapped tr (threadsOf e.p.mask) ht
  have hres : e.laneResults i f = allTrapped tr (threadsOf e.p.mask) := List.map_congr_left fun t htt => by simp [hd t htt, hf t htt]
  have hlive : (allTrapped tr (threadsOf e.p.mask)).filter (fun r => !r.2.stops) = [] :=
    List.filter_eq_nil_iff.2 fun r hr => by simp [hstops r hr]
  have hwait : (allTrapped tr (threadsOf e.p.mask)).filter (fun r => r.2.err.isSome && !r.2.stops) = [] :=
    List.filter_eq_nil_iff.2 fun r hr => by simp [hstops r hr]
  have hmarks : marksOf s.seq cls (allTrapped tr (threadsOf e.p.mask)) = [] := by simp [marksOf, filter_allTrapped]
  have hfp : fpexcMarks s.seq cls (allTrapped tr (threadsOf e.p.mask)) = [] := by simp [fpexcMarks, hwait]
  obtain ⟨⟨-, -, hva⟩, -⟩ := lowestVa_sameTrap tr (fun _ => noVa) (threadsOf_ne_nil hm)
  unfold issueLookup
  simp only [h, hissue, hres, hlive, hmarks, hfp, failsOf_allTrapped, State.updGrp_some hg, Env.seeFails, Fails.mask_sameTrap, Fails.named_sameTrap _ _ hm,
    List.append_nil, List.isEmpty_nil, if_true, Env.finish, Env.finishAs_sameTrap _ _ _ _ _ hm, hva]
  rfl

/-- A trap that is not escalated takes no operation number. -/
theorem State.trapEntry_seq {s : State} {gk pi : Nat} {g : Grp} {b : Blk} {t : Trap} {m : Mask} {va : Nat} (hg : s.grp gk = some g)
    (hb : s.blk g.blk = some b) (htv : (s.ctx b.ctx).tvec ≠ 0) (hpi : (g.path pi).hnd = false) : (s.trapEntry gk pi t m va).seq = s.seq := by
  by_cases hin : g.inHandler = true
  · simp only [State.trapEntry, hg, hb, hpi, beq_false_of_ne htv, hin, Bool.false_eq_true, if_false, if_true, State.updPath_seq]
  · rw [trapEntry_enters hg hb htv hpi (Bool.eq_false_iff.2 hin)]
    rfl

/-! ### A path whose thread has a poisoned coordinate -/

/-- One path, of thread 0, whose v4 is poisoned. -/
def poisonedGroup : Grp :=
  { Grp.start 0 0 0 0 0 0 0 with paths := { Path.free with st := .live, mask := 1 } :: List.replicate 7 Path.free, v := [(512, ⟨0, true⟩)] }
/-- The machine after reset with this group at issue, in the block of a placed program of a context that has a handler. -/
def poisonedState : State :=
  { State.reset.setCtx 0 { State.reset.ctx 0 with desc := 1 <<< 720 } with issuer := some (0, 0), groups := [(0, poisonedGroup)], blocks := [(0, Blk.placed')] }
/-- What its instruction sees. -/
def poisonedEnv : Env := ⟨poisonedState, 0, poisonedGroup, Blk.placed', 0, poisonedGroup.path 0⟩

theorem poisonedState_tvec : (poisonedState.ctx Blk.placed'.ctx).tvec ≠ 0 := by
  have handler : poisonedState.ctx Blk.placed'.ctx = { State.reset.ctx 0 with desc := 1 <<< 720 } := State.ctx_setCtx ..
  rw [handler, Ctx.tvec]
  intro h
  have low := congrArg (BitVec.getLsbD · 0) h
  simp at low

/-- Refutes O37: a TEX all of whose threads have a poisoned coordinate traps, but the number of its operation is used up (`State.seq`), where the
statement has the trap taken in the state of issue with nothing outside the group changed. -/
theorem not_lookupInstructions : ¬ Obligations.LookupInstructions := by
  unfold Obligations.LookupInstructions
  rintro ⟨looks, -⟩
  have henv : poisonedState.env = some poisonedEnv := rfl
  have hclear : poisonedEnv.Clear (.tex 0 0 4 0 0) := ⟨by decide, by decide⟩
  obtain ⟨-, -, traps, -⟩ := looks 0 0 4 0 0 0 poisonedState poisonedEnv henv (by decide) (by decide)
  have stated := traps poisonedState poisonedEnv henv hclear (by decide) fun t ht => ⟨0, by decide, by revert t; decide⟩
  rw [show exec (.tex 0 0 4 0 0) poisonedState = execTex 0 0 4 0 0 poisonedState from rfl, execTex,
    issueLookup_allTrap (tr := ⟨0x0B, 0⟩) henv hclear nofun (by decide) (by decide) fun t ht => if_pos (by revert t; decide)] at stated
  have seen : poisonedEnv.seeChorusBut (.tex 0 0 4 0 0) poisonedEnv.p.mask poisonedEnv.p.mask poisonedEnv.g = poisonedGroup := if_pos (by decide)
  have numbers := congrArg State.seq (Outcome.next.inj stated)
  rw [seen] at numbers
  have given := State.trapEntry_seq (s := poisonedState.setGrp 0 poisonedGroup) (pi := 0) (t := ⟨0x0B, 0⟩) (m := poisonedEnv.p.mask) (va := noVa)
    (State.grp_setGrp ..) rfl poisonedState_tvec rfl
  have taken := State.trapEntry_seq (s := { poisonedState.setGrp 0 poisonedGroup with seq := poisonedState.seq + 1 }) (pi := 0) (t := ⟨0x0B, 0⟩)
    (m := poisonedEnv.p.mask) (va := noVa) (State.grp_setGrp poisonedState 0 poisonedGroup) rfl poisonedState_tvec rfl
  exact absurd (taken.symm.trans (numbers.trans given)) (Nat.succ_ne_self _)

end Sys2Proof.Machine
end

section
/-! PROOFS. Complex operations, spectral packets and polarisation (R135 to R144): each instruction by its slots, and the rotation factors of WROTS. -/
namespace Sys2Proof.Machine
open Sys2Proof Host

/-- A lane instruction of a known latency that does the same for every active thread, and raises no enabled flag. -/
theorem laneGives_at {i : Instr} {lat : Nat} {f : Env → Nat → TRes} {ok : Env → Prop} {vw : Env → Nat → List (Nat × RegVal)}
    {pw : Env → Nat → List (Nat × Bool)} {fl : Env → Nat → Flags} {sr : Bool} (hlat : fixedLatency i = lat) (hexec : ∀ s, exec i s = issueLane i f s)
    (hr : ∀ stl d a t, i ≠ .rdlane stl d a t)
    (hf : ∀ e, ok e → Quiet fl e ∧ ∀ t ∈ threadsOf e.p.mask, f e t = { vw := vw e t, pw := pw e t, fl := fl e t, srn := sr }) :
    LaneGives i lat ok vw pw fl sr :=
  hlat ▸ laneGives_of hexec hr hf

/-! ### Complex operations (R135, R136) -/

/-- A lane instruction that writes the two parts of a complex register. -/
theorem complex_gives {i : Instr} {d : BitVec 7} {re im : Env → Nat → RegVal × Flags}
    (hexec : ∀ s, exec i s = issueLane i (fun e t => cxRes e d (re e t) (im e t)) s) (hr : ∀ stl d a t, i ≠ .rdlane stl d a t) (hlat : fixedLatency i = 6) :
    LaneGives i 6 (Quiet fun e t => (re e t).2 ||| (im e t).2) (fun e t => [(2 * e.g.num d, (re e t).1), (2 * e.g.num d + 1, (im e t).1)]) (fun _ _ => [])
      (fun e t => (re e t).2 ||| (im e t).2) false :=
  laneGives_at hlat hexec hr fun _ hq => ⟨hq, fun _ _ => rfl⟩

/-! ### Spectral packets (R137, R138) -/

/-- A lane instruction that writes slots of a spectral register group. -/
theorem packet_gives {i : Instr} {d : BitVec 7} {ws : Env → Nat → List (Nat × (RegVal × Flags))} {f : Env → Nat → TRes}
    (hexec : ∀ s, exec i s = issueLane i f s) (hr : ∀ stl d a t, i ≠ .rdlane stl d a t) (hlat : fixedLatency i = 6)
    (hf : ∀ e t, f e t = packetRes e d (ws e t)) : LanePacket i d ws :=
  laneGives_at hlat hexec hr fun e hq => ⟨hq, fun t _ => hf e t⟩

theorem Env.slot_zero (e : Env) (f : BitVec 7) (i t : Nat) : e.slot f 0 i t = e.span f 8 i t := by
  rw [Env.slot, Nat.mul_zero, Nat.zero_add]
theorem slots8_zero (f : Nat → RegVal × Flags) : slots8 0 f = (List.range 8).map fun i => (i, f i) := by
  simp only [slots8, Nat.mul_zero, Nat.zero_add]

/-- A slot-wise operation of two packets. -/
theorem slotBin_gives {i : Instr} {d a b : BitVec 7} (f : RMode → Nat → Nat → Nat × Flags) (hexec : ∀ s, exec i s = issueLane i (slotBin d a b f) s)
    (hr : ∀ stl d a t, i ≠ .rdlane stl d a t) (hlat : fixedLatency i = 6) :
    LanePacket i d fun e t => (List.range 8).map fun i => (i,
      (⟨BitVec.ofNat 32 (f (arithMode e.g) (e.span a 8 i t).val.toNat (e.span b 8 i t).val.toNat).1, (e.span a 8 i t).poison || (e.span b 8 i t).poison⟩,
        (f (arithMode e.g) (e.span a 8 i t).val.toNat (e.span b 8 i t).val.toNat).2)) :=
  packet_gives hexec hr hlat fun e t => by simp only [slotBin, slots8_zero, Env.slot_zero]; rfl

section Packets
variable (st : BitVec 3) (d a b : BitVec 7)

theorem wfma_gives : LanePacket (.wfma st d a b) d fun e t => (List.range 8).map fun i =>
    (i, part32 (arithMode e.g) [(false, [e.span a 8 i t, e.span b 8 i t]), (false, [e.span d 8 i t])]) :=
  packet_gives (fun _ => rfl) nofun rfl fun e t => by simp only [slots8_zero, Env.slot_zero]
theorem wscl_gives : LanePacket (.wscl st d a b) d fun e t => (List.range 8).map fun i =>
    (i, part32 (arithMode e.g) [(false, [e.span a 8 i t, e.vec b t])]) :=
  packet_gives (fun _ => rfl) nofun rfl fun e t => by simp only [slots8_zero, Env.slot_zero]
theorem wbcst_gives : LanePacket (.wbcst st d a) d fun e t => (List.range 8).map fun i => (i, (e.vec a t, 0)) :=
  packet_gives (fun _ => rfl) nofun rfl fun e t => by simp only [slots8_zero]
theorem wsum_gives : LaneGives (.wsum st d a) 6 (Quiet fun e t => (part32 (arithMode e.g) ((List.range 8).map fun i => (false, [e.span a 8 i t]))).2)
    (fun e t => [(e.g.num d, (part32 (arithMode e.g) ((List.range 8).map fun i => (false, [e.span a 8 i t]))).1)]) (fun _ _ => [])
    (fun e t => (part32 (arithMode e.g) ((List.range 8).map fun i => (false, [e.span a 8 i t]))).2) false :=
  laneGives_of (fun _ => rfl) nofun fun _ hq => ⟨hq, fun _ _ => by simp only [Env.slot_zero]⟩
theorem wexp_gives : LanePacket (.wexp st d a) d fun e t => (List.range 8).map fun i =>
    (i, (⟨(SpecFn.exp.eval (e.span a 8 i t).val).1, (e.span a 8 i t).poison⟩, (SpecFn.exp.eval (e.span a 8 i t).val).2)) :=
  packet_gives (fun _ => rfl) nofun rfl fun e t => by simp only [slots8_zero, Env.slot_zero]

/-- WHERO: a hero wavelength in each slot, or a NaN in all (R139). -/
theorem whero_gives : LanePacket (.whero st d a) d fun e t => (List.range 8).map fun i => (i, match Fmt.fp32.value (e.vec a t).val.toNat with
    | .nan _ | .inf _ => (⟨0x7FC00000, (e.vec a t).poison⟩, fIV)
    | v => (⟨heroSlot v.rat i, (e.vec a t).poison⟩, 0)) :=
  packet_gives (fun _ => rfl) nofun rfl fun e t => by
    simp only [slots8_zero]
    cases Fmt.fp32.value (e.vec a t).val.toNat <;> rfl

end Packets

/-! ### Polarisation (R142 to R144) -/

theorem wfres_gives (st : BitVec 3) (d a b : BitVec 7) : LanePacket (.wfres st d a b) d fun e t => (List.range 8).flatMap fun i =>
    (List.range 4).map fun c => (8 * c + i, (⟨(fresnelSlot (e.span a 8 i t).val (e.span a 8 (8 + i) t).val (e.vec b t).val).1.getD c 0,
      (e.span a 8 i t).poison || (e.span a 8 (8 + i) t).poison || (e.vec b t).poison⟩,
      (fresnelSlot (e.span a 8 i t).val (e.span a 8 (8 + i) t).val (e.vec b t).val).2)) :=
  packet_gives (fun _ => rfl) nofun rfl fun e t => by simp only [Env.slot, Nat.mul_zero, Nat.zero_add, Nat.mul_one]

theorem wmuel_gives (st : BitVec 3) (d a b : BitVec 7) : LanePacket (.wmuel st d a b) d fun e t =>
    let S := fun c i => e.span a 8 (8 * c + i) t
    let M := fun c i => e.span b 8 (8 * c + i) t
    let row := fun c (f : Nat → RegVal × Flags) => (List.range 8).map fun i => (8 * c + i, f i)
    row 0 (fun i => part32 (arithMode e.g) [(false, [M 0 i, S 0 i]), (false, [M 1 i, S 1 i])])
      ++ row 1 (fun i => part32 (arithMode e.g) [(false, [M 1 i, S 0 i]), (false, [M 0 i, S 1 i])])
      ++ row 2 (fun i => part32 (arithMode e.g) [(false, [M 2 i, S 2 i]), (false, [M 3 i, S 3 i])])
      ++ row 3 (fun i => part32 (arithMode e.g) [(true, [M 3 i, S 2 i]), (false, [M 2 i, S 3 i])]) :=
  packet_gives (fun _ => rfl) nofun rfl fun _ _ => rfl

/-- One slot of a turned parameter: p times the cosine and q, negated or not, times the sine, rounded once (R142). -/
def turnedSlot (m : RMode) (x p q : RegVal) (minus : Bool) (co si : Nat) (sub : Flags) : RegVal × Flags :=
  let r := sumRound .fp32 m [⟨false, [Fmt.fp32.value p.val.toNat, Fmt.fp32.value co]⟩, ⟨minus, [Fmt.fp32.value q.val.toNat, Fmt.fp32.value si]⟩]
  (⟨BitVec.ofNat 32 r.1, p.poison || q.poison || x.poison⟩, r.2 ||| siOf .fp32 [x.val.toNat] ||| sub)

/-- The factors as registers hold them are the factors. -/
theorem turnedSlot_eq (m : RMode) (x p q : RegVal) (minus : Bool) (co si : Nat) (sub : Flags) :
    let ts : List (Bool × List RegVal) := [(false, [p, ⟨w32 co, x.poison⟩]), (minus, [q, ⟨w32 si, x.poison⟩])]
    let r := sumRound .fp32 m (ts.map fun t => ⟨t.1, t.2.map fun y => Fmt.fp32.value y.val.toNat⟩)
    ((⟨w32 r.1, ts.any fun t => t.2.any (·.poison)⟩, r.2 ||| siOf .fp32 [x.val.toNat] ||| sub) : RegVal × Flags) = turnedSlot m x p q minus co si sub := by
  have poison : (p.poison || x.poison || (q.poison || x.poison)) = (p.poison || q.poison || x.poison) := (sup_sup_distrib_right ..).symm
  simp only [turnedSlot, w32, List.map_cons, List.map_nil, fp32_value_ofNat, List.any_cons, List.any_nil, Bool.or_false, poison]

theorem wrots_gives (st : BitVec 3) (d a b : BitVec 7) : LanePacket (.wrots st d a b) d fun e t =>
    let x := e.vec b t; let S := fun c i => e.span a 8 (8 * c + i) t
    let keep := fun c => (List.range 8).map fun i => (8 * c + i, negElem false (S c i))
    let wrong := fun (c i : Nat) => (8 * c + i, ((⟨0x7FC00000, (S 1 i).poison || (S 2 i).poison || x.poison⟩, fIV) : RegVal × Flags))
    let sub := fun i => siOf .fp32 [(S 1 i).val.toNat, (S 2 i).val.toNat]
    keep 0 ++ (match Fmt.fp32.value x.val.toNat with
      | .nan _ | .inf _ => ((List.range 8).map fun i => wrong 1 i) ++ ((List.range 8).map fun i => wrong 2 i)
      | v =>
        let co := (cosPi 6 x.val (2 * v.rat)).1
        let si := if v = .zero true then 0x80000000 else if v = .zero false then 0 else (sinPi 5 x.val (2 * v.rat)).1
        ((List.range 8).map fun i => (8 * 1 + i, turnedSlot (arithMode e.g) x (S 1 i) (S 2 i) false co si (sub i)))
          ++ ((List.range 8).map fun i => (8 * 2 + i, turnedSlot (arithMode e.g) x (S 2 i) (S 1 i) true co si (sub i)))) ++ keep 3 :=
  packet_gives (fun _ => rfl) nofun rfl fun e t => by
    simp only []
    cases hv : Fmt.fp32.value (e.vec b t).val.toNat with
    | nan sn => rfl
    | inf neg => rfl
    | zero neg =>
      simp only [← turnedSlot_eq]
      cases neg <;> rfl
    | num q =>
      have hq := fp32_num_ne_zero hv
      simp only [← turnedSlot_eq, FVal.rat, hq, if_false, reduceCtorEq]
      rfl

/-- The rotation factors at integers and at halves: exact. -/
theorem rotation_factors (x : Word) (q : ℚ) :
    (∀ k : Int, q = k → (cosPi 6 x q).1 = (if k % 2 = 0 then 0x3F800000 else 0xBF800000) ∧ (sinPi 5 x q).1 = (if q < 0 then 0x80000000 else 0))
    ∧ ∀ k : Int, q = k + 1 / 2 → (cosPi 6 x q).1 = 0 ∧ (sinPi 5 x q).1 = (if k % 2 = 0 then 0x3F800000 else 0xBF800000) := by
  refine ⟨fun k hk => ?_, fun k hk => ?_⟩ <;> subst hk
  · rw [cosPi_intCast, sinPi_intCast]
    exact ⟨f32One_not_decide _, f32Zero_decide _⟩
  · rw [cosPi_half, sinPi_half]
    exact ⟨rfl, f32One_not_decide _⟩

/-- Settles O13: each instruction by its parts or slots, the rotation factors by those of COSPI and SINPI. -/
theorem complexAndSpectralResults : Obligations.ComplexAndSpectralResults := by
  unfold Obligations.ComplexAndSpectralResults
  refine ⟨fun st d a b o => ⟨complex_gives (fun _ => rfl) nofun rfl, complex_gives (fun _ => rfl) nofun rfl, complex_gives (fun _ => rfl) nofun rfl,
    ?conjugate, ?square, ?phase, ?turn, ?magnitude⟩, fun st d a b => ⟨slotBin_gives (fAdd .fp32) (fun _ => rfl) nofun rfl,
    slotBin_gives (fSub .fp32) (fun _ => rfl) nofun rfl, slotBin_gives (fMul .fp32) (fun _ => rfl) nofun rfl,
    slotBin_gives (fun _ => fMinMax .fp32 false) (fun _ => rfl) nofun rfl, slotBin_gives (fun _ => fMinMax .fp32 true) (fun _ => rfl) nofun rfl,
    wfma_gives st d a b, wscl_gives st d a b, wbcst_gives st d a, wsum_gives st d a, wexp_gives st d a, whero_gives st d a, wmuel_gives st d a b,
    wfres_gives st d a b, wrots_gives st d a b, fun x q _ => rotation_factors x q⟩⟩
  case conjugate => rintro rfl; exact complex_gives (fun _ => rfl) nofun rfl
  case square => rintro rfl; exact complex_gives (fun _ => rfl) nofun rfl
  case phase => rintro rfl; exact complex_gives (fun _ => rfl) nofun rfl
  case turn => rintro rfl; exact complex_gives (fun _ => rfl) nofun rfl
  case magnitude => rintro rfl; exact complex_gives (fun _ => rfl) nofun rfl

end Sys2Proof.Machine
end

section
/-! PROOFS. The matrix engine of a core (R180 to R206): reading it after a change, its commands and banks, and reads of a memory that holds no error
not yet found, which change nothing but how many free values have been drawn. -/
namespace Sys2Proof.Machine
open Sys2Proof Host

/-! ### The engine under updates of the state -/

theorem State.mx_congr {s t : State} (h : t.cores = s.cores) (core : Nat) : t.mx core = s.mx core := by simp only [State.mx, State.core, h]
@[simp] theorem State.mx_updMx (s : State) (core : Nat) (f : Matrix → Matrix) : (s.updMx core f).mx core = f (s.mx core) := by
  simp only [State.mx, State.updMx, State.updCore, State.core_setCore]
@[simp] theorem State.updMx_mem (s : State) (core : Nat) (f : Matrix → Matrix) : (s.updMx core f).mem = s.mem := rfl
@[simp] theorem State.updMx_groups (s : State) (core : Nat) (f : Matrix → Matrix) : (s.updMx core f).groups = s.groups := rfl
@[simp] theorem State.updMx_blocks (s : State) (core : Nat) (f : Matrix → Matrix) : (s.updMx core f).blocks = s.blocks := rfl
@[simp] theorem State.updMx_clock (s : State) (core : Nat) (f : Matrix → Matrix) : (s.updMx core f).clock = s.clock := rfl
@[simp] theorem State.grp_updMx (s : State) (core : Nat) (f : Matrix → Matrix) (gk : Nat) : (s.updMx core f).grp gk = s.grp gk := rfl
@[simp] theorem State.blk_updMx (s : State) (core : Nat) (f : Matrix → Matrix) (bk : Nat) : (s.updMx core f).blk bk = s.blk bk := rfl
@[simp] theorem State.mx_updGrp (s : State) (gk : Nat) (f : Grp → Grp) (core : Nat) : (s.updGrp gk f).mx core = s.mx core := State.mx_congr (State.updGrp_cores ..) _
@[simp] theorem State.mx_updBlk (s : State) (bk : Nat) (f : Blk → Blk) (core : Nat) : (s.updBlk bk f).mx core = s.mx core := State.mx_congr (State.updBlk_cores ..) _
@[simp] theorem State.updMx_updMx (s : State) (core : Nat) (f g : Matrix → Matrix) : (s.updMx core f).updMx core g = s.updMx core fun m => g (f m) := by
  simp only [State.updMx, State.updCore, State.core_setCore]
  simp only [State.setCore, SMap.put_put]
/-- Counting leaves the engine as it is (R453). -/
@[simp] theorem State.mx_count (s : State) (core word n : Nat) : (s.count core word n).mx core = s.mx core := by
  simp only [State.mx, State.count, State.updCore, State.core_setCore]

/-! ### Commands -/

theorem Matrix.cmd_id {m : Matrix} {id : Nat} {c : MCmd} (h : m.cmd id = some c) : c.id = id :=
  beq_iff_eq.1 (List.find?_some (p := fun c : MCmd => c.id == id) h)
theorem Matrix.mem_of_cmd {m : Matrix} {id : Nat} {c : MCmd} (h : m.cmd id = some c) : c ∈ m.cmds := List.mem_of_find?_eq_some h
theorem Matrix.cmd_congr {m n : Matrix} (h : n.cmds = m.cmds) (id : Nat) : n.cmd id = m.cmd id := by simp only [Matrix.cmd, h]

/-- A command that changes, the others as they were: the one of its number is what the change makes of it. -/
theorem find?_map_cmd {f : MCmd → MCmd} (hf : ∀ c, (f c).id = c.id) (cs : List MCmd) (id : Nat) :
    (cs.map f).find? (fun c => c.id == id) = (cs.find? fun c => c.id == id).map f := by
  simp only [List.find?_map, Function.comp_def, hf]

theorem Matrix.cmd_setCmd {m : Matrix} {id : Nat} {c d : MCmd} (h : m.cmd id = some c) (hd : d.id = id) : (m.setCmd d).cmd id = some d := by
  have keeps : ∀ x : MCmd, (if x.id == d.id then d else x).id = x.id := fun x => by
    split
    · exact (beq_iff_eq.1 ‹_›).symm
    · rfl
  rw [Matrix.cmd, Matrix.setCmd, find?_map_cmd keeps, show m.cmds.find? (fun c => c.id == id) = some c from h, Option.map_some,
    if_pos (beq_iff_eq.2 ((Matrix.cmd_id h).trans hd.symm))]

/-- A command that has left. -/
theorem cmd_filter_self (m : Matrix) (id : Nat) : Matrix.cmd { m with cmds := m.cmds.filter fun x => x.id != id } id = none :=
  List.find?_eq_none.2 fun c hc => by simpa using (List.mem_filter.1 hc).2

/-! ### A command that has completed (R195) -/

section Done
variable (s : State) (core : Nat) (c : MCmd) (kind num : Nat)

@[simp] theorem State.mxDone_mem : (s.mxDone core c kind num).mem = s.mem := State.updBlk_mem ..
@[simp] theorem State.mxDone_groups : (s.mxDone core c kind num).groups = s.groups := State.updBlk_groups ..
@[simp] theorem State.mx_mxDone : (s.mxDone core c kind num).mx core = { s.mx core with cmds := (s.mx core).cmds.filter fun x => x.id != c.id } :=
  (State.mx_updBlk ..).trans (State.mx_updMx ..)
/-- It leaves, and MSYNC will deliver its flags and failure. -/
theorem State.mxDone_done {s : State} {b : Blk} (hb : s.blk c.bk = some b) : ((s.mxDone core c kind num).mx core).cmd c.id = none
    ∧ ∃ b', (s.mxDone core c kind num).blk c.bk = some b' ∧ b'.mdones = b.mdones ++ [⟨c.id, c.gk, c.bank, c.flags, c.fail, kind, num⟩] := by
  refine ⟨by rw [State.mx_mxDone]; exact cmd_filter_self _ _, { b with mdones := b.mdones ++ [⟨c.id, c.gk, c.bank, c.flags, c.fail, kind, num⟩] }, ?_, rfl⟩
  rw [State.mxDone, State.updBlk_some ((State.blk_updMx ..).trans hb), State.blk_setBlk]

end Done

/-! ### Banks and rows -/

section Banks
variable (m : Matrix) (k : Nat) (x : Bank)

@[simp] theorem Matrix.bank_setBank : (m.setBank k x).bank k = x := by
  unfold Matrix.setBank Matrix.bank
  split
  · rfl
  · rfl
@[simp] theorem Matrix.setBank_cmds : (m.setBank k x).cmds = m.cmds := by unfold Matrix.setBank; split <;> rfl
@[simp] theorem Matrix.setBank_pass : (m.setBank k x).pass = m.pass := by unfold Matrix.setBank; split <;> rfl

theorem Bank.row_setRow_self {b : Bank} (h : SMap.wf MRow.clear b.rows = true) (r : Nat) (y : MRow) : (b.setRow r y).row r = y :=
  SMap.get_set_self r y (SMap.sorted_of_wf h)
theorem Bank.row_setRow_ne (b : Bank) {r q : Nat} (y : MRow) (h : q ≠ r) : (b.setRow r y).row q = b.row q := SMap.get_set_ne _ _ _ h
theorem Bank.wf_setRow {b : Bank} (h : SMap.wf MRow.clear b.rows = true) (r : Nat) (y : MRow) : SMap.wf MRow.clear (b.setRow r y).rows = true :=
  SMap.wf_set r y h

end Banks

/-! ### Reads of a memory that holds no error not yet found (R426) -/

/-- The state is as it was but for the free values drawn. -/
def State.DrawsOnly (t s : State) : Prop := ∃ n, t = { s with free := n }

theorem State.DrawsOnly.refl (s : State) : s.DrawsOnly s := ⟨s.free, rfl⟩
theorem State.DrawsOnly.trans {s t u : State} (h : t.DrawsOnly s) (k : u.DrawsOnly t) : u.DrawsOnly s := by
  obtain ⟨n, rfl⟩ := h
  obtain ⟨j, rfl⟩ := k
  exact ⟨j, rfl⟩
theorem State.DrawsOnly.latent {s t : State} (h : t.DrawsOnly s) (hs : s.mem.latent = []) : t.mem.latent = [] := by
  obtain ⟨n, rfl⟩ := h
  exact hs
theorem State.DrawsOnly.mx {s t : State} (h : t.DrawsOnly s) (core : Nat) : t.mx core = s.mx core := by
  obtain ⟨n, rfl⟩ := h
  rfl
theorem State.DrawsOnly.clock {s t : State} (h : t.DrawsOnly s) : t.clock = s.clock := by
  obtain ⟨n, rfl⟩ := h
  rfl

theorem State.meetWord_clean {s : State} (h : s.mem.latent = []) (ctx : Option Nat) (pa n : Nat) : s.meetWord ctx pa n = (s, s.mem.anyPoison pa n) :=
  State.Sound.meetWord (fun _ _ => by rw [h]; rfl) ctx
theorem State.meetWalks_clean {s : State} (h : s.mem.latent = []) (ag : Agent) (need : Need) (va n : Nat) : s.meetWalks ag need va n = s := by
  simp [State.meetWalks, h]
theorem State.meetVa_clean {s : State} (h : s.mem.latent = []) (ag : Agent) (va n : Nat) : s.meetVa ag va n = s := by simp [State.meetVa, h]
theorem State.meetList_clean {s : State} (h : s.mem.latent = []) (ag : Agent) (rs : List (Int × Nat)) : s.meetList ag rs = s := by
  cases rs with
  | nil => rfl
  | cons r rs => simp [State.meetList, h]
theorem State.meetDests_clean {s : State} (h : s.mem.latent = []) (ag : Agent) (es : List (Int × Nat × Nat × Bool)) : s.meetDests ag es = s := by
  simp [State.meetDests, h]

section Reads
variable {s : State} (h : s.mem.latent = [])
include h

theorem State.readLines_draws (ctx : Option Nat) (fuel pa n : Nat) : (s.readLines ctx fuel pa n).2.2.DrawsOnly s := by
  induction fuel generalizing s pa n with
  | zero => exact .refl s
  | succ fuel ih =>
    simp only [State.readLines, State.meetWord_clean h]
    split
    · exact .refl s
    · split
      · exact .trans ⟨s.free + 1, rfl⟩ (ih (s := { s with free := s.free + 1 }) h _ _)
      · exact ih h _ _

theorem State.readMarked_draws (ctx : Option Nat) (ps : List Part) : (s.readMarked ctx ps).2.2.DrawsOnly s := by
  induction ps generalizing s with
  | nil => exact .refl s
  | cons p ps ih =>
    have first := State.readLines_draws h ctx (p.len / 64 + 2) p.home p.len
    exact first.trans (ih (first.latent h))

theorem State.readHomes_draws (ctx : Option Nat) (ps : List Part) : (s.readHomes ctx ps).2.2.DrawsOnly s := State.readMarked_draws h ctx ps

theorem State.readVa_draws {ag : Agent} {va : Int} {n x : Nat} {z : Bool} {t : State} (hr : s.readVa ag va n = .ok (x, z, t)) : t.DrawsOnly s := by
  unfold State.readVa at hr
  split at hr
  · cases hr
  · rw [State.meetWalks_clean h] at hr
    have := State.readHomes_draws h (some ag.ctx) ‹_›
    rw [Except.ok.inj hr] at this
    exact this

theorem State.readElems_draws {ag : Agent} {bits : Nat} {es : List (Int × Nat)} {xs : List (Nat × Bool)} {t : State}
    (hr : s.readElems ag bits es = .ok (xs, t)) : t.DrawsOnly s := by
  induction es generalizing s xs with
  | nil => cases hr; exact .refl _
  | cons e es ih =>
    simp only [State.readElems] at hr
    split at hr
    · cases hr
    · split at hr
      · cases hr
      · cases hr
        have first := State.readVa_draws h ‹_›
        exact first.trans (ih (first.latent h) ‹_›)

theorem State.readPlanes_draws {ag : Agent} {k : Nat} {last : Option (Int × Nat × Bool)} {es : List (Int × Nat)} {xs : List (Nat × Bool)} {t : State}
    (hr : s.readPlanes ag k last es = .ok (xs, t)) : t.DrawsOnly s := by
  induction es generalizing s xs last with
  | nil => cases hr; exact .refl _
  | cons e es ih =>
    simp only [State.readPlanes] at hr
    split at hr
    · split at hr
      · cases hr
      · cases hr
        exact ih h ‹_›
    · split at hr
      · cases hr
      · split at hr
        · cases hr
        · cases hr
          have first := State.readVa_draws h ‹_›
          exact first.trans (ih (first.latent h) ‹_›)

theorem State.readRows_draws {ag : Agent} {hf : Half} {base : Int} {rec : BitVec 256} {count : Nat} {xs : List (Nat × Bool)} {t : State}
    (hr : s.readRows ag hf base rec count = .ok (xs, t)) : t.DrawsOnly s := by
  unfold State.readRows at hr
  split at hr
  · split at hr
    · cases hr
    · exact State.readPlanes_draws h hr
  · split at hr
    · cases hr
    · exact State.readElems_draws h hr

/-- What a BLD reads (R192). -/
theorem State.loadSlot_draws {c : MCmd} {x : MSlot} {cols : List MCol} {pos : List Nat} {z : Bool} {t : State}
    (hr : s.loadSlot c x = .ok (cols, pos, z, t)) : t.DrawsOnly s := by
  simp only [State.loadSlot] at hr
  split at hr
  · cases hr
  split at hr
  · cases hr
  split at hr
  · cases hr
  split at hr
  · cases hr
  generalize hp : (if (halfB c.fmt).sparse = 0 then _ else _) = p at hr
  cases p with
  | none => cases hr
  | some p =>
    cases hr
    have first := State.readElems_draws h ‹_›
    have second := State.readElems_draws (first.latent h) ‹_›
    have third := State.readElems_draws (second.latent (first.latent h)) ‹_›
    exact (first.trans second).trans third

/-- What the fill of an MMAS reads (R193). -/
theorem State.fillRows_draws {c : MCmd} {x : MSlot} {rows : List (MCol × Bool)} {fl : BitVec 6} {t : State}
    (hr : s.fillRows c x = .ok (rows, fl, t)) : t.DrawsOnly s := by
  simp only [State.fillRows] at hr
  split at hr
  · cases hr
  split at hr
  · cases hr
  cases hr
  have first := State.readRows_draws h ‹_›
  exact first.trans (State.readElems_draws (first.latent h) ‹_›)

/-- What is read back of a frame (R370). -/
theorem State.openBack_draws {bk off n : Nat} {whole : Bool} {t : State} (hr : s.openBack bk off n = some (whole, t)) : t.DrawsOnly s := by
  unfold State.openBack at hr
  split at hr
  · cases hr
  · obtain ⟨r, hread, hr⟩ := Option.map_eq_some_iff.1 hr
    obtain ⟨ps, -, rfl⟩ := Option.map_eq_some_iff.1 hread
    rw [← (Prod.mk.inj hr).2]
    exact State.readHomes_draws h _ _

end Reads

end Sys2Proof.Machine
end

section
/-! PROOFS. NEVAL (R202, R203, R307, R308): looking a network up, which reads no more than the table area and the pages of a context and keeps its
format blocks, entering a row in a tile, and the obligation. -/
namespace Sys2Proof.Machine
open Sys2Proof Host

/-! ### A context whose copies of format blocks change (R396) -/

/-- The state with other copies of the format blocks of a context's networks. -/
def State.setCopies (s : State) (ctx : Nat) (m : SMap (Bool × Option (BitVec 512))) : State := s.updCtx ctx fun k => { k with netCopies := m }

section Copies
variable (s : State) (ctx : Nat) (m : SMap (Bool × Option (BitVec 512)))

theorem State.ctx_setCopies (k : Nat) : ∃ x, (s.setCopies ctx m).ctx k = { s.ctx k with netCopies := x } := by
  by_cases hk : k = ctx
  · subst k
    exact ⟨m, State.ctx_setCtx ..⟩
  · exact ⟨(s.ctx k).netCopies, by simp only [State.setCopies, State.updCtx, State.setCtx, State.ctx, SMap.get, SMap.find?_put_ne _ _ hk]⟩
theorem State.netCopies_setCopies : ((s.setCopies ctx m).ctx ctx).netCopies = m := by rw [State.setCopies, State.updCtx, State.ctx_setCtx]

theorem State.seenLE_setCopies (k who unit pa n : Nat) : (s.setCopies ctx m).seenLE k who unit pa n = s.seenLE k who unit pa n := by
  induction n generalizing pa with
  | zero => rfl
  | succ n ih => simp only [State.seenLE, ih]; rfl
theorem State.tabEntry_setCopies (k kind idx : Nat) : (s.setCopies ctx m).tabEntry k kind idx = s.tabEntry k kind idx := by
  obtain ⟨x, hx⟩ := s.ctx_setCopies ctx m k
  have kinds : tabKind { s.ctx k with netCopies := x } kind = tabKind (s.ctx k) kind := by
    unfold tabKind
    rfl
  have lines : Ctx.tabLines { s.ctx k with netCopies := x } = Ctx.tabLines (s.ctx k) := rfl
  simp only [State.tabEntry, State.tabRange, hx, State.seenLE_setCopies, kinds, lines]
  rfl
theorem State.translate_setCopies (k core va : Nat) (does : Leaf → Bool) :
    (s.setCopies ctx m).translate k core va does = s.translate k core va does := by
  obtain ⟨x, hx⟩ := s.ctx_setCopies ctx m k
  simp only [State.translate, State.missed, State.walkAt, hx]
  rfl
theorem State.parts_setCopies (ag : Agent) (need : Need) (fuel va n : Nat) : (s.setCopies ctx m).parts ag need fuel va n = s.parts ag need fuel va n := by
  induction fuel generalizing va n with
  | zero => rfl
  | succ fuel ih =>
    simp only [State.parts, State.translate_setCopies, ih]
    rfl
theorem State.readBlocks_setCopies (ag : Agent) (x : Net) : (s.setCopies ctx m).readBlocks ag x = s.readBlocks ag x := by
  have reads : ∀ ps, (s.setCopies ctx m).readParts ps = s.readParts ps := fun ps => by
    induction ps with
    | nil => rfl
    | cons p ps ih => simp only [State.readParts, ih]; rfl
  simp only [State.readBlocks, State.loadNow, State.resolve, State.parts_setCopies, reads]

end Copies

/-! ### Looking a network up (R202, R396) -/

/-- The network of an entry with these copies, where it keeps the rules of R395 and R396. -/
def Net.judged (e : Nat) (c : BitVec 512) : Option (Net × BitVec 512) :=
  if (Net.of e).fieldsOk && (List.range (Net.of e).layers).all ((Net.of e).layerOk c) then some (Net.of e, c) else none
/-- The format blocks of an entry as read now, where they can be. -/
def State.blocksNow (s : State) (ag : Agent) (e : Nat) : Option (BitVec 512) :=
  match s.readBlocks ag (Net.of e) with | .error _ => none | .ok c => some c

theorem State.network_eq {s : State} (h : s.mem.latent = []) (ag : Agent) (i : Nat) : s.network ag i =
    match s.tabEntry ag.ctx 0 i with
    | some (e, false) =>
      match SMap.find? (s.ctx ag.ctx).netCopies i with
      | some c => (c.2.bind (Net.judged e), s)
      | none => ((s.blocksNow ag e).bind (Net.judged e), s.setCopies ag.ctx (SMap.put (s.ctx ag.ctx).netCopies i (false, s.blocksNow ag e)))
    | _ => (none, s) := by
  unfold State.network
  rcases s.tabEntry ag.ctx 0 i with - | ⟨e, - | -⟩
  · rfl
  · simp only [State.meetVa_clean h]
    rfl
  · rfl

/-- A lookup changes nothing but the contexts. -/
theorem State.network_ctxs {s : State} (h : s.mem.latent = []) (ag : Agent) (i : Nat) : ∃ x, (s.network ag i).2 = { s with ctxs := x } := by
  rw [State.network_eq h]
  split
  · split
    · exact ⟨s.ctxs, rfl⟩
    · exact ⟨_, rfl⟩
  · exact ⟨s.ctxs, rfl⟩

/-- After a lookup every handle is found as before. -/
theorem State.network_network {s : State} (h : s.mem.latent = []) (ag : Agent) (i j : Nat) : ((s.network ag i).2.network ag j).1 = (s.network ag j).1 := by
  rw [State.network_eq h ag i]
  split
  case h_2 => rfl
  next e he =>
    split
    · rfl
    next hnone =>
      rw [State.network_eq (show (s.setCopies _ _).mem.latent = [] from h), State.network_eq h ag j, State.tabEntry_setCopies, State.netCopies_setCopies]
      simp only [State.blocksNow, State.readBlocks_setCopies]
      by_cases hij : j = i
      · subst j
        simp only [he, hnone, SMap.find?_put_self]
      · simp only [SMap.find?_put_ne _ _ hij]
        split
        · split <;> rfl
        · rfl

/-- The same after the lookups of several handles, which change nothing but the contexts. -/
theorem State.networks {s : State} (h : s.mem.latent = []) (ag : Agent) (hs : List Nat) :
    (∃ x, hs.foldl (fun s i => (s.network ag i).2) s = { s with ctxs := x })
    ∧ ∀ j, ((hs.foldl (fun s i => (s.network ag i).2) s).network ag j).1 = (s.network ag j).1 := by
  induction hs generalizing s with
  | nil => exact ⟨⟨s.ctxs, rfl⟩, fun j => rfl⟩
  | cons i hs ih =>
    obtain ⟨x, hx⟩ := State.network_ctxs h ag i
    obtain ⟨⟨y, hy⟩, hj⟩ := ih (s := (s.network ag i).2) (by rw [hx]; exact h)
    refine ⟨⟨y, by rw [List.foldl_cons, hy, hx]⟩, fun j => ?_⟩
    rw [List.foldl_cons, hj, State.network_network h]

/-! ### Rows in tiles (R308) -/

/-- Some tile of the context and handle holds the row. -/
def Matrix.HoldsRow (m : Matrix) (ctx handle : Nat) (r : CRow) : Prop := ∃ y ∈ m.tiles, y.ctx = ctx ∧ y.handle = handle ∧ r ∈ y.rows

@[simp] theorem CTile.mem_rows_close (t : CTile) (now : Nat) (r : CRow) : r ∈ (t.close now).rows ↔ r ∈ t.rows := by
  unfold CTile.close
  split
  · exact List.mem_insertionSort _
  · rfl
@[simp] theorem CTile.close_ctx (t : CTile) (now : Nat) : (t.close now).ctx = t.ctx := by unfold CTile.close; split <;> rfl
@[simp] theorem CTile.close_handle (t : CTile) (now : Nat) : (t.close now).handle = t.handle := by unfold CTile.close; split <;> rfl

/-- Whether a row of the context and handle enters the tile. -/
def CTile.takes (ctx handle : Nat) (t : CTile) : Bool := t.ctx == ctx && t.handle == handle && t.st == 0
/-- The tile after the row has come: it enters an open tile of its context and handle, which closes at 32 rows. -/
def CTile.enter (now ctx handle : Nat) (r : CRow) (t : CTile) : CTile :=
  if t.takes ctx handle then (let t := { t with rows := t.rows ++ [r] }; if t.rows.length = 32 then t.close now else t) else t

theorem CTile.takes_iff {ctx handle : Nat} {t : CTile} : t.takes ctx handle = true ↔ (t.ctx = ctx ∧ t.handle = handle) ∧ t.st = 0 := by
  simp only [CTile.takes, Bool.and_eq_true, beq_iff_eq]

section Enter
variable (now ctx handle : Nat) (r : CRow) (t : CTile)

theorem CTile.enter_ctx : (t.enter now ctx handle r).ctx = t.ctx := by
  unfold CTile.enter
  split
  · dsimp only
    split
    · exact CTile.close_ctx ..
    · rfl
  · rfl
theorem CTile.enter_handle : (t.enter now ctx handle r).handle = t.handle := by
  unfold CTile.enter
  split
  · dsimp only
    split
    · exact CTile.close_handle ..
    · rfl
  · rfl
theorem CTile.mem_rows_enter (q : CRow) : q ∈ (t.enter now ctx handle r).rows ↔ q ∈ t.rows ∨ (t.takes ctx handle = true ∧ q = r) := by
  unfold CTile.enter
  split
  · rename_i h
    dsimp only
    split <;> simp [h]
  · rename_i h
    simp [h]

end Enter

section ChorusEnter
variable (s : State) (core ctx handle : Nat) (r : CRow)

theorem State.chorusEnter_tiles : ((s.chorusEnter core ctx handle r).mx core).tiles =
    if (s.mx core).tiles.any (CTile.takes ctx handle) then (s.mx core).tiles.map (CTile.enter s.clock ctx handle r)
    else (s.mx core).tiles ++ [{ id := s.seq, ctx := ctx, handle := handle, rows := [r], accepted := s.clock, st := 0, layer := 0, ready := 0 }] :=
  congrArg Matrix.tiles (State.mx_updMx (s.count core 21 1) core fun m => { m with windows := _, tiles := _ })

/-- A row that enters stands in a tile of its context and handle. -/
theorem State.chorusEnter_holds : ((s.chorusEnter core ctx handle r).mx core).HoldsRow ctx handle r := by
  unfold Matrix.HoldsRow
  rw [State.chorusEnter_tiles]
  split
  · obtain ⟨t, ht, htakes⟩ := List.any_eq_true.1 ‹_›
    obtain ⟨⟨hctx, hhandle⟩, -⟩ := CTile.takes_iff.1 htakes
    exact ⟨_, List.mem_map_of_mem ht, (CTile.enter_ctx ..).trans hctx, (CTile.enter_handle ..).trans hhandle, (CTile.mem_rows_enter ..).2 (.inr ⟨htakes, rfl⟩)⟩
  · exact ⟨_, List.mem_append_right _ List.mem_cons_self, rfl, rfl, List.mem_cons_self⟩

variable {s}

/-- Rows that stand in tiles stay there. -/
theorem State.chorusEnter_keeps {ctx' handle' : Nat} {q : CRow} (h : (s.mx core).HoldsRow ctx' handle' q) :
    ((s.chorusEnter core ctx handle r).mx core).HoldsRow ctx' handle' q := by
  obtain ⟨t, ht, hctx, hhandle, hq⟩ := h
  unfold Matrix.HoldsRow
  rw [State.chorusEnter_tiles]
  split
  · exact ⟨_, List.mem_map_of_mem ht, (CTile.enter_ctx ..).trans hctx, (CTile.enter_handle ..).trans hhandle, (CTile.mem_rows_enter ..).2 (.inl hq)⟩
  · exact ⟨t, List.mem_append_left _ ht, hctx, hhandle, hq⟩

end ChorusEnter

/-- The rows of several threads enter: nothing but the cores and the numbers given out changes, and each stands in a tile. -/
theorem State.chorusEnters (s : State) (core ctx : Nat) (handle : Nat → Nat) (row : Nat → CRow) (ts : List Nat) :
    (∃ x n, ts.foldl (fun s t => s.chorusEnter core ctx (handle t) (row t)) s = { s with cores := x, seq := n })
    ∧ (∀ c h q, (s.mx core).HoldsRow c h q → ((ts.foldl (fun s t => s.chorusEnter core ctx (handle t) (row t)) s).mx core).HoldsRow c h q)
    ∧ ∀ t ∈ ts, ((ts.foldl (fun s t => s.chorusEnter core ctx (handle t) (row t)) s).mx core).HoldsRow ctx (handle t) (row t) := by
  induction ts generalizing s with
  | nil => exact ⟨⟨s.cores, s.seq, rfl⟩, fun _ _ _ h => h, nofun⟩
  | cons t ts ih =>
    obtain ⟨⟨x, n, hx⟩, hkeeps, hholds⟩ := ih (s.chorusEnter core ctx (handle t) (row t))
    refine ⟨⟨x, n, hx⟩, fun c h q hq => hkeeps c h q (State.chorusEnter_keeps core ctx _ _ hq), fun u hu => ?_⟩
    rcases List.mem_cons.1 hu with rfl | hu
    · exact hkeeps _ _ _ (State.chorusEnter_holds ..)
    · exact hholds u hu

/-! ### NEVAL -/

section Neval
variable {st : BitVec 3} {d a b : BitVec 7} {nin nout : BitVec 6} {s : State} {e : Env}

/-- The row of a thread (R308): its inputs, their poison and its key. -/
def Env.nevalRow (e : Env) (d a : BitVec 7) (nin : BitVec 6) (t : Nat) : CRow :=
  let xs := (List.range (nin.toNat + 1)).map fun j => e.span a 1 j t
  { neval := e.s.seq, gk := e.gk, task := e.b.task, bid := e.b.bid, gix := e.g.gix, thread := t, xs := xs.map (·.val.toNat)
    poison := xs.any (·.poison), dest := e.g.num d, flags := 0 }
theorem Env.nevalRow_eq (e : Env) (d a : BitVec 7) (nin : BitVec 6) (t : Nat) : e.nevalRow d a nin t =
    { neval := e.s.seq, gk := e.gk, task := e.b.task, bid := e.b.bid, gix := e.g.gix, thread := t
      xs := (List.range (nin.toNat + 1)).map fun j => (e.v (e.g.num a + j) t).val.toNat
      poison := (List.range (nin.toNat + 1)).any fun j => (e.v (e.g.num a + j) t).poison, dest := e.g.num d, flags := 0 } := by
  simp only [Env.nevalRow, Env.span, one_mul, List.map_map, List.any_map, Function.comp_def]
/-- What is pending of a NEVAL of these threads. -/
def Env.nevalMarks (e : Env) (d : BitVec 7) (nout : BitVec 6) (ts : List Nat) : List Pend :=
  (List.range (nout.toNat + 1)).map fun j => ⟨.v (e.g.num d + j), maskOf ts, e.s.seq, .engine⟩
/-- The trap of a thread, found in a state after the handles are looked up. -/
def Env.nevalTrap (e : Env) (b : BitVec 7) (nin nout : BitVec 6) (s0 : State) (t : Nat) : Option Trap :=
  if (e.vec b t).poison then some (trap .poison)
  else if (match (s0.network (e.g.agent e.b) (e.vec b t).val.toNat).1 with | some (x, _) => x.k 0 == nin.toNat + 1 && x.outs == nout.toNat + 1 | none => false)
    then none else some (trap .nevalHandle)
theorem Env.nevalTrap_valid {e : Env} {b : BitVec 7} {nin nout : BitVec 6} {s0 : State} {t : Nat} {x : Net} {c : BitVec 512} (hz : (e.vec b t).poison = false)
    (hn : (s0.network (e.g.agent e.b) (e.vec b t).val.toNat).1 = some (x, c)) (hk : x.k 0 = nin.toNat + 1) (ho : x.outs = nout.toNat + 1) :
    e.nevalTrap b nin nout s0 t = none := by
  simp [Env.nevalTrap, hz, hn, hk, ho]
theorem Env.nevalTrap_invalid {e : Env} {b : BitVec 7} {nin nout : BitVec 6} {s0 : State} {t : Nat} (hz : (e.vec b t).poison = false)
    (hn : (s0.network (e.g.agent e.b) (e.vec b t).val.toNat).1 = none) : e.nevalTrap b nin nout s0 t = some (trap .nevalHandle) := by
  simp [Env.nevalTrap, hz, hn]
/-- The state after the handles of the active threads are looked up. -/
def Env.nevalLooked (e : Env) (b : BitVec 7) : State :=
  (((threadsOf e.p.mask).map fun t => (e.vec b t).val.toNat).eraseDups).foldl (fun s h => (s.network (e.g.agent e.b) h).2) e.s

/-- The group of a NEVAL all threads of which evaluate a network: its outputs are pending. -/
def Env.nevalGroup (e : Env) (i : Instr) (d : BitVec 7) (nout : BitVec 6) : Grp :=
  { e.seeChorus i e.g with pend := e.g.pend ++ e.nevalMarks d nout (threadsOf e.p.mask) }

/-- The lookups of a NEVAL's handles change nothing but the contexts, and find every handle as before. -/
theorem Env.nevalLooked_eq {e : Env} (hclean : e.s.mem.latent = []) (b : BitVec 7) : (∃ x, e.nevalLooked b = { e.s with ctxs := x })
    ∧ ∀ j, ((e.nevalLooked b).network (e.g.agent e.b) j).1 = (e.s.network (e.g.agent e.b) j).1 := State.networks hclean ..

/-- The state after the rows of a NEVAL have entered. -/
def Env.nevalEntered (e : Env) (i : Instr) (d a b : BitVec 7) (nin nout : BitVec 6) : State :=
  (threadsOf e.p.mask).foldl (fun s t => s.chorusEnter e.b.core e.b.ctx (e.vec b t).val.toNat (e.nevalRow d a nin t))
    { (e.nevalLooked b).setGrp e.gk (e.nevalGroup i d nout) with seq := e.s.seq + 1 }

theorem Env.nevalEntered_spec {e : Env} (hclean : e.s.mem.latent = []) (hg : e.s.grp e.gk = some e.g) (i : Instr) (d a b : BitVec 7) (nin nout : BitVec 6) :
    let t := e.nevalEntered i d a b nin nout
    t.mem = e.s.mem ∧ t.blocks = e.s.blocks ∧ t.dev = e.s.dev
      ∧ (∀ u ∈ threadsOf e.p.mask, (t.mx e.b.core).HoldsRow e.b.ctx (e.vec b u).val.toNat (e.nevalRow d a nin u))
      ∧ (e.nevalLooked b).grp e.gk = some e.g ∧ t.grp e.gk = some (e.nevalGroup i d nout) := by
  obtain ⟨⟨x, hlooked⟩, -⟩ := Env.nevalLooked_eq hclean b
  obtain ⟨⟨cores, n, hs⟩, -, hrows⟩ := State.chorusEnters { (e.nevalLooked b).setGrp e.gk (e.nevalGroup i d nout) with seq := e.s.seq + 1 }
    e.b.core e.b.ctx (fun t => (e.vec b t).val.toNat) (e.nevalRow d a nin) (threadsOf e.p.mask)
  change e.nevalEntered i d a b nin nout = _ at hs
  refine ⟨?_, ?_, ?_, hrows, by rw [hlooked]; exact hg, ?_⟩
  · rw [hs, State.setGrp_mem, hlooked]
  · rw [hs, State.setGrp_blocks, hlooked]
  · rw [hs, State.setGrp_dev, hlooked]
  · rw [hs]
    exact State.grp_setGrp ..

variable (h : s.env = some e) (hc : e.Clear (.neval st d a b nin nout))
include h hc

/-- NEVAL of a path whose threads read no faulted destination: threads that trap, and rows of the others. -/
theorem exec_neval : exec (.neval st d a b nin nout) s =
    let i : Instr := .neval st d a b nin nout
    let check := e.nevalTrap b nin nout (e.nevalLooked b)
    let fails : Fails := (threadsOf e.p.mask).filterMap fun t => (check t).map fun tr => (t, tr, noVa)
    let ts := (threadsOf e.p.mask).filter fun t => (check t).isNone
    .next (e.finish i (e.nextPc i) fails (ts.foldl (fun s t => s.chorusEnter e.b.core e.b.ctx (e.vec b t).val.toNat (e.nevalRow d a nin t))
      { (e.nevalLooked b).updGrp e.gk fun g => let g := e.seeFails i fails g; { g with pend := if ts.isEmpty then g.pend else g.pend ++ e.nevalMarks d nout ts }
        with seq := s.seq + 1 })) := by
  obtain ⟨hs, -⟩ := State.env_eq_some h
  obtain ⟨hissue, hdef⟩ := hc
  rw [Env.mem_readers (rdlaneMask_of (fun _ _ _ _ => Instr.noConfusion) _)] at hdef
  rw [show exec (.neval st d a b nin nout) s = execNeval st d a b nin nout s from rfl, execNeval, issueWith_clear h hissue]
  have check : ∀ t ∈ threadsOf e.p.mask, (e.deferred (.neval st d a b nin nout) t).or (e.nevalTrap b nin nout (e.nevalLooked b) t)
      = e.nevalTrap b nin nout (e.nevalLooked b) t := fun t ht => by rw [hdef t ht, Option.none_or]
  subst s
  have fails : ((threadsOf e.p.mask).filterMap fun t => ((e.deferred (.neval st d a b nin nout) t).or (e.nevalTrap b nin nout (e.nevalLooked b) t)).map
      fun tr => (t, tr, noVa)) = (threadsOf e.p.mask).filterMap fun t => (e.nevalTrap b nin nout (e.nevalLooked b) t).map fun tr => (t, tr, noVa) :=
    List.filterMap_congr fun t ht => by rw [check t ht]
  have ok : ((threadsOf e.p.mask).filter fun t => ((e.deferred (.neval st d a b nin nout) t).or (e.nevalTrap b nin nout (e.nevalLooked b) t)).isNone)
      = (threadsOf e.p.mask).filter fun t => (e.nevalTrap b nin nout (e.nevalLooked b) t).isNone :=
    List.filter_congr fun t ht => by rw [check t ht]
  dsimp only
  rw [← fails, ← ok]
  rfl

/-- NEVAL of threads with valid handles: their rows have entered, and the path goes on. -/
theorem exec_neval_enters (hm : e.p.mask ≠ 0) (hclean : s.mem.latent = [])
    (hok : ∀ t ∈ threadsOf e.p.mask, e.nevalTrap b nin nout (e.nevalLooked b) t = none) : let i : Instr := .neval st d a b nin nout
    exec i s = .next ((e.nevalEntered i d a b nin nout).setGrp e.gk (Path.set (e.nevalGroup i d nout) e.pi (e.advance i (e.nextPc i) e.p))) := by
  intro i
  obtain ⟨rfl, -, hg, -, hp⟩ := State.env_eq_some h
  obtain ⟨-, -, -, -, hgrp, hentered⟩ := Env.nevalEntered_spec hclean hg i d a b nin nout
  have fails : ((threadsOf e.p.mask).filterMap fun t => (e.nevalTrap b nin nout (e.nevalLooked b) t).map fun tr => (t, tr, noVa)) = [] :=
    List.filterMap_eq_nil_iff.2 fun t ht => by rw [hok t ht]; rfl
  have ok : ((threadsOf e.p.mask).filter fun t => (e.nevalTrap b nin nout (e.nevalLooked b) t).isNone) = threadsOf e.p.mask :=
    List.filter_eq_self.2 fun t ht => by rw [hok t ht]; rfl
  have some : (threadsOf e.p.mask).isEmpty = false := List.isEmpty_eq_false_iff.2 (threadsOf_ne_nil hm)
  rw [exec_neval h hc]
  simp only [fails, ok, some, Bool.false_eq_true, if_false, Env.seeFails_nil, State.updGrp_some hgrp, Env.seeChorus_pend]
  exact congrArg Outcome.next (Env.finish_in (t := e.nevalEntered i d a b nin nout) hentered ((Grp.path_of_paths (Env.seeChorus_paths ..) _).trans hp.symm) i _)

/-- NEVAL of threads none of whose handles is valid: they trap, and no row enters. -/
theorem exec_neval_traps (hm : e.p.mask ≠ 0) (hbad : ∀ t ∈ threadsOf e.p.mask, e.nevalTrap b nin nout (e.nevalLooked b) t = some (trap .nevalHandle)) :
    exec (.neval st d a b nin nout) s = .next (State.trapEntry { (e.nevalLooked b).updGrp e.gk fun g =>
        e.seeChorusBut (.neval st d a b nin nout) e.p.mask e.p.mask g with seq := s.seq + 1 } e.gk e.pi ⟨0x0E, 0⟩ e.p.mask noVa) := by
  have fails : ((threadsOf e.p.mask).filterMap fun t => (e.nevalTrap b nin nout (e.nevalLooked b) t).map fun tr => (t, tr, noVa))
      = sameTrap (trap .nevalHandle) (fun _ => noVa) (threadsOf e.p.mask) := by
    rw [sameTrap, ← List.filterMap_eq_map]
    exact List.filterMap_congr fun t ht => by rw [hbad t ht]; rfl
  have ok : ((threadsOf e.p.mask).filter fun t => (e.nevalTrap b nin nout (e.nevalLooked b) t).isNone) = [] :=
    List.filter_eq_nil_iff.2 fun t ht => by rw [hbad t ht]; exact Bool.false_ne_true
  rw [exec_neval h hc]
  simp only [fails, ok, List.isEmpty_nil, if_true, List.foldl_nil, Env.seeFails, Fails.mask_sameTrap, Fails.named_sameTrap _ _ hm, Env.finish,
    Env.finishAs_sameTrap _ _ _ _ _ hm, lowestVa_sameTrap_const _ _ (threadsOf_ne_nil hm)]
  rfl

end Neval

/-- Settles O41: the lookups change nothing but the contexts and find every handle as in the state of issue; then the rows enter one by one. -/
theorem networkEvaluations : Obligations.NetworkEvaluations := by
  intro st d a b nin nout s e h hpi hm i handle hc hclean hpoison
  obtain ⟨rfl, -, hg, -, hp⟩ := State.env_eq_some h
  obtain ⟨⟨x, hlooked⟩, hfound⟩ := Env.nevalLooked_eq hclean b
  refine ⟨fun hvalid => ?_, fun hinvalid => ?_⟩
  · have hok : ∀ t ∈ threadsOf e.p.mask, e.nevalTrap b nin nout (e.nevalLooked b) t = none := fun t ht => by
      obtain ⟨y, c, hy, hin, hout⟩ := hvalid t ht
      exact Env.nevalTrap_valid (hpoison t ht) ((hfound _).trans hy) hin hout
    obtain ⟨hmem, hblocks, hdev, hrows, -, -⟩ := Env.nevalEntered_spec hclean hg i d a b nin nout
    refine ⟨_, _, exec_neval_enters h hc hm hclean hok, State.grp_setGrp .., Path.set_path_self _ ?_, ?_, hmem, hblocks, hdev, rfl, fun u hu => ?_⟩
    · rwa [Env.nevalGroup, Env.seeChorus_paths]
    · exact Grp.SameRegs.trans (Path.set_sameRegs ..) ⟨rfl, rfl, rfl, rfl, rfl, rfl, rfl, rfl, rfl, rfl, rfl, rfl, rfl⟩
    · obtain ⟨y, hy, hctx, hhandle, hrow⟩ := hrows u hu
      exact ⟨y, hy, hctx, hhandle, Env.nevalRow_eq .. ▸ hrow⟩
  · have hbad : ∀ t ∈ threadsOf e.p.mask, e.nevalTrap b nin nout (e.nevalLooked b) t = some (trap .nevalHandle) := fun t ht =>
      Env.nevalTrap_invalid (hpoison t ht) ((hfound _).trans (hinvalid t ht))
    refine ⟨_, exec_neval_traps h hc hm hbad, ?_, ?_⟩
    · exact (State.updGrp_mem ..).trans (by rw [hlooked])
    · exact (State.updGrp_cores ..).trans (by rw [hlooked])

end Sys2Proof.Machine
end

section
/-! PROOFS. Writes one after another at different places, results that land in the registers of a resident group (R32, R107), and room for a slot
where the units are there (R189). -/
namespace Sys2Proof.Machine
open Sys2Proof Host

/-! ### Writes one after another -/

/-- Steps each of which changes what is read at its place alone: after steps at different places, each place holds what its step makes of what it
held, and all other places what they held. -/
theorem foldl_writes {σ β κ ν : Type} {read : σ → κ → ν} {ok : σ → Prop} {step : σ → β → σ} {place : β → κ} {val : β → ν → ν}
    (hok : ∀ s d, ok s → ok (step s d)) (hself : ∀ s d, ok s → read (step s d) (place d) = val d (read s (place d)))
    (hne : ∀ s d k, ok s → k ≠ place d → read (step s d) k = read s k) {ds : List β} {s : σ} (hs : ok s) (hd : ds.Pairwise fun x y => place x ≠ place y) :
    (∀ d ∈ ds, read (ds.foldl step s) (place d) = val d (read s (place d))) ∧ ∀ k, (∀ d ∈ ds, place d ≠ k) → read (ds.foldl step s) k = read s k := by
  induction ds generalizing s with
  | nil => exact ⟨nofun, fun _ _ => rfl⟩
  | cons d ds ih =>
    obtain ⟨hfirst, hrest⟩ := List.pairwise_cons.1 hd
    obtain ⟨hin, hout⟩ := ih (hok s d hs) hrest
    refine ⟨fun x hx => ?_, fun k hk => ?_⟩
    · rcases List.mem_cons.1 hx with rfl | hx
      · exact (hout _ fun y hy => (hfirst y hy).symm).trans (hself s x hs)
      · exact (hin x hx).trans (congrArg (val x) (hne s d _ hs (hfirst x hx).symm))
    · exact (hout k fun x hx => hk x (List.mem_cons_of_mem _ hx)).trans (hne s d k hs (hk d List.mem_cons_self).symm)

/-- A table after writes of different keys. -/
theorem SMap.get_setAll {α : Type} [DecidableEq α] {d : α} {m : SMap α} (h : SMap.wf d m = true) {ws : List (Nat × α)}
    (hw : ws.Pairwise fun x y => x.1 ≠ y.1) {w : Nat × α} (hmem : w ∈ ws) : SMap.get d (SMap.setAll d m ws) w.1 = w.2 :=
  (foldl_writes (read := SMap.get d) (ok := fun m => SMap.wf d m = true) (place := Prod.fst) (val := fun w _ => w.2)
    (fun _ _ hm => SMap.wf_set _ _ hm) (fun _ _ hm => SMap.get_set_self _ _ (SMap.sorted_of_wf hm)) (fun _ _ _ _ hk => SMap.get_set_ne _ _ _ hk) h hw).1 w hmem

/-! ### Results of a group on its core (R32) -/

/-- The group after a result of registers of the base set has landed. -/
def Grp.landed (g : Grp) (r : Result) : Grp :=
  { g with
    v := SMap.setAll RegVal.zero g.v (r.vw.filter fun w => g.alive.getLsbD (w.1 % 128))
    s := SMap.setAll RegVal.zero g.s r.sw
    flags := if g.alive == 0 then g.flags else g.flags ||| r.flags.setWidth 14
    pend := (g.pend.map fun p => if p.id == r.id then { p with mask := p.mask &&& ~~~r.mask } else p).filter fun p => p.mask != 0 }

theorem State.wrVs_base {s : State} {gk : Nat} {g : Grp} {ws : List (Nat × RegVal)} (hg : s.grp gk = some g) (hw : ∀ w ∈ ws, w.1 < 16384) :
    s.wrVs gk ws = s.setGrp gk { g with v := SMap.setAll RegVal.zero g.v ws } := by
  have base : (ws.filter fun w => w.1 < 128 * 128) = ws := List.filter_eq_self.2 fun w hm => by simpa using hw w hm
  have ext : (ws.filter fun w => 128 * 128 ≤ w.1) = [] := List.filter_eq_nil_iff.2 fun w hm => by simpa using hw w hm
  simp only [State.wrVs, hg, base, ext, List.isEmpty_nil, if_true]

theorem State.savedWrites_resident {s : State} {gk : Nat} {g : Grp} (hg : s.grp gk = some g) (hres : g.resident = true) (ws : List (Nat × RegVal)) :
    s.savedWrites gk ws = s := by
  simp only [State.savedWrites, hg, hres, if_true]

theorem State.applyResult_resident {s : State} {r : Result} {g : Grp} (hg : s.grp r.gk = some g) (hres : g.resident = true)
    (hw : ∀ w ∈ r.vw, w.1 < 16384) : s.applyResult r = s.setGrp r.gk (g.landed r) := by
  simp only [State.applyResult, hg, State.savedWrites_resident hg hres, State.wrVs_base hg fun w hm => hw w (List.mem_of_mem_filter hm),
    State.updGrp_some (State.grp_setGrp ..), State.setGrp_setGrp]
  rfl

/-- What a result of different registers leaves in a register of a thread that has not exited. -/
theorem Grp.get_landed {g : Grp} {r : Result} (ht : g.tidy) (hw : r.vw.Pairwise fun x y => x.1 ≠ y.1) {w : Nat × RegVal} (hmem : w ∈ r.vw)
    (halive : g.alive.getLsbD (w.1 % 128) = true) : SMap.get RegVal.zero (g.landed r).v w.1 = w.2 := by
  obtain ⟨hv, -⟩ := ht
  exact SMap.get_setAll hv (hw.filter _) (List.mem_filter.2 ⟨hmem, halive⟩)

/-! ### Room where the units are there (R189) -/

theorem Matrix.evictFor_fits {m : Matrix} {need : Nat} (h : need + m.used ≤ 256) (bk : Option Nat) (fuel : Nat) : Matrix.evictFor need bk fuel m = m := by
  cases fuel with
  | zero => rfl
  | succ fuel => rw [Matrix.evictFor, if_pos h]
theorem Matrix.makeRoom_fits {m : Matrix} {need : Nat} (h : need + m.used ≤ 256) (bk : Option Nat) : m.makeRoom need bk = some m := by
  simp only [Matrix.makeRoom]
  rw [if_pos (by omega), Matrix.evictFor_fits h]

/-- No slot leaves where the units are there. -/
theorem State.makeRoom_fits {s : State} {core need : Nat} (h : need + (s.mx core).used ≤ 256)
    (hslots : ∀ e ∈ (s.mx core).slots, SMap.find? (s.mx core).slots e.1 = some e.2) (bk : Option Nat) :
    s.makeRoom core need bk = some (s.updMx core fun _ => s.mx core) := by
  have stays : ((s.mx core).slots.filter fun e => e.2.st == 2 && (match SMap.find? (s.mx core).slots e.1 with | some x => x.st == 4 | none => false)) = [] :=
    List.filter_eq_nil_iff.2 fun e he => by
      rw [hslots e he]
      simp only [Bool.and_eq_true, beq_iff_eq, not_and]
      omega
  rw [State.makeRoom, Matrix.makeRoom_fits h]
  exact congrArg (fun gone : List (Nat × MSlot) => some ((gone.map fun e => e.1 / 16).eraseDups.foldl (fun (s : State) k => s.slotsOut core k)
    (s.updMx core fun _ => s.mx core))) stays

theorem MSlot.units_le (x : MSlot) : x.units ≤ slotUnits x.mode x.ks x.n := by
  unfold MSlot.units
  split
  · exact le_rfl
  · exact Nat.zero_le _

/-! ### A program's write (R279) -/

theorem State.programWrite_cores (s : State) (ws : List (Nat × Byte × Bool)) : (s.programWrite ws).cores = s.cores := by
  unfold State.programWrite
  dsimp only
  split <;> rfl
theorem State.programWrite_blocks (s : State) (ws : List (Nat × Byte × Bool)) : (s.programWrite ws).blocks = s.blocks := by
  unfold State.programWrite
  dsimp only
  split <;> rfl

end Sys2Proof.Machine
end

section
/-! PROOFS. The events of the matrix engine (R187 to R197, R299 to R305): what each leaves where its conditions hold, and the obligation. -/
namespace Sys2Proof.Machine
open Sys2Proof Host

theorem State.arg_eq {s : State} {l : List Nat} (h : s.subject = l) (k : Nat) : s.arg k = l.getD k 0 := by rw [State.arg, h]

/-- A command has completed: it has left the engine, and its block will see its flags and failure at MSYNC (R195). -/
def MCmd.DoneIn (c : MCmd) (b : Blk) (core : Nat) (t : State) (flags : BitVec 6) (fail kind num : Nat) : Prop :=
  (t.mx core).cmd c.id = none ∧ ∃ b', t.blk c.bk = some b' ∧ b'.mdones = b.mdones ++ [⟨c.id, c.gk, c.bank, flags, fail, kind, num⟩]

theorem MCmd.doneIn_mxDone {s t : State} {c : MCmd} {b : Blk} {core : Nat} {flags : BitVec 6} {fail kind num : Nat}
    (ht : t = s.mxDone core { c with flags := flags, fail := fail } kind num) (hb : s.blk c.bk = some b) : c.DoneIn b core t flags fail kind num :=
  ht ▸ State.mxDone_done core { c with flags := flags, fail := fail } kind num hb

section Command
variable {s : State} {core : Nat} {c : MCmd} {b : Blk} (hclean : s.mem.latent = []) (hcmd : (s.mx core).cmd c.id = some c) (hb : s.blk c.bk = some b)
  (hs : s.subject = [core, c.id])

/-! ### BLD (R192) -/

include hcmd hs in
theorem eventBldLoadStart_starts {x : MSlot} (hkind : c.kind = .bld) (hst : c.st = 0)
    (hbefore : ((s.mx core).before c.id).any (·.naming c.bk c.slot) = false) (hseen : Matrix.seen { s.mx core with cmds := [c] } c.bk c.slot = some x)
    (hfit : slotUnits x.mode x.ks x.n + Matrix.used { s.mx core with slots := SMap.del (s.mx core).slots (16 * c.bk + c.slot) } ≤ 256)
    (hslots : ∀ e ∈ SMap.del (s.mx core).slots (16 * c.bk + c.slot), SMap.find? (SMap.del (s.mx core).slots (16 * c.bk + c.slot)) e.1 = some e.2) :
    eventBldLoadStart s = s.updMx core fun m =>
      Matrix.setCmd { m with slots := SMap.put (SMap.del m.slots (16 * c.bk + c.slot)) (16 * c.bk + c.slot) x } { c with st := 1 } := by
  have room := State.makeRoom_fits (s := s.updMx core fun m => { m with slots := SMap.del m.slots (16 * c.bk + c.slot) }) (core := core) (need := x.units)
    (by rw [State.mx_updMx]; exact (Nat.add_le_add_right x.units_le _).trans hfit) (by rw [State.mx_updMx]; exact hslots) (some c.bk)
  simp only [eventBldLoadStart, State.arg_eq hs, List.getD_cons_zero, List.getD_cons_succ, hcmd, hkind, hst, hbefore, hseen, room,
    bne_self_eq_false, Bool.or_self, Bool.false_eq_true, if_false, State.updMx_updMx, State.mx_updMx]
  rfl

include hcmd in
theorem State.cmd_of_setCmd {t : State} {m : Matrix} {d : MCmd} (hm : t.mx core = m.setCmd d) (hcmds : m.cmds = (s.mx core).cmds) (hd : d.id = c.id) :
    (t.mx core).cmd c.id = some d := by
  rw [hm]
  exact Matrix.cmd_setCmd ((Matrix.cmd_congr hcmds _).trans hcmd) hd

include hclean hcmd hb hs in
/-- What a BLD whose reads succeed leaves. -/
theorem eventBldComplete_loads {x : MSlot} {cols : List MCol} {pos : List Nat} {z : Bool} {s1 : State} (hkind : c.kind = .bld) (hst : c.st = 1)
    (hx : SMap.find? (s.mx core).slots (16 * c.bk + c.slot) = some x) (hl : s.loadSlot c x = .ok (cols, pos, z, s1)) :
    let t := eventBldComplete s
    t.mem = s1.mem ∧ t.groups = s.groups
      ∧ SMap.find? (t.mx core).slots (16 * c.bk + c.slot) = some { x with st := 2, cols := cols, pos := pos, poison := z, stamp := s.clock }
      ∧ c.DoneIn b core t (cols.foldl (fun f col => f ||| alignFlags (halfB c.fmt) col pos (List.range x.ks)) 0) c.fail 1 c.slot := by
  obtain ⟨n, rfl⟩ := State.loadSlot_draws hclean hl
  have loaded : eventBldComplete s = State.mxDone (State.updMx { s with free := n } core fun m =>
      { m with slots := SMap.put m.slots (16 * c.bk + c.slot) { x with st := 2, cols := cols, pos := pos, poison := z, stamp := s.clock } }) core
      { c with flags := cols.foldl (fun f col => f ||| alignFlags (halfB c.fmt) col pos (List.range x.ks)) 0, fail := c.fail } 1 c.slot := by
    simp only [eventBldComplete, State.arg_eq hs, List.getD_cons_zero, List.getD_cons_succ, hcmd, hkind, hst, beq_self_eq_true, Bool.and_self, if_true, hx, hl]
  refine ⟨?_, ?_, ?_, MCmd.doneIn_mxDone loaded hb⟩
  · rw [loaded, State.mxDone_mem, State.updMx_mem]
  · rw [loaded, State.mxDone_groups, State.updMx_groups]
  rw [loaded, State.mx_mxDone, State.mx_updMx]
  exact SMap.find?_put_self ..

include hclean hcmd hb hs in
/-- What a BLD one of whose reads faults leaves. -/
theorem eventBldComplete_fails {x : MSlot} {cause : Cause} (hkind : c.kind = .bld) (hst : c.st = 1)
    (hx : SMap.find? (s.mx core).slots (16 * c.bk + c.slot) = some x) (hl : s.loadSlot c x = .error cause) :
    let t := eventBldComplete s
    t.mem = s.mem ∧ t.groups = s.groups ∧ SMap.find? (t.mx core).slots (16 * c.bk + c.slot) = some { x with st := 3, cols := [], pos := [] }
      ∧ c.DoneIn b core t c.flags cause.code 1 c.slot := by
  have failed : eventBldComplete s = (s.updMx core fun m =>
      { m with slots := SMap.put m.slots (16 * c.bk + c.slot) { x with st := 3, cols := [], pos := [] } }).mxDone core
      { c with flags := c.flags, fail := cause.code } 1 c.slot := by
    simp only [eventBldComplete, State.arg_eq hs, List.getD_cons_zero, List.getD_cons_succ, hcmd, hkind, hst, beq_self_eq_true, Bool.and_self, if_true, hx, hl,
      State.meetList_clean hclean]
  refine ⟨?_, ?_, ?_, MCmd.doneIn_mxDone failed hb⟩
  · rw [failed, State.mxDone_mem, State.updMx_mem]
  · rw [failed, State.mxDone_groups, State.updMx_groups]
  rw [failed, State.mx_mxDone, State.mx_updMx]
  exact SMap.find?_put_self ..

/-! ### MMAS (R193) -/

/-- The state after an MMAS has taken the token it asks for (R194). -/
def State.tokenTaken (s : State) (core : Nat) (c : MCmd) : State :=
  if c.rdy then s.updMx core fun m => m.setBank c.bank { m.bank c.bank with tokens := (m.bank c.bank).tokens - 1 } else s

/-- The bank is the one the state holds before. -/
theorem State.tokenTaken_eq (s : State) (core : Nat) (c : MCmd) : s.tokenTaken core c = if c.rdy then s.updMx core fun m =>
    m.setBank c.bank { (s.mx core).bank c.bank with tokens := ((s.mx core).bank c.bank).tokens - 1 } else s := rfl

theorem State.tokenTaken_spec (s : State) (core : Nat) (c : MCmd) : (s.tokenTaken core c).mem = s.mem ∧ ((s.tokenTaken core c).mx core).cmds = (s.mx core).cmds
    ∧ (((s.tokenTaken core c).mx core).bank c.bank).tokens = if c.rdy then ((s.mx core).bank c.bank).tokens - 1 else ((s.mx core).bank c.bank).tokens := by
  unfold State.tokenTaken
  split
  · refine ⟨rfl, ?_, ?_⟩
    · rw [State.mx_updMx, Matrix.setBank_cmds]
    · rw [State.mx_updMx, Matrix.bank_setBank]
  · exact ⟨rfl, rfl, rfl⟩

include hclean hcmd hs in
/-- What the fill of an MMAS leaves: its rows, and a token less where it asks for one. -/
theorem eventARowFillComplete_fills {x : MSlot} {rows : List (MCol × Bool)} {fl : BitVec 6} {s2 : State} (hkind : c.kind = .mmas) (hst : c.st = 0)
    (himage : (s.mx core).imageTaken = false) (hfirst : ((s.mx core).before c.id).any (fun y => y.kind == .mmas && y.st == 0) = false)
    (hbld : ((s.mx core).before c.id).any (fun y => y.kind == .bld && y.naming c.bk c.slot) = false)
    (htoken : c.rdy = true → ((s.mx core).bank c.bank).tokens ≠ 0) (hx : (s.mx core).slotOf c = some x) (hloaded : x.st ≠ 3)
    (hfill : (s.tokenTaken core c).fillRows c x = .ok (rows, fl, s2)) :
    let t := eventARowFillComplete s
    (t.mx core).cmd c.id = some { c with st := 2, fill := rows, flags := fl } ∧ t.mem = s2.mem
      ∧ ((t.mx core).bank c.bank).tokens = if c.rdy then ((s.mx core).bank c.bank).tokens - 1 else ((s.mx core).bank c.bank).tokens := by
  obtain ⟨hmem, hcmds, htokens⟩ := s.tokenTaken_spec core c
  obtain ⟨n, rfl⟩ := State.fillRows_draws (by rw [hmem]; exact hclean) hfill
  have ready : (c.rdy && ((s.mx core).bank c.bank).tokens == 0) = false := by
    cases hr : c.rdy with
    | false => rfl
    | true => simpa using htoken hr
  have filled : ∃ f, eventARowFillComplete s = (State.updGrp { s.tokenTaken core c with free := n } c.gk f).updMx core fun m =>
      m.setCmd { c with st := 2, fill := rows, flags := fl } := by
    have slot : ((s.mx core).slotOf c).filter (fun x => x.st != 3) = some x := by rw [hx]; simpa using hloaded
    simp only [eventARowFillComplete, State.arg_eq hs, List.getD_cons_zero, List.getD_cons_succ, hcmd, hkind, hst, himage, hfirst, hbld, ready,
      bne_self_eq_false, Bool.or_self, Bool.false_eq_true, if_false, slot]
    rw [State.tokenTaken_eq] at hfill
    simp only [hfill]
    exact ⟨_, rfl⟩
  obtain ⟨f, hf⟩ := filled
  rw [hf]
  have mx : ∀ f, (State.updGrp { s.tokenTaken core c with free := n } c.gk f).mx core = (s.tokenTaken core c).mx core := fun f => State.mx_updGrp ..
  refine ⟨State.cmd_of_setCmd hcmd ((State.mx_updMx ..).trans (by rw [mx])) hcmds rfl, ?_, ?_⟩
  · rw [State.updMx_mem, State.updGrp_mem]
  · rw [State.mx_updMx, mx]
    exact htokens

end Command
end Sys2Proof.Machine
end

section
/-! PROOFS. The passes of the matrix engine, its accumulator port, restores and the lease (R187, R190, R193, R196, R197, R305): what each event leaves
where its conditions hold. -/
namespace Sys2Proof.Machine
open Sys2Proof Host

section Command
variable {s : State} {core : Nat} {c : MCmd} {b : Blk}

/-! ### Passes (R190, R193) -/

section Start
variable (hpass : (s.mx core).pass = none) (hcand : (s.mx core).candidates s.clock = []) (hnext : (s.mx core).nextMmas = some c)
  (hfailed : (s.mx core).failedMmaq = none) (hempty : (s.mx core).emptyMmas = none) (hport : (s.mx core).nextPort = none) (hs : s.subject = [core])
include hpass hcand hnext hfailed hempty hport hs

/-- Where nothing else waits, the next MMAS starts or waits for its slot. -/
theorem eventPassStart_next {x : MSlot} (hx : (s.mx core).slotOf c = some x) : eventPassStart s =
    if x.st = 4 then s.updMx core fun m => m.setCmd { c with st := 5 }
    else ((s.updMx core fun m => m.setCmd { c with st := 3 }).stampSlot core c.bk c.slot).startPass core c.id false
      (c.rows * modeStep (modeOf (halfA c.fmt) (halfB x.fmt)) (halfA c.fmt)) := by
  simp only [eventPassStart, State.arg_eq hs, List.getD_cons_zero, hpass, hcand, hnext, hfailed, hempty, hport, hx, oldest, List.foldl_nil, Matrix.away,
    Option.isSome_none, Bool.false_eq_true, if_false, ite_self, beq_iff_eq]

end Start

theorem State.stampSlot_cmds (s : State) (core bk slot : Nat) : ((s.stampSlot core bk slot).mx core).cmds = (s.mx core).cmds := by
  rw [State.stampSlot, State.mx_updMx]
  split <;> rfl

/-- A command's pass starts: the command is at it, its slot stamped. -/
theorem State.passStarted (hcmd : (s.mx core).cmd c.id = some c) (bk slot clocks : Nat) :
    let t := ((s.updMx core fun m => m.setCmd { c with st := 3 }).stampSlot core bk slot).startPass core c.id false clocks
    (t.mx core).cmd c.id = some { c with st := 3 } ∧ t.mem = s.mem ∧ (t.mx core).pass = some (c.id, false, s.clock + clocks) := by
  refine ⟨?_, rfl, ?_⟩
  · rw [State.startPass, State.mx_updMx]
    refine (Matrix.cmd_congr (m := (s.mx core).setCmd { c with st := 3 }) ?_ _).trans (Matrix.cmd_setCmd hcmd rfl)
    exact (State.stampSlot_cmds ..).trans (by rw [State.mx_updMx])
  · rw [State.startPass, State.mx_updMx]
    rfl

/-- A row of an MMAS added to the rows of its bank, with what it reports (R193). -/
def MCmd.addFilled (c : MCmd) (x : MSlot) (acc : Bank × BitVec 6) (row : (MCol × Bool) × Nat) : Bank × BitVec 6 :=
  let r := (acc.1.row row.2).mmas c.clr (modeOf (halfA c.fmt) (halfB x.fmt)) (halfA c.fmt) (halfB x.fmt) row.1 x
  (acc.1.setRow row.2 r.1, acc.2 ||| alignFlags (halfA c.fmt) row.1.1 (List.range x.k) x.pos ||| (if r.2 then fNX else 0))

/-- The rows of an MMAS added one after another: each row of its fill once. -/
theorem MCmd.row_addFilled (c : MCmd) (x : MSlot) {bank : Bank} (hb : SMap.wf MRow.clear bank.rows = true) (fl : BitVec 6) (r : Nat) :
    (c.fill.zipIdx.foldl (c.addFilled x) (bank, fl)).1.row r = match c.fill[r]? with
      | some a => ((bank.row r).mmas c.clr (modeOf (halfA c.fmt) (halfB x.fmt)) (halfA c.fmt) (halfB x.fmt) a x).1
      | none => bank.row r := by
  have places : c.fill.zipIdx.Pairwise fun a b => a.2 ≠ b.2 := by
    refine List.Pairwise.imp Nat.ne_of_lt (List.pairwise_map.1 ?_ : c.fill.zipIdx.Pairwise fun a b => a.2 < b.2)
    rw [List.zipIdx_map_snd]
    exact List.pairwise_lt_range'
  obtain ⟨hin, hout⟩ := foldl_writes (s := (bank, fl)) (read := fun acc r => acc.1.row r) (ok := fun acc : Bank × BitVec 6 => SMap.wf MRow.clear acc.1.rows = true)
    (step := c.addFilled x) (place := Prod.snd) (val := fun d y => (y.mmas c.clr (modeOf (halfA c.fmt) (halfB x.fmt)) (halfA c.fmt) (halfB x.fmt) d.1 x).1)
    (fun _ _ h => Bank.wf_setRow h ..) (fun _ _ h => Bank.row_setRow_self h ..) (fun _ _ _ _ h => Bank.row_setRow_ne _ _ h) hb places
  cases hr : c.fill[r]? with
  | some a => exact hin (a, r) (List.mem_zipIdx_iff_getElem?.2 hr)
  | none => exact hout r fun d hd heq => by simpa [heq, hr] using List.mem_zipIdx_iff_getElem?.1 hd

/-- The pass of an MMAS whose slot is LOADED and whose fill was read ends. -/
theorem eventPassEnd_mmas {x : MSlot} {t0 : Nat} (hcmd : (s.mx core).cmd c.id = some c) (hb : s.blk c.bk = some b) (hpass : (s.mx core).pass = some (c.id, false, t0))
    (htime : t0 ≤ s.clock) (hkind : c.kind = .mmas) (hx : (s.mx core).slotOf c = some x) (hst : x.st = 2) (hfail : c.fail = 0)
    (hbank : SMap.wf MRow.clear ((s.mx core).bank c.bank).rows = true) (hs : s.subject = [core]) :
    let t := eventPassEnd s
    (t.mx core).pass = none ∧ t.mem = s.mem
      ∧ c.DoneIn b core t (c.fill.zipIdx.foldl (c.addFilled x) ((s.mx core).bank c.bank, c.flags)).2 c.fail 2 c.slot
      ∧ ∀ r, ((t.mx core).bank c.bank).row r = match c.fill[r]? with
        | some a => ((((s.mx core).bank c.bank).row r).mmas c.clr (modeOf (halfA c.fmt) (halfB x.fmt)) (halfA c.fmt) (halfB x.fmt) a x).1
        | none => ((s.mx core).bank c.bank).row r := by
  have ended : eventPassEnd s = State.mxDone ((State.count (s.updMx core fun m => { m with pass := none }) core 18 c.rows).updMx core fun m =>
      m.setBank c.bank (c.fill.zipIdx.foldl (c.addFilled x) ((s.mx core).bank c.bank, c.flags)).1) core
      { c with flags := (c.fill.zipIdx.foldl (c.addFilled x) ((s.mx core).bank c.bank, c.flags)).2, fail := c.fail } 2 c.slot := by
    have cmd : ({ s.mx core with pass := none } : Matrix).cmd c.id = some c := (Matrix.cmd_congr rfl _).trans hcmd
    have slot : ({ s.mx core with pass := none } : Matrix).slotOf c = some x := hx
    simp only [eventPassEnd, State.arg_eq hs, List.getD_cons_zero, hpass, Nat.not_lt.2 htime, hcmd, hkind, beq_self_eq_true, if_true, if_false, Bool.false_eq_true,
      State.endMmas, State.mx_count, State.mx_updMx, slot, hst, hfail, ne_eq, not_true, Nat.reduceEqDiff]
    rfl
  refine ⟨?_, ?_, MCmd.doneIn_mxDone ended hb, fun r => ?_⟩
  · rw [ended, State.mx_mxDone, State.mx_updMx, State.mx_count, State.mx_updMx]
    exact Matrix.setBank_pass ..
  · rw [ended, State.mxDone_mem]
    rfl
  · rw [ended, State.mx_mxDone, State.mx_updMx, ← c.row_addFilled x hbank c.flags r]
    exact congrArg (·.row r) (Matrix.bank_setBank ..)

/-! ### MEMIT (R196) -/

/-- A bank with its first rows cleared, one after another. -/
def Bank.clearRows (x : Bank) (n : Nat) : Bank := (List.range n).foldl (fun y r => y.setRow r MRow.clear) x

theorem Bank.row_clearRows {x : Bank} (h : SMap.wf MRow.clear x.rows = true) (n r : Nat) : (x.clearRows n).row r = if r < n then MRow.clear else x.row r := by
  obtain ⟨hin, hout⟩ := foldl_writes (read := Bank.row) (ok := fun y : Bank => SMap.wf MRow.clear y.rows = true) (step := fun y r => y.setRow r MRow.clear)
    (place := id) (val := fun _ _ => MRow.clear) (fun _ _ h => Bank.wf_setRow h ..) (fun _ _ h => Bank.row_setRow_self h ..)
    (fun _ _ _ _ h => Bank.row_setRow_ne _ _ h) h (ds := List.range n) (List.nodup_range (n := n))
  split
  · exact hin r (List.mem_range.2 ‹_›)
  · exact hout r fun d hd heq => ‹¬r < n› (heq ▸ List.mem_range.1 hd)

/-- What a MEMIT leaves whose port time has passed. -/
theorem eventMemitComplete_stores {f : Fmt} {vals : List (Nat × Bool × BitVec 6)} {w : List (Nat × Byte × Bool) × Option Cause}
    (hv : c.emitVals ((s.mx core).bank c.bank) f = vals) (hw : s.emitWrites c f vals = w) (hclean : s.mem.latent = []) (hcmd : (s.mx core).cmd c.id = some c) (hb : s.blk c.bk = some b)
    (hkind : c.kind = .memit) (hst : c.st = 3) (htime : c.until' ≤ s.clock) (hf : emitFmt (c.ctl.extractLsb' 0 4).toNat = some f)
    (hbank : SMap.wf MRow.clear ((s.mx core).bank c.bank).rows = true) (hs : s.subject = [core, c.id]) :
    let t := eventMemitComplete s
    t.mem = (s.programWrite w.1).mem
      ∧ c.DoneIn b core t (vals.foldl (fun fl v => fl ||| v.2.2) 0) (match w.2 with | some e => e.code | none => 0) 3 c.bank
      ∧ ∀ r, ((t.mx core).bank c.bank).row r = if c.clr = true ∧ r < c.emitRows then MRow.clear else ((s.mx core).bank c.bank).row r := by
  have mx : (s.programWrite w.1).mx core = s.mx core := State.mx_congr (State.programWrite_cores ..) _
  have blk : (s.programWrite w.1).blk c.bk = some b := (congrArg (SMap.find? · c.bk) (State.programWrite_blocks ..)).trans hb
  have stored : ∃ u : State, u.mem = (s.programWrite w.1).mem ∧ u.blk c.bk = some b
      ∧ ((u.mx core).bank c.bank = if c.clr then ((s.mx core).bank c.bank).clearRows c.emitRows else (s.mx core).bank c.bank)
      ∧ eventMemitComplete s = u.mxDone core { c with flags := vals.foldl (fun fl v => fl ||| v.2.2) 0, fail := match w.2 with | some e => e.code | none => 0 }
        3 c.bank := by
    refine ⟨if c.clr then (s.programWrite w.1).updMx core fun m => m.setBank c.bank ((m.bank c.bank).clearRows c.emitRows) else s.programWrite w.1, ?_, ?_, ?_, ?_⟩
    · split <;> rfl
    · split <;> exact blk
    · split
      · rw [State.mx_updMx, Matrix.bank_setBank, mx]
      · rw [mx]
    · simp only [eventMemitComplete, State.arg_eq hs, List.getD_cons_zero, List.getD_cons_succ, hcmd, hkind, hst, htime, beq_self_eq_true, Bool.and_self,
        decide_true, if_true, hf, hv, hw, State.meetDests_clean hclean]
      rfl
  obtain ⟨u, hmem, hblk, hrows, hu⟩ := stored
  refine ⟨?_, MCmd.doneIn_mxDone hu hblk, fun r => ?_⟩
  · rw [hu, State.mxDone_mem, hmem]
  · rw [hu, State.mx_mxDone]
    refine (congrArg (Bank.row · r) hrows).trans ?_
    cases c.clr
    · simp
    · simpa using Bank.row_clearRows hbank c.emitRows r

/-! ### MRD and MWR (R197) -/

/-- What an MRD of a thread's bank word leaves in its two registers. -/
def MCmd.portReads (c : MCmd) (bank : Bank) (t : Nat) : List (Nat × RegVal) :=
  let row := bank.row (portPlace c t).1
  let w := (portPlace c t).2
  let z := SMap.get false row.poison (w / modeWords row.mode)
  [(128 * c.aux.getD 3 0 + t, ⟨(SMap.get 0 row.words w).extractLsb' 0 32, z⟩), (128 * (c.aux.getD 3 0 + 1) + t, ⟨(SMap.get 0 row.words w).extractLsb' 32 32, z⟩)]

/-- The registers an MRD writes differ, each thread having two of its own. -/
theorem MCmd.portReads_pairwise (c : MCmd) (bank : Bank) (hd : c.data.Pairwise fun x y => x.1 ≠ y.1) (hlt : ∀ d ∈ c.data, d.1 < 96) :
    (c.data.flatMap fun d => c.portReads bank d.1).Pairwise fun x y => x.1 ≠ y.1 := by
  have place : ∀ d ∈ c.data, ∀ w ∈ c.portReads bank d.1, w.1 % 128 = d.1 := fun d hd w hw => by
    have := hlt d hd
    simp only [MCmd.portReads, List.mem_cons, List.not_mem_nil, or_false] at hw
    rcases hw with rfl | rfl <;> dsimp only <;> omega
  refine List.pairwise_flatMap.2 ⟨fun d _ => ?_, hd.imp_of_mem fun {x y} hx hy hne a ha w hw heq => ?_⟩
  · simp [MCmd.portReads]
  · exact hne ((place x hx a ha).symm.trans ((congrArg (· % 128) heq).trans (place y hy w hw)))

/-- The result of an MRD. -/
def MCmd.portResult (c : MCmd) (bank : Bank) : Result :=
  { id := c.id, gk := c.gk, cls := .other, mask := maskOf (c.data.map (·.1)), vw := c.data.flatMap fun d => c.portReads bank d.1, sw := [], flags := 0 }

theorem eventAccumPortAccess_reads {g : Grp} (hcmd : (s.mx core).cmd c.id = some c) (hkind : c.kind = .mrd) (halt : c.alt = false) (hst : c.st = 3)
    (htime : c.until' ≤ s.clock) (hg : s.grp c.gk = some g) (hres : g.resident = true) (hdest : c.aux.getD 3 0 + 1 < 128) (hlt : ∀ d ∈ c.data, d.1 < 96)
    (hs : s.subject = [core, c.id]) :
    eventAccumPortAccess s = (s.updMx core fun m => { m with cmds := m.cmds.filter fun y => y.id != c.id }).setGrp c.gk
      (g.landed (c.portResult ((s.mx core).bank c.bank))) := by
  have base : ∀ w ∈ (c.portResult ((s.mx core).bank c.bank)).vw, w.1 < 16384 := fun w hw => by
    obtain ⟨d, hd, hw⟩ := List.mem_flatMap.1 hw
    have := hlt d hd
    simp only [MCmd.portReads, List.mem_cons, List.not_mem_nil, or_false] at hw
    rcases hw with rfl | rfl <;> dsimp only <;> omega
  refine Eq.trans ?_ (State.applyResult_resident (r := c.portResult ((s.mx core).bank c.bank)) ((State.grp_updMx ..).trans hg) hres base)
  simp only [eventAccumPortAccess, State.arg_eq hs, List.getD_cons_zero, List.getD_cons_succ, hcmd, hkind, hst, halt, Nat.not_lt.2 htime, beq_self_eq_true,
    Bool.true_or, Bool.not_true, bne_self_eq_false, decide_false, Bool.or_self, Bool.false_eq_true, if_true, if_false, Bool.not_false, Bool.true_and]
  rfl

/-- A bank after an MWR of a thread's word. -/
def MCmd.portWrite (c : MCmd) (x : Bank) (d : Nat × DWord × Bool) : Bank :=
  let row := x.row (portPlace c d.1).1
  let w := (portPlace c d.1).2
  let j := w / modeWords row.mode
  x.setRow (portPlace c d.1).1 { row with
    words := SMap.set 0 row.words w d.2.1, lost := SMap.set false row.lost j false, spec := SMap.set 0 row.spec j 0, poison := SMap.set false row.poison j d.2.2 }

/-- A bank word. -/
def Bank.word (x : Bank) (p : Nat × Nat) : DWord := SMap.get 0 (x.row p.1).words p.2

/-- A bank whose rows, and the words of each, are kept in the canonical form. -/
def Bank.Tidy (x : Bank) : Prop := SMap.wf MRow.clear x.rows = true ∧ ∀ r, SMap.wf 0 (x.row r).words = true

theorem MCmd.row_portWrite (c : MCmd) {x : Bank} (h : x.Tidy) (d : Nat × DWord × Bool) (r : Nat) : ((c.portWrite x d).row r).words =
    if r = (portPlace c d.1).1 then SMap.set 0 (x.row r).words (portPlace c d.1).2 d.2.1 else (x.row r).words := by
  obtain ⟨hrows, -⟩ := h
  split
  · next heq => rw [heq, MCmd.portWrite, Bank.row_setRow_self hrows]
  · rw [MCmd.portWrite, Bank.row_setRow_ne _ _ ‹_›]

theorem MCmd.tidy_portWrite (c : MCmd) {x : Bank} (h : x.Tidy) (d : Nat × DWord × Bool) : (c.portWrite x d).Tidy := by
  refine ⟨Bank.wf_setRow h.1 .., fun r => ?_⟩
  rw [c.row_portWrite h]
  split
  · exact SMap.wf_set _ _ (h.2 r)
  · exact h.2 r

/-- The words after an MWR: those it names, and all others as they were. -/
theorem MCmd.word_portWrites (c : MCmd) {x : Bank} (h : x.Tidy) (hd : c.data.Pairwise fun a b => portPlace c a.1 ≠ portPlace c b.1) :
    (∀ d ∈ c.data, (c.data.foldl c.portWrite x).word (portPlace c d.1) = d.2.1)
      ∧ ∀ p, (∀ d ∈ c.data, portPlace c d.1 ≠ p) → (c.data.foldl c.portWrite x).word p = x.word p := by
  refine foldl_writes (read := Bank.word) (ok := Bank.Tidy) (step := c.portWrite) (place := fun d => portPlace c d.1) (val := fun d _ => d.2.1)
    (fun _ d h => c.tidy_portWrite h d) (fun y d h => ?_) (fun y d p h hne => ?_) h hd
  · rw [Bank.word, c.row_portWrite h, if_pos rfl]
    exact SMap.get_set_self _ _ (SMap.sorted_of_wf (h.2 _))
  · rw [Bank.word, c.row_portWrite h]
    split
    · next hr => exact SMap.get_set_ne _ _ _ fun hw => hne (Prod.ext hr hw)
    · rfl

theorem eventAccumPortAccess_writes (hcmd : (s.mx core).cmd c.id = some c) (hkind : c.kind = .mwr) (halt : c.alt = false) (hst : c.st = 3)
    (htime : c.until' ≤ s.clock) (hs : s.subject = [core, c.id]) :
    eventAccumPortAccess s = (s.updMx core fun m => m.setBank c.bank (c.data.foldl c.portWrite ((s.mx core).bank c.bank))).mxDone core
      { c with flags := c.flags, fail := c.fail } 0 c.bank := by
  have writes : (MKind.mwr == MKind.mrd) = false := rfl
  simp only [eventAccumPortAccess, State.arg_eq hs, List.getD_cons_zero, List.getD_cons_succ, hcmd, hkind, hst, halt, Nat.not_lt.2 htime, beq_self_eq_true,
    Bool.or_true, Bool.not_true, bne_self_eq_false, decide_false, Bool.or_self, Bool.false_eq_true, if_false, writes]
  rfl

/-! ### Restores (R305) -/

/-- The SAVED slot of an MMAS that waits, where the units are there: it comes back from the frame, or the task ends. -/
theorem eventSlotRestore_waited {x : MSlot} (hcmd : (s.mx core).cmd c.id = some c) (hb : s.blk c.bk = some b) (hs : s.subject = [core, c.bk, c.slot])
    (hx : SMap.find? (s.mx core).slots (16 * c.bk + c.slot) = some x) (hsaved : x.st = 4) (hkind : c.kind = .mmas) (hst : c.st = 5)
    (hfit : slotUnits x.mode x.ks x.n + (s.mx core).used ≤ 256) (hslots : ∀ e ∈ (s.mx core).slots, SMap.find? (s.mx core).slots e.1 = some e.2) :
    eventSlotRestore s = match (s.updMx core fun _ => s.mx core).openBack c.bk 0x160000 0x40000 with
      | none => s.restoreFailed core c.bk c.slot (s.frameVA b 0x160000)
      | some (whole, s2) => (if whole then s2 else s2.spoilSlots core c.bk).updMx core fun m =>
          { m with slots := SMap.upd x m.slots (16 * c.bk + c.slot) fun x => { x with st := 2, stamp := s.clock }
                   cmds := m.cmds.map fun y => if y.naming c.bk c.slot && y.st == 5 then { y with st := if y.kind == .mmas then 2 else 6 } else y } := by
  have wanted : ((s.mx core).cmds.any fun y => y.naming c.bk c.slot && y.st == 5) = true :=
    List.any_eq_true.2 ⟨c, Matrix.mem_of_cmd hcmd, by simp [MCmd.naming, hkind, hst]⟩
  cases hopen : (s.updMx core fun _ => s.mx core).openBack c.bk 0x160000 0x40000
  all_goals simp only [eventSlotRestore, State.arg_eq hs, List.getD_cons_zero, List.getD_cons_succ, hx, hb, hsaved, wanted, State.makeRoom_fits hfit hslots, ne_eq,
    not_true_eq_false, Bool.not_true, Bool.false_eq_true, decide_false, Bool.or_self, if_false, slotArea, hopen]

/-- A waiting command's slot has come back. -/
def MCmd.restored (c y : MCmd) : MCmd := if y.naming c.bk c.slot && y.st == 5 then { y with st := if y.kind == .mmas then 2 else 6 } else y

theorem MCmd.restored_id (c y : MCmd) : (c.restored y).id = y.id := by
  unfold MCmd.restored
  split <;> rfl

/-- The frame holds what was saved: the slot is LOADED and its MMAS goes on. -/
theorem eventSlotRestore_whole {x : MSlot} {s1 : State} (hclean : s.mem.latent = []) (hcmd : (s.mx core).cmd c.id = some c) (hb : s.blk c.bk = some b)
    (hs : s.subject = [core, c.bk, c.slot])
    (hx : SMap.find? (s.mx core).slots (16 * c.bk + c.slot) = some x) (hsaved : x.st = 4) (hkind : c.kind = .mmas) (hst : c.st = 5)
    (hfit : slotUnits x.mode x.ks x.n + (s.mx core).used ≤ 256) (hslots : ∀ e ∈ (s.mx core).slots, SMap.find? (s.mx core).slots e.1 = some e.2)
    (hopen : (s.updMx core fun _ => s.mx core).openBack c.bk 0x160000 0x40000 = some (true, s1)) :
    let t := eventSlotRestore s
    t.mem = s1.mem ∧ SMap.find? (t.mx core).slots (16 * c.bk + c.slot) = some { x with st := 2, stamp := s1.clock } ∧ (t.mx core).cmd c.id = some { c with st := 2 } := by
  have draws := State.openBack_draws (s := s.updMx core fun _ => s.mx core) hclean hopen
  have hmx : s1.mx core = s.mx core := (draws.mx core).trans (State.mx_updMx ..)
  have hclock : s1.clock = s.clock := draws.clock
  have restored : eventSlotRestore s = s1.updMx core fun m =>
      { m with slots := SMap.upd x m.slots (16 * c.bk + c.slot) fun x => { x with st := 2, stamp := s.clock }, cmds := m.cmds.map c.restored } := by
    rw [eventSlotRestore_waited hcmd hb hs hx hsaved hkind hst hfit hslots, hopen]
    rfl
  have changes : ({ x with st := 2, stamp := s.clock } : MSlot) ≠ x := fun heq => by
    have := (congrArg MSlot.st heq).trans hsaved
    cases this
  refine ⟨by rw [restored, State.updMx_mem], ?_, ?_⟩
  · rw [restored, State.mx_updMx, hmx, hclock]
    simp only [SMap.upd, SMap.get, hx, Option.getD_some, SMap.set, if_neg changes, SMap.find?_put_self]
  · rw [restored, State.mx_updMx, Matrix.cmd, find?_map_cmd c.restored_id, hmx]
    refine (congrArg (Option.map c.restored) hcmd).trans ?_
    simp [MCmd.restored, MCmd.naming, hkind, hst]

/-- The frame cannot be read. -/
theorem eventSlotRestore_fails {x : MSlot} (hcmd : (s.mx core).cmd c.id = some c) (hb : s.blk c.bk = some b) (hs : s.subject = [core, c.bk, c.slot])
    (hx : SMap.find? (s.mx core).slots (16 * c.bk + c.slot) = some x) (hsaved : x.st = 4) (hkind : c.kind = .mmas) (hst : c.st = 5)
    (hfit : slotUnits x.mode x.ks x.n + (s.mx core).used ≤ 256) (hslots : ∀ e ∈ (s.mx core).slots, SMap.find? (s.mx core).slots e.1 = some e.2)
    (hopen : (s.updMx core fun _ => s.mx core).openBack c.bk 0x160000 0x40000 = none) :
    eventSlotRestore s = s.restoreFailed core c.bk c.slot (s.frameVA b 0x160000) := by
  rw [eventSlotRestore_waited hcmd hb hs hx hsaved hkind hst hfit hslots, hopen]

end Command

/-! ### The lease (R187) -/

theorem eventLeaseClaimLapse_lapses {s : State} {core k : Nat} (hs : s.subject = [core]) (hclaim : (s.mx core).claim = some k) (hholder : (s.mx core).holder = none)
    (htime : (s.mx core).freeAt + 4096 ≤ s.clock) : eventLeaseClaimLapse s = s.updMx core fun m => { m with claim := none } := by
  simp [eventLeaseClaimLapse, State.arg_eq hs, hclaim, hholder, htime]
theorem eventLeaseFree_eq {s : State} {core : Nat} (hs : s.subject = [core]) : eventLeaseFree s =
    if (s.mx core).drained then s.updMx core fun m => { m with holder := none, drain := false, budget := 0, freeAt := s.clock } else s := by
  simp only [eventLeaseFree, State.arg_eq hs, List.getD_cons_zero]

/-- Settles O47: each event of the matrix engine by what it leaves where the clause's conditions hold. -/
theorem matrixEvents : Obligations.MatrixEvents := by
  unfold Obligations.MatrixEvents
  intro s core c b m key ev room done hclean
  refine ⟨fun hcmd hb => ⟨?bldStart, ?bldComplete, ?fill, ?passStart, ?passEnd, ?memit, ?mrd, ?mwr, ?restore⟩, fun hs => ⟨?lapse, ?free, ?held⟩⟩
  case bldStart =>
    intro x hkind hst hbefore hseen ⟨hfit, hslots⟩ hs
    refine ⟨_, rfl, ?_⟩
    rw [eventBldLoadStart_starts hcmd hs hkind hst hbefore hseen hfit hslots]
    refine ⟨?_, State.cmd_of_setCmd hcmd (State.mx_updMx ..) rfl rfl, rfl, rfl⟩
    rw [State.mx_updMx]
    exact SMap.find?_put_self ..
  case bldComplete =>
    exact fun x hkind hst hx => ⟨fun cols pos z s1 hl hs => ⟨_, rfl, eventBldComplete_loads hclean hcmd hb hs hkind hst hx hl⟩,
      fun cause hl hs => ⟨_, rfl, eventBldComplete_fails hclean hcmd hb hs hkind hst hx hl⟩⟩
  case fill =>
    exact fun x rows fl s2 hkind hst himage hfirst hbld htoken hx hloaded hfill hs =>
      ⟨_, rfl, eventARowFillComplete_fills hclean hcmd hs hkind hst himage hfirst hbld htoken hx hloaded hfill⟩
  case passStart =>
    intro x hpass hcand hnext hx hfailed hempty hport hs
    have start := eventPassStart_next hpass hcand hnext hfailed hempty hport hs hx
    refine ⟨fun hsaved => ⟨_, rfl, ?_⟩, fun hthere => ⟨_, rfl, ?_⟩⟩
    · rw [start, if_pos hsaved]
      exact ⟨State.cmd_of_setCmd hcmd (State.mx_updMx ..) rfl rfl, by rw [State.mx_updMx]; exact hpass, rfl⟩
    · rw [start, if_neg hthere]
      exact State.passStarted hcmd ..
  case passEnd =>
    intro x t0 hpass htime hkind hx hst hfail hbank hs
    obtain ⟨hnone, hmem, hdone, hrows⟩ := eventPassEnd_mmas hcmd hb hpass htime hkind hx hst hfail hbank hs
    rw [hfail] at hdone
    exact ⟨_, _, rfl, hnone, hmem, hdone, hrows⟩
  case memit =>
    exact fun f hkind hst htime hf hbank hs => ⟨_, rfl, eventMemitComplete_stores rfl rfl hclean hcmd hb hkind hst htime hf hbank hs⟩
  case mrd =>
    intro g hkind halt hst htime hg hres htidy hdest hdiff hlt hs
    refine ⟨_, rfl, ?_⟩
    rw [eventAccumPortAccess_reads hcmd hkind halt hst htime hg hres hdest hlt hs, State.mx_congr (State.setGrp_cores ..), State.mx_updMx]
    refine ⟨cmd_filter_self .., rfl, rfl, _, State.grp_setGrp .., fun d hd halive => ?_⟩
    have thread := hlt d hd
    have landed : ∀ w ∈ c.portReads ((s.mx core).bank c.bank) d.1, w.1 % 128 = d.1 →
        SMap.get RegVal.zero (g.landed (c.portResult ((s.mx core).bank c.bank))).v w.1 = w.2 := fun w hw hplace =>
      Grp.get_landed htidy (c.portReads_pairwise _ hdiff hlt) (List.mem_flatMap.2 ⟨d, hd, hw⟩) (hplace ▸ halive)
    exact ⟨landed _ List.mem_cons_self (by dsimp only; omega), landed _ (List.mem_cons_of_mem _ List.mem_cons_self) (by dsimp only; omega)⟩
  case mwr =>
    intro hkind halt hst htime hbank hwords hdiff hs
    have wrote := eventAccumPortAccess_writes hcmd hkind halt hst htime hs
    obtain ⟨hin, hout⟩ := c.word_portWrites ⟨hbank, hwords⟩ hdiff
    have bank : ((eventAccumPortAccess s).mx core).bank c.bank = c.data.foldl c.portWrite ((s.mx core).bank c.bank) := by
      rw [wrote, State.mx_mxDone, State.mx_updMx]
      exact Matrix.bank_setBank ..
    refine ⟨_, rfl, MCmd.doneIn_mxDone wrote hb, ?_, ?_, ?_⟩
    · rw [wrote, State.mxDone_mem, State.updMx_mem]
    · rw [wrote, State.mxDone_groups, State.updMx_groups]
    · rw [bank]
      exact ⟨hin, fun r w h => hout (r, w) h⟩
  case restore =>
    exact fun x hs hx hsaved hkind hst ⟨hfit, hslots⟩ =>
      ⟨fun s1 hopen => ⟨_, rfl, eventSlotRestore_whole hclean hcmd hb hs hx hsaved hkind hst hfit hslots hopen⟩,
        fun hopen => congrArg Outcome.next (eventSlotRestore_fails hcmd hb hs hx hsaved hkind hst hfit hslots hopen)⟩
  case lapse =>
    intro k hclaim hholder htime
    refine ⟨_, rfl, ?_⟩
    rw [eventLeaseClaimLapse_lapses hs hclaim hholder htime]
    exact ⟨State.mx_updMx .., rfl⟩
  case free =>
    intro hdrained
    refine ⟨_, rfl, ?_⟩
    rw [eventLeaseFree_eq hs, if_pos hdrained]
    exact ⟨State.mx_updMx .., rfl⟩
  case held =>
    intro hdrained
    refine congrArg Outcome.next ?_
    rw [eventLeaseFree_eq hs, if_neg (Bool.eq_false_iff.1 hdrained)]

end Sys2Proof.Machine
end

section
/-! PROOFS. A network whose load fails (R204, R310) for a row of a group that is away: the counterexample to the memory such a load leaves. -/
namespace Sys2Proof.Machine
open Sys2Proof Host

/-- An entry of one layer of one input and one output whose weights begin past the addresses there are. -/
def awayEntry : Nat := 1 + 2 ^ 239 + 2 ^ 504
/-- Its format blocks: E4M3 weights and inputs. -/
def awayBlocks : BitVec 512 := BitVec.ofNat 512 (4 * 2 ^ 60 + 8 * 2 ^ 47 + (4 * 2 ^ 60 + 8 * 2 ^ 47) * 2 ^ 64)
/-- A group that is away, v0 of its thread 0 pending for NEVAL 7. -/
def awayGroup : Grp := { Grp.start 0 0 0 0 0 0 0 with resident := false, alive := 1, pend := [⟨.v 0, 1, 7, .engine⟩] }
/-- Its row, in a closed tile of context 0 and handle 0. -/
def awayTile : CTile := ⟨0, 0, 0, [⟨7, 0, 0, 0, 0, 0, [0], false, 0, 0⟩], 0, 1, 0, 0⟩
/-- The handle slot that is being loaded. -/
def awayHandle : HSlot := ⟨0, 0, 1, 0, [], false, 0, 0⟩
/-- The engine of the core, with these alone. -/
def awayEngine (m : Matrix) : Matrix := { m with handles := [awayHandle], tiles := [awayTile] }
/-- The context, with its table area and the copies of the entry's format blocks. -/
def awayCtx (c : Ctx) : Ctx := { c with tab := BitVec.ofNat 128 (0x200000 * 2 ^ 64 + 2 ^ 51), netCopies := [(0, (false, some awayBlocks))] }
/-- The machine after reset with these. -/
def awayPlaced : State := (State.reset.updCtx 0 awayCtx).updMx 0 awayEngine
/-- The same with the group and the block, one page at address 0, and `w` in its first byte. -/
def awayState (w : Byte) : State :=
  { awayPlaced with
    mem := Memory.writeLE ⟨[(0, w)], [], [], []⟩ 0x200000 64 awayEntry, tlb := [⟨0, 0, 0, 0, 30, 0x5F⟩], groups := [(0, awayGroup)], blocks := [(0, Blk.placed')]
    subject := [0, 0, 0] }

/-! ### What is known of it, whichever of two bytes stands at address 0 -/

theorem awayState_tabEntry : ∀ w ∈ ([1, 2] : List Byte), (awayState w).tabEntry 0 0 0 = some (awayEntry, false) := by decide +kernel
theorem awayEntry_judged : Net.judged awayEntry awayBlocks = some (Net.of awayEntry, awayBlocks) := by decide +kernel
/-- How a load of layers fails, if it does. -/
def loadFailure (r : Except Cause (List HLayer × Bool × BitVec 6 × State)) : Option Cause := match r with | .error e => some e | .ok _ => none
theorem eq_error_of_loadFailure {r : Except Cause (List HLayer × Bool × BitVec 6 × State)} {e : Cause} (h : loadFailure r = some e) : r = .error e := by
  cases r with
  | error x => exact congrArg Except.error (Option.some.inj h)
  | ok x => cases h
theorem awayState_loadFailure : ∀ w ∈ ([1, 2] : List Byte),
    loadFailure ((awayState w).loadLayers ⟨0, 0, 2 ^ 64⟩ (Net.of awayEntry) awayBlocks (Net.of awayEntry).layers 0) = some .access := by decide +kernel
theorem awayState_mem : ∀ w ∈ ([1, 2] : List Byte), (awayState w).mem.wf = true ∧ (awayState w).mem.readLE 0 4 = w.toNat ∧ (awayState w).mem.latent = [] := by
  decide +kernel

theorem awayState_mx (w : Byte) : ∃ m, (awayState w).mx 0 = awayEngine m := by
  have cores : (awayState w).cores = awayPlaced.cores := by rw [awayState]
  exact ⟨(State.reset.updCtx 0 awayCtx).mx 0, by rw [State.mx_congr cores, awayPlaced, State.mx_updMx]⟩

theorem awayState_network {w : Byte} (hw : w ∈ ([1, 2] : List Byte)) :
    (awayState w).network ⟨0, 0, 2 ^ 64⟩ 0 = (some (Net.of awayEntry, awayBlocks), awayState w) := by
  obtain ⟨-, -, hclean⟩ := awayState_mem w hw
  have copies : SMap.find? ((awayState w).ctx 0).netCopies 0 = some (false, some awayBlocks) := rfl
  rw [State.network_eq hclean]
  simp only [awayState_tabEntry w hw, copies, Option.bind_some, awayEntry_judged]

theorem State.ctx_updMx (s : State) (core : Nat) (f : Matrix → Matrix) (k : Nat) : (s.updMx core f).ctx k = s.ctx k := rfl
theorem awayState_savebase (w : Byte) : ((awayState w).ctx 0).savebase = 0 := by
  have base : (awayPlaced.ctx 0).savebase = 0 := by decide +kernel
  have ctxs : (awayState w).ctxs = awayPlaced.ctxs := by rw [awayState]
  rw [State.ctx, ctxs]
  exact base
theorem awayState_grp (w : Byte) : (awayState w).grp 0 = some awayGroup := rfl
theorem awayState_blk (w : Byte) : (awayState w).blk 0 = some Blk.placed' := rfl

/-! ### A write for a group that is away (R370) -/

theorem State.wrVs_mem (s : State) (gk : Nat) (ws : List (Nat × RegVal)) : (s.wrVs gk ws).mem = s.mem := by
  unfold State.wrVs
  split
  · rfl
  · dsimp only
    split
    · rfl
    · exact State.updBlk_mem ..

/-- What lies in one held page of the save area that allows the access. -/
theorem State.frameParts_held {s : State} {ag : Agent} {need : Need} {va n h : Nat} {e : Nat × Nat} {l : Leaf} (hheld : s.tlbAt 0 ag.core ag.ctx va = some e)
    (hleaf : leafOf e.1 e.2 = .ok l) (hneed : l.allows need = true) (hord : l.ord ≤ 1) (hhost : l.host = false) (hhome : l.home va = some h)
    (hin : n + va % l.size ≤ l.size) (hn : n ≠ 0) (hva : va + n ≤ 2 ^ 32) : s.frameParts ag need va n = some [⟨va, h, n, l.ord, false, false⟩] := by
  have low : ¬(va / 2 ^ 56 ≠ 0 ∨ va + n > 2 ^ 56) := by omega
  have paged : isAperture va = false := by
    have : va / 2 ^ 32 = 0 := by omega
    rw [isAperture, this]
    rfl
  have whole : min n (l.size - va % l.size) = n := by omega
  have found : s.translate ag.ctx ag.core va (fun l => l.allows need) = .ok l := by
    simp only [State.translate, hheld, Option.some_or, hleaf, hneed, if_true]
  have ordinary : (l.ord == 3) = false := beq_false_of_ne (by omega)
  have rest : s.parts ag need n (va + n) 0 = .ok [] := by
    cases n with
    | zero => rfl
    | succ n => rfl
  simp only [State.frameParts, State.resolve, if_neg low, State.parts, if_neg hn, paged, found, hneed, ordinary, hhome, whole, Nat.sub_self, rest, hhost, hord,
    Bool.not_true, Bool.or_self, Bool.false_eq_true, if_false, if_true, List.all_cons, List.all_nil, Bool.not_false, decide_true, Bool.and_self]

/-- A register of the base set of a group that is away is written in its saved image, and nothing else of memory is where the rest of the image is not
what was saved. -/
theorem State.savedWrites_away {s : State} {gk k : Nat} {g : Grp} {b : Blk} {x : RegVal} {ps : List Part} (hg : s.grp gk = some g) (haway : g.resident = false)
    (hb : s.blk g.blk = some b) (hk : k < 16384) (halive : g.alive.getLsbD (k % 128) = true)
    (hps : s.frameParts (g.agent b) .write (s.frameVA b (g.rowsAt + 384 * (k / 128) + 4 * (k % 128))) 4 = some ps)
    (himage : SMap.find? b.images g.restAt = none)
    (hrest : ((s.performWrite (partBytes false ps x.val.toNat)).frameParts (g.agent b) .read (s.frameVA b g.restAt) 4096).isSome = true) :
    s.savedWrites gk [(k, x)] = s.performWrite (partBytes false ps x.val.toNat) := by
  obtain ⟨rest, hrest⟩ := Option.isSome_iff_exists.1 hrest
  simp only [State.savedWrites, hg, haway, hb, Bool.false_eq_true, if_false, List.filter_cons, halive, if_true, List.filter_nil, List.foldl_cons, List.foldl_nil, hk,
    State.frameWrite, hps, Option.map_some, Option.getD_some, hrest, himage]
  rfl

/-- The one page. -/
def awayLeaf : Leaf := ⟨0, 2 ^ 30, 1, false, true, true, true⟩

section Away
variable {u : State} (htlb : u.tlb = [⟨0, 0, 0, 0, 30, 0x5F⟩])

include htlb in
theorem frameParts_away {need : Need} {va n : Nat} (hneed : awayLeaf.allows need = true) (hn : n ≠ 0) (hva : va + n ≤ 2 ^ 30) (bk : Nat) :
    u.frameParts ⟨0, 0, bk⟩ need va n = some [⟨va, va, n, 1, false, false⟩] := by
  have page : va / 2 ^ 30 = 0 := by omega
  have held : u.tlbAt 0 0 0 va = some (0x5F, 2 ^ 30) := by
    simp only [State.tlbAt, htlb, TlbEnt.serves, page, List.find?_cons]
    rfl
  have home : awayLeaf.home va = some va := by
    have inPage : 0 + va % 2 ^ 30 = va := by omega
    have bytes : 2 ^ 30 ≤ stackBytes := by decide
    have place : va % 2 ^ 36 < stackBytes := by omega
    simp only [Leaf.home, awayLeaf, inPage, hbmLinear, Bool.false_eq_true, if_false, place, if_true, if_pos (show va < 2 ^ 40 by omega)]
  exact State.frameParts_held (l := awayLeaf) held (by decide +kernel) hneed le_rfl rfl home (by show n + va % 2 ^ 30 ≤ 2 ^ 30; omega) hn (by omega)

include htlb in
/-- v0 of thread 0 of the group written while it is away. -/
theorem savedWrites_awayGroup (hsave : (u.ctx 0).savebase = 0) (hg : u.grp 0 = some awayGroup) (hb : u.blk 0 = some Blk.placed') (x : RegVal) :
    (u.savedWrites 0 [(0, x)]).mem = u.mem.request (leBytes 0 false 4 x.val.toNat) := by
  have places : ∀ off, u.frameVA Blk.placed' off = off := fun off => by
    show (u.ctx 0).savebase + 0 * 2 ^ 22 + off = off
    omega
  have written : u.frameParts ⟨0, 0, 0⟩ .write 0 4 = some [⟨0, 0, 4, 1, false, false⟩] := frameParts_away htlb rfl (by decide) (by decide) 0
  have rest := frameParts_away (u := u.performWrite (partBytes false [⟨0, 0, 4, 1, false, false⟩] x.val.toNat)) htlb (need := .read) (va := 0xD000) (n := 4096)
    rfl (by decide) (by decide) 0
  rw [State.savedWrites_away hg rfl hb (by decide) rfl (by rw [places]; exact written) rfl (by rw [places]; exact Option.isSome_of_eq_some rest)]
  exact congrArg u.mem.request (List.append_nil _)

include htlb in
/-- The row that fails is given a free value, in the group's saved image. -/
theorem openRow_away (hsave : (u.ctx 0).savebase = 0) (hg : u.grp 0 = some awayGroup) (hb : u.blk 0 = some Blk.placed') :
    (u.openRow 0 7 0).mem = u.mem.request (leBytes 0 false 4 ((Config.freeValue u.free).extractLsb' 0 32).toNat) := by
  have regs : (if awayGroup.alive.getLsbD 0 then awayGroup.rowRegs 7 0 else []) = [0] := by decide +kernel
  simp only [State.openRow, hg, regs, List.zipIdx_singleton, List.map_cons, List.map_nil, List.length_singleton, State.wrVs_mem]
  exact savedWrites_awayGroup (u := { u with free := u.free + 1 }) htlb hsave hg hb _

end Away

/-- Where one row fails, memory is as after its register is given its value. -/
theorem State.failRows_mem {s : State} {core ctx h : Nat} {r : CRow} (cause : Nat)
    (hrows : ((s.mx core).tiles.filter fun t => t.ctx == ctx && t.handle == h).flatMap (·.rows) = [r]) :
    ∃ f, (s.failRows core ctx h cause).mem = ((s.updMx core f).openRow r.gk r.neval r.thread).mem := by
  simp only [State.failRows, hrows, List.foldl_cons, List.foldl_nil, State.updGrp_mem]
  exact ⟨_, rfl⟩

/-- The free value the failed row's register holds. -/
def awayValue : Word := (Config.freeValue State.reset.free).extractLsb' 0 32

theorem awayState_wrote {w : Byte} (hw : w ∈ ([1, 2] : List Byte)) : (eventChorusHandleLoadEnd (awayState w)).mem.readLE 0 4 = awayValue.toNat % 2 ^ 32 := by
  obtain ⟨hwf, -, hclean⟩ := awayState_mem w hw
  have handle : ((awayState w).mx 0).handle 0 0 = some awayHandle := by
    obtain ⟨m, hm⟩ := awayState_mx w
    rw [hm]
    rfl
  have fails := eq_error_of_loadFailure (awayState_loadFailure w hw)
  have failed : eventChorusHandleLoadEnd (awayState w) = (awayState w).failRows 0 0 0 Cause.access.code := by
    have subject : (awayState w).subject = [0, 0, 0] := rfl
    simp only [eventChorusHandleLoadEnd, State.arg_eq subject, List.getD_cons_zero, List.getD_cons_succ, handle, awayState_network hw, fails,
      State.meetList_clean hclean]
    rfl
  obtain ⟨m, hm⟩ := awayState_mx w
  have rows : (((awayState w).mx 0).tiles.filter fun t => t.ctx == 0 && t.handle == 0).flatMap (·.rows) = awayTile.rows := by rw [hm]; rfl
  obtain ⟨f, hf⟩ := State.failRows_mem Cause.access.code rows
  have opened := openRow_away (u := (awayState w).updMx 0 f) rfl ((congrArg Ctx.savebase (State.ctx_updMx ..)).trans (awayState_savebase w)) ((State.grp_updMx ..).trans (awayState_grp w))
    ((State.blk_updMx ..).trans (awayState_blk w))
  rw [failed, hf]
  refine (congrArg (Memory.readLE · 0 4) opened).trans ?_
  exact Memory.readLE_request_leBytes hwf ..

/-- Refutes O48: where a network's load fails, the failed row's register is given a free value, which for a group that is away is written to its
saved image in memory (R370): memory is not as the statement has it, whichever byte, 1 or 2, stood there. -/
theorem not_networkEvents : ¬ Obligations.NetworkEvents := by
  unfold Obligations.NetworkEvents
  intro h
  have stays : ∀ w ∈ ([1, 2] : List Byte), w.toNat = awayValue.toNat % 2 ^ 32 := fun w hw => by
    obtain ⟨-, hread, hclean⟩ := awayState_mem w hw
    obtain ⟨m, hm⟩ := awayState_mx w
    obtain ⟨-, -, -, -, -, -, -, loadEnd, -⟩ := h (awayState w) 0 0 0 0 hclean
    obtain ⟨-, fails⟩ := loadEnd awayHandle _ _ _ (by rw [hm]; rfl) rfl (awayState_network hw)
    obtain ⟨t, ht, -, hmem, -⟩ := fails .access (eq_error_of_loadFailure (awayState_loadFailure w hw)) rfl
    rw [← awayState_wrote hw, ← hread, ← hmem, ← Outcome.next.inj ht]
  exact absurd ((stays 1 (by decide)).trans (stays 2 (by decide)).symm) (by decide)

end Sys2Proof.Machine
end
